-- ==== Sys2Proof/Word.lean ====
section
/-! DEFINITION. The word types of the AQ9120 (R9: every register is 32 bits wide) and their plainest arithmetic:
saturating and wrapping counters (R13), single bits and bit fields. -/

namespace Sys2Proof

/-- A register or table-window word (R9). -/
abbrev Word := BitVec 32

/-- One octet of a frame, a descriptor or a record. -/
abbrev Byte := BitVec 8

/-- The all-ones value at which a 32-bit counter field saturates (R13). -/
def Word.ones : Word := 0xFFFFFFFF#32

/-- `w + n`, staying at all ones (R13). -/
def Word.satAdd (w : Word) (n : Nat) : Word :=
  if w.toNat + n < 4294967296 then BitVec.ofNat 32 (w.toNat + n) else Word.ones

/-- Field `[lo + len - 1 : lo]` of a word, as a number. -/
def Word.field (w : Word) (lo len : Nat) : Nat := (w.toNat >>> lo) % 2 ^ len

/-- Bit `i` of a word. -/
def Word.bit (w : Word) (i : Nat) : Bool := w.toNat.testBit i

/-- `w` with field `[lo + len - 1 : lo]` replaced by `v` (cut to `len` bits). -/
def Word.setField (w : Word) (lo len v : Nat) : Word :=
  BitVec.ofNat 32 (w.toNat - (w.field lo len) * 2 ^ lo + (v % 2 ^ len) * 2 ^ lo)

/-- `w` with bit `i` set to `b`. -/
def Word.setBit (w : Word) (i : Nat) (b : Bool) : Word := w.setField i 1 (if b then 1 else 0)

/-- The low 32 bits of a number. -/
def lo32 (n : Nat) : Word := BitVec.ofNat 32 n

/-- Bits 63..32 of a number. -/
def hi32 (n : Nat) : Word := BitVec.ofNat 32 (n >>> 32)

/-- A signed 64-bit view of an integer, as two's complement. -/
def twos64 (i : Int) : Nat := (i % 18446744073709551616).toNat

/-- A signed reading of the low `w` bits of a number. -/
def signedOf (w n : Nat) : Int :=
  if (n % 2 ^ w) * 2 < 2 ^ w then (n % 2 ^ w : Nat) else (n % 2 ^ w : Nat) - (2 ^ w : Nat)

/-- `n` held between two limits ("values outside act as the nearer limit"). -/
def clampNat (lo hi n : Nat) : Nat := if n < lo then lo else if hi < n then hi else n

/-- "0 acts as 1" (and the like): `d` in place of 0. -/
def zeroActs (d n : Nat) : Nat := if n = 0 then d else n

/-- Division rounded up. -/
def ceilDiv (a b : Nat) : Nat := (a + b - 1) / b

end Sys2Proof
end

