-- ==== Sys2Proof/Wire.lean ====
section
/-! DEFINITION. What the commands of the block carry: the parameter areas of host commands, received frames by the
fields the spec reads from them, and the answers of sensors, self-tests and checks that need cryptography. -/

namespace Sys2Proof

/-- What the header of a fetched descriptor and its ring give a command (R371, Table 12.3). -/
structure CmdHdr where
  ring  : Nat
  tag   : BitVec 16
  fence : Bool
  deriving DecidableEq, Repr

/-- A value on the way to a cell: the 32 bits and whether it is valid (R110, R111). -/
structure Val where
  bits : Word
  ok   : Bool
  deriving DecidableEq, Repr

/-- A digital word on the way to a cell: its 16 bits and whether it is valid (R111, R321). -/
structure Dig where
  bits : BitVec 16
  ok   : Bool
  deriving DecidableEq, Repr

/-- The measured content of a frame or cell, in the order of R136. -/
structure Payload where
  freq  : Val
  dfreq : Val
  ph    : List (Val × Val)
  an    : List Val
  dg    : List Dig
  deriving DecidableEq, Repr

/-- The redundancy control trailer of a received frame (R93, R94). -/
structure Rct where
  seq    : Nat
  lan    : Nat
  lsduOk : Bool
  deriving DecidableEq, Repr

/-- The SecTAG of a received frame (Table 3.2): its receive SC when its SCI is one the port holds, its association number,
whether its ICV is correct, and its packet number. -/
inductive SecTag where
  | none
  | tagged (sc : Option Nat) (an : Nat) (icvOk : Bool) (pn : Nat)
  deriving DecidableEq, Repr

/-- A C37.118 frame as carried (R107 to R110): fields before conversion. -/
structure C37Frame where
  sync      : Nat
  idcode    : Nat
  framesize : Nat
  chkOk     : Bool
  soc       : Nat
  fracsec   : Word
  numPmu    : Nat
  stat      : BitVec 16
  ph        : List (Word × Word)
  freq      : Word
  dfreq     : Word
  an        : List Word
  dg        : List (BitVec 16)
  deriving DecidableEq, Repr

/-- The UDP checksum of a received datagram (R92). -/
inductive UdpCsum where
  | good | bad | zero
  deriving DecidableEq, Repr

/-- A received UDP datagram. -/
structure Udp where
  v6         : Bool
  srcIp      : Nat
  dstIp      : Nat
  multicast  : Bool
  dport      : Nat
  fragmented : Bool
  csum       : UdpCsum
  c37        : Option C37Frame
  deriving DecidableEq, Repr

/-- One ASDU of a sampled-value frame (R112): (value, quality) per channel. -/
structure Asdu where
  smpCnt   : Nat
  smpSynch : Nat
  chans    : List (Int × Nat)
  deriving DecidableEq, Repr

/-- A sampled-value frame (R112). -/
structure SvFrame where
  appid   : Nat
  svidCrc : Word
  confRev : Word
  asdus   : List Asdu
  deriving DecidableEq, Repr

/-- What a received PTP message of the port's domain brings (R56 to R64). Times in 2^-16 ns. `better` is the outcome of the
best master clock algorithm for the announced clock; `inaccuracy` the total of the IEEE_C37_238 TLV. -/
inductive PtpMsg where
  | announce (grandmaster : Nat) (clockClass : Nat) (better : Bool) (utcOffset : Int) (utcValid leap61 leap59 : Bool)
      (inaccuracy : Nat)
  | sync (twoStep : Bool) (origin correction : Int)
  | followUp (origin correction : Int)
  | pdelayReq
  | pdelayResp (t2 t3 : Int)
  deriving DecidableEq, Repr

/-- The body of a received frame after its link headers, by the rows of Table 3.1. -/
inductive FrameBody where
  | ptp (m : PtpMsg)
  | prpSup
  | macCtrl (opcode quanta : Nat)
  | sv (f : SvFrame)
  | udp (u : Udp)
  | other
  deriving DecidableEq, Repr

/-- A frame as it arrives at a port (R89, R90). -/
structure RxFrame where
  len     : Nat
  fcsOk   : Bool
  reasmOk : Bool
  tags    : Nat
  dst     : Nat
  src     : Nat
  rct     : Option Rct
  sec     : SecTag
  free    : Nat
  body    : FrameBody
  words   : List Word
  deriving DecidableEq, Repr

/-- Parameters of STM_COMMIT and SFL_COMMIT (R118, R202). -/
structure CommitArgs where
  mode : Nat
  sec  : Nat
  ns   : Nat
  deriving DecidableEq, Repr

/-- Tamper sources of Table 13.13 that are detected while running. -/
inductive TamperSrc where
  | loop0 | loop1 | shield | temp | freq | glitch
  deriving DecidableEq, Repr

/-- An update message (Table 13.10): its fields and the outcome of the two checks that need cryptography. -/
structure UpdateMsg where
  lenOk      : Bool
  formatOk   : Bool
  typ        : Nat
  payloadOk  : Bool
  serial     : BitVec 64
  counter    : Word
  signer     : Nat
  sigOk      : Bool
  keyOk      : Bool
  key        : Nat
  memErr     : Bool
  deriving DecidableEq, Repr

/-- The board block of a boot image (Table 14.8): reservoir parameters (R445). -/
structure BoardBlock where
  resCtrl : Word
  resCap  : Word
  vin     : Word
  deriving DecidableEq, Repr

/-- One image slot as BOOT finds it (R467). -/
structure ImageSlot where
  magicOk  : Bool
  keyOk    : Bool
  sigOk    : Bool
  bodyOk   : Bool
  svn      : Nat
  fwVer    : Nat
  bytes    : Nat
  measure  : Nat
  board    : Option BoardBlock
  act      : Option (List (Nat × Word))
  deriving DecidableEq, Repr

/-- What BOOT meets on its way (Table 14.9): hardware answers that the device does not choose. -/
structure BootReport where
  hallmarkOk   : Bool
  hallmarkKey  : Nat
  slotA        : ImageSlot
  slotB        : ImageSlot
  dramMib      : Nat
  badKeys      : List Nat
  damagedGen   : List Nat
  damagedSec   : List Nat
  tilesBad     : List Nat
  phxBad       : List Nat
  laneABad     : Bool
  laneBBad     : Bool
  coresBad     : List Nat
  swageBad     : Bool
  skewCal      : Nat
  bootMs       : Nat
  deriving DecidableEq, Repr

/-- What the Annealer reads at the start of a period (R459, R461). -/
structure AnnealerInput where
  forecast  : Nat
  restored  : Nat
  floor     : Nat
  temps     : List Int
  deriving DecidableEq, Repr

/-- PTP messages a port originates (R59). -/
inductive PtpTx where
  | sync | announce | pdelayReq
  deriving DecidableEq, Repr

/-- An NMEA ZDA or RMC sentence (R65). -/
structure NmeaSentence where
  checksumOk : Bool
  utcSecond  : Nat
  deriving DecidableEq, Repr

/-- An IRIG-B frame (R66); the control-function extension of IEEE 1344 when present. -/
structure IrigFrame where
  seconds   : Nat
  hasYear   : Bool
  ext       : Option (Int × Bool × Bool)
  deriving DecidableEq, Repr

/-- What a TWIN_STATE frame says (R328, R330, Table 10.9): the role and swap count, `PREFER`, the code of the operating state,
`DEG_UNITS`, whether Safelight has fallen back and the TBU is LOCKED, the digest of the tables, the (session, sequence) of every
link under the pair number, by port and device, and the alarm version. -/
structure TwinPartner where
  role     : Nat
  swaps    : Nat
  prefer   : Bool
  op       : Nat
  deg      : Nat
  fallback : Bool
  locked   : Bool
  digest   : Nat
  links    : List (Nat × Word × Word)
  v        : Word
  deriving DecidableEq, Repr

/-- Payloads of Braze frames (Table 10.8). -/
inductive BrzPayload where
  | set (tick rateCode rev : Nat) (stat : BitVec 16) (epoch : Nat) (p : Payload)
  | alarm (v : Word) (held : Bool) (flags lowest count raw : Nat)
  | ack (session seq : Word) (v : Word)
  | heartbeat
  | timeSync (egress : Nat) (uncert : Word) (utc : Word) (locked : Bool)
  | timeReq
  | timeResp (t2 t3 : Int)
  | twinMask (set k : Nat) (mask : List Bool)
  | twinDigest (set k : Nat) (digest : Nat)
  | twinState (t : TwinPartner)
  | giveUp (cause : Nat)
  deriving DecidableEq, Repr

/-- A Braze frame as received (Table 10.7). -/
structure BrzFrame where
  port     : Nat
  src      : Nat
  dst      : Nat
  session  : Word
  seq      : Word
  authCur  : Bool
  authPrev : Bool
  payload  : BrzPayload
  deriving DecidableEq, Repr

/-- The timing IE of Table 11.4. -/
structure TimingIe where
  tick     : Nat
  nextMs   : Nat
  uncert   : Nat
  depth    : Nat
  orphan   : Bool
  unlocked : Bool
  permit   : Bool
  epoch    : Nat
  deriving DecidableEq, Repr

/-- The mesh IE of Table 11.4. -/
structure MeshIe where
  origin : Nat
  dest   : Nat
  ttl    : Nat
  flood  : Bool
  up     : Bool
  seq    : Nat
  deriving DecidableEq, Repr

/-- The end-to-end payloads of Table 11.8, with the outcome of the MIC check. -/
structure E2e where
  typ    : Nat
  epoch  : Nat
  rc     : Word
  micOk  : Bool
  tick   : Nat
  stat   : BitVec 16
  pay    : Option Payload
  psize  : Nat
  data   : List Byte
  child  : Nat
  depth  : Nat
  deriving DecidableEq, Repr

/-- Kinds of received MAC frame (Table 11.3). -/
inductive FlgBody where
  | beacon
  | data (mesh : MeshIe) (e : E2e)
  | enhAck (pendingBit : Bool) (seqOf : Nat)
  | assocReq (eui : Nat)
  | assocResp (short : Nat) (ok : Bool) (eui : Nat)
  | disassoc
  | dataReq
  | unsupported
  deriving DecidableEq, Repr

/-- A transaction of the radio link port that brings a PSDU (R335, R338): the transceiver's status byte and the frame's
fields. `src` and `dst` are short addresses. -/
structure FlgFrame where
  statusByte : Nat
  version    : Nat
  pan        : Nat
  src        : Nat
  dst        : Nat
  seq        : Nat
  level      : Nat
  keyIndex   : Nat
  micOk      : Bool
  counter    : Word
  ackReq     : Bool
  len        : Nat
  rssi       : Int
  lqi        : Nat
  timing     : Option TimingIe
  body       : FlgBody
  deriving DecidableEq, Repr

/-- A descriptor as it stands in a submission ring entry (Table 12.3). -/
structure Desc where
  ring     : Nat
  index    : Nat
  code     : Nat
  fence    : Bool
  tag      : BitVec 16
  reserved : Bool
  deriving DecidableEq, Repr

/-- One read of the doorbell page and of the ring entries it leads to (R365, R369). -/
structure PollRead where
  pageOk   : Bool
  tails    : List Nat
  heads    : List Nat
  spqRead  : List Nat
  descs    : List Desc
  fetchBad : List Nat
  writeBad : List Nat
  deriving DecidableEq, Repr

/-- The parameters shared by KEY_GENERATE and KEY_IMPORT (Table 13.4). -/
structure KeyArgs where
  slot    : Nat
  typ     : Nat
  usage   : BitVec 16
  keyId   : Word
  hostTag : Word
  deriving DecidableEq, Repr

/-- What KEY_IMPORT finds in its blob (Table 13.5); `key` is the key it unwraps, `memErr` a PCIe error on its read. -/
structure ImportBlob where
  len     : Nat
  aligned : Bool
  counter : Word
  tagOk   : Bool
  kcvOk   : Bool
  kcv     : BitVec 24
  key     : Nat
  memErr  : Bool
  deriving DecidableEq, Repr

/-- What the MAC of a port answers to a verification attempt (R100). -/
structure VerifyAnswer where
  answered : Bool
  addFrag  : Nat
  deriving DecidableEq, Repr

/-- What SECDED finds when a spill queue's storage is read (R387): nothing, a corrected bit, a double-bit error in the words of
the item, or one in the item index. The operand of the first two errors says whether they lie in the middle, in device DRAM,
and where (R497). -/
inductive SpqEcc where
  | clean
  | corrected (dram : Bool)
  | wordUe (dram : Option Nat)
  | indexUe
  deriving DecidableEq, Repr

/-- What SECDED finds when a cell is read (R139): a corrected or an uncorrectable error in tile SRAM, or one in the cell's
spilled part in device DRAM, with its address when it is uncorrectable. -/
inductive CellEcc where
  | sramCe
  | sramUe
  | spillCe
  | spillUe (addr : Nat)
  deriving DecidableEq, Repr

/-- An error met in the cell of a stream. -/
structure CellFault where
  stream : Nat
  ecc    : CellEcc
  deriving DecidableEq, Repr

/-- What goes wrong in a look: errors in the cells it reads, and the tiles that do not complete their part within 50 µs
(Table 4.7, cause 2). -/
structure LookFaults where
  cells : List CellFault
  late  : List Nat
  deriving DecidableEq, Repr

/-- What a read of tile SRAM outside a member's look finds (R139): nothing, a corrected error, or an uncorrectable one, in
the cell of a stream and slot or, with none, in the reserved test cell. -/
inductive TileFind where
  | clean
  | corrected
  | uncorrectable (cell : Option (Nat × Nat))
  deriving DecidableEq, Repr

/-- What scrubbing finds in one word of device DRAM (R497), or in the SRAM of a tile (R139, Table 14.5). -/
inductive ScrubFind where
  | clean
  | corrected
  | uncorrectable (addr : Nat)
  | tile (n : Nat) (find : TileFind)
  deriving DecidableEq, Repr

/-- The outcomes of the checks both twins run (R331). -/
structure TwinCheckResult where
  selfTilesBad : List Nat
  selfPubOk    : Bool
  partnerOk    : Bool
  deriving DecidableEq, Repr

end Sys2Proof
end

