-- ==== Sys2Proof/Syntax.lean ====
section
/-! DEFINITION. The commands of the block: one constructor of `Instr` for each row of spec/opcode_table.json, in the
table's order, with the operands the spec's text gives the command. A host command carries its header `h`; an event
carries what the hardware outside the block answers (a received frame, a check's outcome, a measured level). -/

namespace Sys2Proof

/-- The commands. -/
inductive Instr where
  | powerUp
  | bootComplete (r : BootReport)
  | vbatApplied
  | porNReset
  | brownout
  | backupSwitchover (toVbat : Bool)
  | pciePerst
  | functionLevelReset
  | mgmtWatchdogExpiry
  | mgmtRestartDone
  | tamperDetected (src : TamperSrc)
  | devStart (h : CmdHdr)
  | devStop (h : CmdHdr)
  | devStopDone
  | devReset (h : CmdHdr)
  | vinUndervoltage (mv : Nat)
  | supplyDipEnd
  | supplyLost
  | lastGaspComplete (vinValid : Bool)
  | safeSupplyLost
  | resChargeControl (mv : Nat) (cMeas : Option Nat)
  | resOvervoltage (mv : Nat)
  | annealerPeriod (a : AnnealerInput)
  | anlCapSet (h : CmdHdr) (cap : Nat)
  | pwrResCheck (h : CmdHdr)
  | slotStrobe (rc k : Nat)
  | preSlotStrobe (rc k : Nat)
  | ptpMessageTx (port : Nat) (kind : PtpTx)
  | sourceLossTimeout (src : Nat)
  | tbuUncertRefresh
  | timeStepApply
  | leapSecond
  | tevFire (n : Nat)
  | tevPulseEnd (n : Nat)
  | backupRtcCopy
  | rawCounterCheck (count : Nat) (refOk : Bool)
  | ppsEdge (falling : Bool)
  | gnssSentence (g : NmeaSentence)
  | irigFrame (g : IrigFrame)
  | frameReceived (port : Nat) (f : RxFrame)
  | linkUp (port : Nat)
  | linkDown (port : Nat)
  | prpSupervisionTx (port : Nat)
  | pauseExpiry (port : Nat)
  | pauseStorm (port : Nat)
  | pauseStormEnd (port : Nat)
  | preemptVerify (port : Nat) (ans : VerifyAnswer)
  | frameTransmitEnd (port : Nat)
  | streamStale (idx : Nat)
  | stmCommit (h : CmdHdr) (p : CommitArgs)
  | stmValidationEnd
  | stmCommitApply
  | stmCancel (h : CmdHdr)
  | stmReload (h : CmdHdr)
  | tilePlaceFrame (tile : Nat) (ecc : Option CellEcc)
  | firstLook (rc k : Nat) (x : LookFaults)
  | finalLook (rc k : Nat) (x : LookFaults)
  | tileSentinelCheck (tile : Nat) (pass : Bool) (find : TileFind)
  | easFail (h : CmdHdr) (tile : Nat)
  | phxRound
  | phxEstimate (ch cls : Nat)
  | detectorSample (ch : Nat)
  | detHoldEnd (ch det : Nat)
  | sampleMissingTimeout (ch : Nat)
  | phxLaneCheck (lane : Nat) (pass : Bool)
  | phxResync (h : CmdHdr) (ch : Nat)
  | safelightPass (faults : List (Nat × Nat)) (reads : List (Nat × CellFault))
  | localRuleSlotEnd (rc k : Nat)
  | tevOperandExpiry (n : Nat)
  | gooseRetransmit
  | almPulseEnd (n : Nat)
  | almTurnOnTimeout (n : Nat)
  | almRetry (n : Nat)
  | sflLaneKat (lane : Nat) (pass : Bool)
  | sflDisagreeKat (aOk bOk : Bool)
  | sflLaneSelfTest (aOk bOk : Bool)
  | dnsVectorUpdate
  | sflCommit (h : CmdHdr) (p : CommitArgs)
  | sflValidationEnd
  | sflCommitApply
  | sflCancel (h : CmdHdr)
  | sflReload (h : CmdHdr)
  | sflClear (h : CmdHdr) (rule : Nat)
  | sflClearLatched (h : CmdHdr)
  | sflClearOutput (h : CmdHdr) (out : Nat)
  | sflLaneTest (h : CmdHdr) (aOk bOk : Bool)
  | sflLaneTestInvert (h : CmdHdr)
  | sflSnap (v : Word)
  | dnsInstantUpdate
  | dnsRefresh
  | dnsPublication
  | dnsFoEvaluation
  | dnsCoherency
  | dnsCoreCheck (core : Nat) (pass ue : Bool)
  | dnsWarmupEnd
  | dnsRestart (h : CmdHdr) (mask : Nat)
  | dnsFail (h : CmdHdr) (core : Nat)
  | captureTrigger
  | captureEndInstant (g : Nat)
  | captureClose (g : Nat)
  | holdoffEnd (g : Nat)
  | groupRearm (g : Nat)
  | backfillBlock (g : Nat) (fails : Nat)
  | shtArm (h : CmdHdr) (g : Nat)
  | shtDisarm (h : CmdHdr) (g : Nat)
  | shtTrigger (h : CmdHdr) (g : Nat)
  | shtFetch (h : CmdHdr) (id off len addr : Nat) (memErr : Option Nat)
  | shtRelease (h : CmdHdr) (id : Nat)
  | swgBlockCode (client : Nat) (fails : Nat) (memErr : Bool)
  | swgOpen (h : CmdHdr) (ctx kind code label : Nat)
  | swgBuf (h : CmdHdr) (ctx addr len : Nat) (memErr : Bool)
  | swgFeed (h : CmdHdr) (ctx addr count : Nat) (samples : List (List Word)) (memErr : Bool)
  | swgFlush (h : CmdHdr) (ctx : Nat)
  | swgClose (h : CmdHdr) (ctx : Nat)
  | swgCloseAbort (h : CmdHdr) (ctx : Nat)
  | standbyDelayedSend
  | sealDatagram (set : Nat)
  | brazeFrameReceived (f : BrzFrame)
  | brzHeartbeatTx
  | brzLinkDown (port dev : Nat)
  | brzAlarmRetransmit
  | brzTimeSyncTx (dev : Nat)
  | brzTimeReqTx
  | twinStateTx
  | twinTakeover
  | twinChecks (r : TwinCheckResult)
  | brazeKeyGraceEnd (slot : Nat)
  | brzSwap (h : CmdHdr)
  | flgFrameReceived (f : FlgFrame)
  | flgBeacon
  | flgBackoff (rssi : List Int)
  | flgAckTurnaround
  | flgAckTimeout
  | flgHeldFrameExpiry
  | flgNodeLost (n : Nat)
  | flgParentBeaconMissed
  | flgFloodRelay
  | flgSeenExpiry
  | rlpSfdEdge
  | rlpSfdTimeout
  | rlpResetEnd
  | flgSend (h : CmdHdr) (node : Nat) (force : Bool) (addr len : Nat) (data : List Byte) (memErr : Bool)
  | flgDisassoc (h : CmdHdr) (node : Nat)
  | hstPoll (p : PollRead)
  | hstKick
  | hstEnable
  | ringEnable (n : Nat) (v : Word) (idx : Nat)
  | ringDisable (n : Nat) (v : Word)
  | msixCoalesceExpiry (n : Nat)
  | msixUnmask (v : Nat)
  | hstNop (h : CmdHdr)
  | hstTxFrame (h : CmdHdr) (pair addr len : Nat) (words : List Word) (memErr : Bool)
  | spqFlush (h : CmdHdr) (q : Nat)
  | spqFlushDone (q : Nat)
  | spqDropRem (h : CmdHdr) (q : Nat)
  | spqDrain (q : Nat) (ecc : SpqEcc)
  | spqPopHdr (q : Nat) (ecc : SpqEcc)
  | spqPopStallEnd (q : Nat)
  | spqPopData (q : Nat) (ecc : SpqEcc)
  | spqEnable (q : Nat) (v : Word) (idx : Nat)
  | spqDisable (q : Nat)
  | keyGenerate (h : CmdHdr) (a : KeyArgs)
  | keyImport (h : CmdHdr) (a : KeyArgs) (tslot addr : Nat) (blob : ImportBlob)
  | keyJournalFlip (slot : Nat) (katOk : Bool)
  | keyDestroy (h : CmdHdr) (slot : Nat)
  | keyPublic (h : CmdHdr) (slot addr : Nat) (memErr : Bool)
  | hlmAttest (h : CmdHdr) (slot nonce addr : Nat) (memErr : Bool)
  | hlmCert (h : CmdHdr) (addr len : Nat) (memErr : Bool)
  | keyUpdate (h : CmdHdr) (m : UpdateMsg)
  | provision (m : UpdateMsg)
  | advance (m : UpdateMsg)
  | return_ (m : UpdateMsg)
  | scrap (m : UpdateMsg)
  | reseal (m : UpdateMsg)
  | rotateAuthority (m : UpdateMsg)
  | debugOpen (m : UpdateMsg)
  | reblank (m : UpdateMsg)
  | actWrite (h : CmdHdr) (target ctx word : Nat) (v : Word)
  | actWriteSlotRange (h : CmdHdr) (ctx : Nat) (v : Word)
  | actWriteLock (h : CmdHdr) (v : Word)
  | rngHealthFail
  | mkaSakInstall (port sa : Nat) (key : Nat) (keyId : Word) (scs : List Nat)
  | proofLogCommit (fails : Nat)
  | plgTokenRefill (code : Nat)
  | timeAnchor
  | plgCursorWrite (v : Word)
  | plgNext (v : Word)
  | plgRead (h : CmdHdr) (part first addr count : Nat) (memErr : Option Nat)
  | plgClear (h : CmdHdr)
  | plgSeal (h : CmdHdr) (nonce addr : Nat) (memErr : Bool)
  | idRead (h : CmdHdr) (addr : Nat) (memErr : Bool)
  | memScrub (find : ScrubFind)
  | tbuStep (h : CmdHdr) (mode : Nat) (rel : Int) (sec ns : Nat)
  | tbuLeap (h : CmdHdr) (v : Nat)
  | tbuSnap (v : Word)
  | tbuRateWrite (hi : Bool) (v : Word)
  | servoDisable (v : Word)
  | rearmStep (v : Word)
  | tevArm (n : Nat) (v : Word)
  | rcRead (off : Nat)
  | latchedGroupRead (off : Nat)
  | registerWrite (off be : Nat) (v : Word)
  | backupDomainSupplyLost
  | leapOccurredExpiry
  | debugInstruction (boundary : Bool)
  | almTurnOnSuccess (n : Nat)
  | resOvervoltageEnd (mv : Nat)
  | resCheckBleedDone (mv : Nat)
  deriving DecidableEq, Repr

end Sys2Proof
end

