-- ==== Sys2Proof/Decode.lean ====
section
/-! DEFINITION. Commands from words. The command table gives no row any bits: a command reaches the block as a descriptor, a
register access or an event, which `Instr` carries by its fields, and no word spells one. -/

namespace Sys2Proof

/-- The command a word of `nbits` bits spells: none, for the table gives no row bits. -/
def decodeTableWord (_nbits _w : Nat) : Option Instr := none

end Sys2Proof
end

