-- ==== Sys2Proof/Machine/Bytes.lean ====
section
/-! DEFINITION. Octets and check sequences: big-endian and little-endian fields, CRC-CCITT and CRC-32. -/

namespace Sys2Proof.Machine

/-- A number as `n` octets, most significant first. -/
def beBytes : Nat → Nat → List Byte
  | 0, _ => []
  | n + 1, v => BitVec.ofNat 8 (v >>> (8 * n)) :: beBytes n v

/-- A number as `n` octets, least significant first. -/
def leBytes : Nat → Nat → List Byte
  | 0, _ => []
  | n + 1, v => BitVec.ofNat 8 v :: leBytes n (v >>> 8)

/-- Octets, least significant first, as a number. -/
def leNat : List Byte → Nat
  | [] => 0
  | b :: t => b.toNat + 256 * leNat t

/-- One bit of a CRC with the most significant bit first. -/
def crcStepMsb (poly width : Nat) (c : Nat) (b : Bool) : Nat :=
  let top := c.testBit (width - 1) != b
  let c := (c <<< 1) % 2 ^ width
  if top then c ^^^ poly else c

/-- CRC-CCITT of IEEE C37.118: polynomial 0x1021, preset to all ones, most significant bit first. -/
def crcCcitt (bs : List Byte) : Nat :=
  bs.foldl (fun c b => [7, 6, 5, 4, 3, 2, 1, 0].foldl (fun c i => crcStepMsb 0x1021 16 c (b.toNat.testBit i)) c) 0xFFFF

/-- One bit of a reflected CRC-32. -/
def crc32Bit (c : Nat) : Nat := if c.testBit 0 then (c >>> 1) ^^^ 0xEDB88320 else c >>> 1

/-- CRC-32 of IEEE 802.3, reflected, preset and final inversion with all ones. -/
def crc32 (bs : List Byte) : Nat :=
  (bs.foldl (fun c b => [0, 1, 2, 3, 4, 5, 6, 7].foldl (fun c _ => crc32Bit c) (c ^^^ b.toNat)) 0xFFFFFFFF) ^^^ 0xFFFFFFFF

/-- Insert into a list kept in the order `le`. -/
def insertBy {α : Type} (le : α → α → Bool) (x : α) : List α → List α
  | [] => [x]
  | y :: t => if le x y then x :: y :: t else y :: insertBy le x t

/-- Sort by `le`, equal elements in their order. -/
def sortBy {α : Type} (le : α → α → Bool) : List α → List α
  | [] => []
  | x :: t => insertBy le x (sortBy le t)

end Sys2Proof.Machine
end

