-- ==== Sys2Proof/Machine/F32.lean ====
section
/-! DEFINITION. IEEE 754 binary32 values: exact reading as a fraction, rounding to nearest-even, the arithmetic the
manual names ("rounded to nearest-even at each operation", Table 3.5) and comparison. -/

namespace Sys2Proof.Machine

/-- Biased exponent. -/
def F32.expo (w : Word) : Nat := w.field 23 8

/-- Fraction field. -/
def F32.frac (w : Word) : Nat := w.field 0 23

/-- A NaN. -/
def F32.isNaN (w : Word) : Bool := F32.expo w == 255 && F32.frac w != 0

/-- An infinity. -/
def F32.isInf (w : Word) : Bool := F32.expo w == 255 && F32.frac w == 0

/-- Finite. -/
def F32.isFin (w : Word) : Bool := F32.expo w != 255

/-- Sign bit. -/
def F32.neg? (w : Word) : Bool := w.bit 31

/-- The quiet NaN the arithmetic answers. -/
def F32.nan : Word := 0x7FC00000

/-- Infinity with a sign. -/
def F32.inf (s : Bool) : Word := if s then 0xFF800000 else 0x7F800000

/-- Zero with a sign. -/
def F32.zero (s : Bool) : Word := if s then 0x80000000 else 0

/-- Significand and power of two of a finite value: `sig * 2^(e - 149)`. -/
def F32.sigExp (w : Word) : Nat × Nat :=
  if F32.expo w = 0 then (F32.frac w, 0) else (F32.frac w + 8388608, F32.expo w - 1)

/-- A finite value as an exact fraction over 2^149. -/
def F32.num (w : Word) : Int :=
  let (m, e) := F32.sigExp w
  let v : Int := (m * 2 ^ e : Nat)
  if F32.neg? w then -v else v

/-- Round the quotient `n / q` to nearest, ties to even. -/
def divRne (n q : Nat) : Nat :=
  let d := n / q
  let r := n % q
  if 2 * r < q then d else if q < 2 * r then d + 1 else d + d % 2

/-- Round the positive fraction `n / q` to binary32 (magnitude only). -/
def F32.roundMag (n q : Nat) : Nat :=
  -- units of 2^-149
  let x := n * 2 ^ 149
  let whole := x / q
  if whole < 16777216 then
    -- subnormal or the two lowest binades: units of 2^-149 are fine enough
    let m := divRne x q
    m
  else
    let e := Nat.log2 whole - 23
    let m := divRne x (q * 2 ^ e)
    let bits := (e + 1) * 8388608 + (m - 8388608)
    min bits 0x7F800000

/-- Round a fraction to binary32, nearest-even; a magnitude beyond the range gives an infinity. -/
def F32.round (n : Int) (q : Nat) (negZero : Bool) : Word :=
  if n = 0 then F32.zero negZero
  else
    let m := F32.roundMag n.natAbs q
    BitVec.ofNat 32 (m + (if n < 0 then 2147483648 else 0))

/-- The scale of `F32.num`. -/
def F32.one149 : Nat := 2 ^ 149

/-- An integer as binary32. -/
def F32.ofInt (i : Int) : Word := F32.round i 1 false

/-- A fraction of integers as binary32, rounded once. -/
def F32.ofFrac (n : Int) (q : Nat) : Word := F32.round n q false

/-- Sum. -/
def F32.add (a b : Word) : Word :=
  if F32.isNaN a || F32.isNaN b then F32.nan
  else if F32.isInf a then (if F32.isInf b && F32.neg? a != F32.neg? b then F32.nan else a)
  else if F32.isInf b then b
  else F32.round (F32.num a + F32.num b) F32.one149 (F32.neg? a && F32.neg? b)

/-- Negation. -/
def F32.neg (a : Word) : Word := a ^^^ 0x80000000

/-- Absolute value. -/
def F32.abs (a : Word) : Word := a &&& 0x7FFFFFFF

/-- Difference. -/
def F32.sub (a b : Word) : Word := F32.add a (F32.neg b)

/-- Product. -/
def F32.mul (a b : Word) : Word :=
  let s := F32.neg? a != F32.neg? b
  if F32.isNaN a || F32.isNaN b then F32.nan
  else if F32.isInf a || F32.isInf b then
    (if (F32.isFin a && F32.num a == 0) || (F32.isFin b && F32.num b == 0) then F32.nan else F32.inf s)
  else F32.round (F32.num a * F32.num b) (F32.one149 * F32.one149) s

/-- Quotient. -/
def F32.div (a b : Word) : Word :=
  let s := F32.neg? a != F32.neg? b
  if F32.isNaN a || F32.isNaN b then F32.nan
  else if F32.isInf a then (if F32.isInf b then F32.nan else F32.inf s)
  else if F32.isInf b then F32.zero s
  else if F32.num b = 0 then (if F32.num a = 0 then F32.nan else F32.inf s)
  else
    let n : Int := ((F32.num a).natAbs : Nat)
    F32.round (if s then -n else n) (F32.num b).natAbs s

/-- Order of two values that are not NaN, infinities included, by a key that orders as the values do. -/
def F32.key (w : Word) : Int :=
  let m : Int := (w.field 0 31 : Nat)
  if F32.neg? w then -m else m

/-- `a < b`; false when either is a NaN. -/
def F32.lt (a b : Word) : Bool := !F32.isNaN a && !F32.isNaN b && decide (F32.key a < F32.key b)

/-- `a ≤ b`; false when either is a NaN. -/
def F32.le (a b : Word) : Bool := !F32.isNaN a && !F32.isNaN b && decide (F32.key a ≤ F32.key b)

/-- `a = b` as values; false when either is a NaN. -/
def F32.eq (a b : Word) : Bool := !F32.isNaN a && !F32.isNaN b && decide (F32.key a = F32.key b)

end Sys2Proof.Machine
end

