-- ==== Sys2Proof/Config.lean ====
section
/-! DEFINITION. Free values: what the spec leaves open, as constants without a body. A statement about one holds
whatever it is. The log entry that covers each is named beside it. -/

namespace Sys2Proof.Config

/-- A value the spec does not state, by what it is for and the count of free values drawn before it (log entry 10). -/
opaque freeNat : Nat → Nat → Nat

/-- As `freeNat`, signed (log entry 10). -/
opaque freeInt : Nat → Nat → Int

/-- SHA-256 of a byte string, as a number (log entry 11). -/
opaque sha256 : List Byte → Nat

/-- A keyed tag (HMAC-SHA256 or GMAC) of a byte string under a key (log entry 11). -/
opaque mac : Nat → List Byte → Nat

/-- An ECDSA P-256 signature under a key (log entry 11). -/
opaque sign : Nat → List Byte → Nat

/-- The public key X ∥ Y of a private key (log entry 11). -/
opaque pubOf : Nat → Nat

/-- The key a generator request draws (log entry 11). -/
opaque drbg : Nat → Nat

/-- The key check value of a key of a type (R404; log entry 11). -/
opaque kcv : Nat → Nat → Nat

/-- The root drawn for a vault (R398; log entry 11). -/
opaque newRoot : Nat → Nat

/-- Octets of an R-SV SPDU around its seqData members, an encoding of IEC 61850-90-5 that the spec does not give (log
entry 12). -/
opaque rsvOverhead : Nat

/-- Real part of a polar phasor (magnitude, angle), binary32 (Table 3.5 bounds the error only; log entry 12). -/
opaque polarRe : BitVec 32 → BitVec 32 → BitVec 32

/-- Imaginary part of a polar phasor (log entry 12). -/
opaque polarIm : BitVec 32 → BitVec 32 → BitVec 32

/-- A binary32 function the manual names without a bit-exact definition (arg, magnitude, sine, exponential and the
numeric engines' results), by what it is for and its operands (log entry 12). -/
opaque fn : Nat → List (BitVec 32) → BitVec 32

end Sys2Proof.Config
end

