-- ==== Sys2Proof/Machine/KMap.lean ====
section
/-! DEFINITION. Sparse storage keyed by a number, as a list of pairs with strictly rising keys: entry stores (`KMap`)
and word stores with a value an unlisted word reads as (`SMap`), which lists no word equal to that value. -/

namespace Sys2Proof.Machine

/-- Entries by key, keys strictly rising. -/
abbrev KMap (α : Type) := List (Nat × α)

/-- The entry at a key. -/
def KMap.get? {α : Type} : KMap α → Nat → Option α
  | [], _ => none
  | (k, v) :: t, a => if a = k then some v else KMap.get? t a

/-- The entry at a key, or a default. -/
def KMap.getD {α : Type} (m : KMap α) (a : Nat) (d : α) : α := (KMap.get? m a).getD d

/-- Set the entry at a key. -/
def KMap.put {α : Type} : KMap α → Nat → α → KMap α
  | [], a, v => [(a, v)]
  | (k, w) :: t, a, v =>
    if a < k then (a, v) :: (k, w) :: t
    else if a = k then (a, v) :: t
    else (k, w) :: KMap.put t a v

/-- Remove the entry at a key. -/
def KMap.del {α : Type} : KMap α → Nat → KMap α
  | [], _ => []
  | (k, w) :: t, a => if a = k then KMap.del t a else (k, w) :: KMap.del t a

/-- Whether a key is listed. -/
def KMap.has {α : Type} (m : KMap α) (a : Nat) : Bool := (KMap.get? m a).isSome

/-- The keys, in rising order. -/
def KMap.keys {α : Type} (m : KMap α) : List Nat := m.map (fun p => p.1)

/-- Change the entry at a key, when it is listed. -/
def KMap.modify {α : Type} (m : KMap α) (a : Nat) (f : α → α) : KMap α :=
  match KMap.get? m a with
  | some v => KMap.put m a (f v)
  | none => m

/-- Keys strictly rising. -/
def KMap.wf {α : Type} : KMap α → Bool
  | [] => true
  | [_] => true
  | (k, _) :: (k', v') :: t => decide (k < k') && KMap.wf ((k', v') :: t)

/-- Words by offset. -/
abbrev SMap := KMap Word

/-- The word at an offset; `d` says what an unlisted offset reads as. -/
def SMap.get (d : Nat → Word) (m : SMap) (a : Nat) : Word := (KMap.get? m a).getD (d a)

/-- Write a word: a word equal to what an unlisted offset reads as is not listed. -/
def SMap.put (d : Nat → Word) (m : SMap) (a : Nat) (w : Word) : SMap :=
  if w = d a then KMap.del m a else KMap.put m a w

/-- The canonical form: offsets strictly rising, and no word equal to what an unlisted offset reads as. -/
def SMap.wf (d : Nat → Word) (m : SMap) : Bool :=
  KMap.wf m && m.all (fun p => p.2 != d p.1)

end Sys2Proof.Machine
end

