-- ==== Sys2Proof/Machine/RegMap.lean ====
section
/-! DEFINITION. The register map (Table 16.1 and the register summaries of every chapter): the offset of every register
of BAR0, its stride and number of instances, which of its bits a host write sets, clears or locks (Table 0.8), whether a
whole read clears it, its power-on value, and whether it is written in CONFIG only. -/

namespace Sys2Proof.Machine

/-- One family of registers: offsets `base + stride * k` for `k < count`. `rw`, `w1c`, `w1s` and `rwl` are the masks
of the bits with those access codes (R14); every other bit reads as the device leaves it and ignores writes. `lock` is
the lock group of the RWL bits (Table 16.5; 32: none). -/
structure RegRow where
  base   : Nat
  stride : Nat
  count  : Nat
  rw     : Nat
  w1c    : Nat
  w1s    : Nat
  rwl    : Nat
  lock   : Nat
  rc     : Bool
  por    : Nat
  cfg    : Bool
  deriving DecidableEq, Repr

/-- Whether an offset is one of the row's registers. -/
def RegRow.has (r : RegRow) (off : Nat) : Bool :=
  decide (r.base ≤ off) &&
    (if r.stride = 0 then decide (off = r.base)
     else decide ((off - r.base) % r.stride = 0) && decide ((off - r.base) / r.stride < r.count))

/-- Register `ID_DEVICE`. -/
abbrev Reg.ID_DEVICE : Nat := 0x0
/-- Register `ID_LOT`. -/
abbrev Reg.ID_LOT : Nat := 0x4
/-- Register `ID_DIE`. -/
abbrev Reg.ID_DIE : Nat := 0x8
/-- Register `ID_SERIAL_LO`. -/
abbrev Reg.ID_SERIAL_LO : Nat := 0xC
/-- Register `ID_SERIAL_HI`. -/
abbrev Reg.ID_SERIAL_HI : Nat := 0x10
/-- Register `ID_CAP0`. -/
abbrev Reg.ID_CAP0 : Nat := 0x40
/-- Register `ID_CAP1`. -/
abbrev Reg.ID_CAP1 : Nat := 0x44
/-- Register `ID_CAP2`. -/
abbrev Reg.ID_CAP2 : Nat := 0x48
/-- Register `ID_CAP3`. -/
abbrev Reg.ID_CAP3 : Nat := 0x4C
/-- Register `GLB_STATE`. -/
abbrev Reg.GLB_STATE : Nat := 0x100
/-- Register `GLB_STATE_EVT`. -/
abbrev Reg.GLB_STATE_EVT : Nat := 0x104
/-- Register `ACT_PERM` of instance `n`. -/
abbrev Reg.ACT_PERM (n : Nat) : Nat := 0x10000 + 0x4 * n
/-- Register `ACT_CTX_SLOTS` of instance `n`. -/
abbrev Reg.ACT_CTX_SLOTS (n : Nat) : Nat := 0x10100 + 0x4 * n
/-- Register `ACT_LOCK`. -/
abbrev Reg.ACT_LOCK : Nat := 0x10200
/-- Register `ACT_STATUS`. -/
abbrev Reg.ACT_STATUS : Nat := 0x10204
/-- Register `ACT_DENIED`. -/
abbrev Reg.ACT_DENIED : Nat := 0x10208
/-- Register `ANL_CTRL`. -/
abbrev Reg.ANL_CTRL : Nat := 0x20000
/-- Register `ANL_CAP`. -/
abbrev Reg.ANL_CAP : Nat := 0x20004
/-- Register `ANL_STATUS`. -/
abbrev Reg.ANL_STATUS : Nat := 0x20008
/-- Register `ANL_EVT`. -/
abbrev Reg.ANL_EVT : Nat := 0x2000C
/-- Register `ANL_POWER`. -/
abbrev Reg.ANL_POWER : Nat := 0x20010
/-- Register `ANL_FLOOR`. -/
abbrev Reg.ANL_FLOOR : Nat := 0x20014
/-- Register `ANL_TJ`. -/
abbrev Reg.ANL_TJ : Nat := 0x20018
/-- Register `ANL_STEPS`. -/
abbrev Reg.ANL_STEPS : Nat := 0x2001C
/-- Register `ANL_TSENS` of instance `n`. -/
abbrev Reg.ANL_TSENS (n : Nat) : Nat := 0x20020 + 0x4 * n
/-- Register `PWR_STATUS`. -/
abbrev Reg.PWR_STATUS : Nat := 0x20100
/-- Register `PWR_EVT`. -/
abbrev Reg.PWR_EVT : Nat := 0x20104
/-- Register `PWR_RES_CTRL`. -/
abbrev Reg.PWR_RES_CTRL : Nat := 0x20108
/-- Register `PWR_RES_CAP`. -/
abbrev Reg.PWR_RES_CAP : Nat := 0x2010C
/-- Register `PWR_VIN`. -/
abbrev Reg.PWR_VIN : Nat := 0x20110
/-- Register `PWR_RES_V`. -/
abbrev Reg.PWR_RES_V : Nat := 0x20114
/-- Register `PWR_RES_E`. -/
abbrev Reg.PWR_RES_E : Nat := 0x20118
/-- Register `PWR_RES_CMEAS`. -/
abbrev Reg.PWR_RES_CMEAS : Nat := 0x2011C
/-- Register `PWR_DIPS`. -/
abbrev Reg.PWR_DIPS : Nat := 0x20120
/-- Register `PWR_PCC`. -/
abbrev Reg.PWR_PCC : Nat := 0x20124
/-- Register `CLK_STATUS`. -/
abbrev Reg.CLK_STATUS : Nat := 0x20200
/-- Register `CLK_TILE_WAKES`. -/
abbrev Reg.CLK_TILE_WAKES : Nat := 0x20204
/-- Register `CLK_GATED`. -/
abbrev Reg.CLK_GATED : Nat := 0x20208
/-- Register `RST_CAUSE`. -/
abbrev Reg.RST_CAUSE : Nat := 0x20300
/-- Register `RST_BOOT_INFO`. -/
abbrev Reg.RST_BOOT_INFO : Nat := 0x20304
/-- Register `RST_BOOT_SVN`. -/
abbrev Reg.RST_BOOT_SVN : Nat := 0x20308
/-- Register `RST_BOOT_MS`. -/
abbrev Reg.RST_BOOT_MS : Nat := 0x2030C
/-- Register `RST_WDT`. -/
abbrev Reg.RST_WDT : Nat := 0x20310
/-- Register `TBU_CTRL`. -/
abbrev Reg.TBU_CTRL : Nat := 0x30000
/-- Register `TBU_STATUS`. -/
abbrev Reg.TBU_STATUS : Nat := 0x30004
/-- Register `TBU_EVT`. -/
abbrev Reg.TBU_EVT : Nat := 0x30008
/-- Register `TBU_RAW_LO`. -/
abbrev Reg.TBU_RAW_LO : Nat := 0x30010
/-- Register `TBU_RAW_HI`. -/
abbrev Reg.TBU_RAW_HI : Nat := 0x30014
/-- Register `TBU_SNAP`. -/
abbrev Reg.TBU_SNAP : Nat := 0x30018
/-- Register `TBU_SNAP_RAW_LO`. -/
abbrev Reg.TBU_SNAP_RAW_LO : Nat := 0x30020
/-- Register `TBU_SNAP_RAW_HI`. -/
abbrev Reg.TBU_SNAP_RAW_HI : Nat := 0x30024
/-- Register `TBU_SNAP_SEC_LO`. -/
abbrev Reg.TBU_SNAP_SEC_LO : Nat := 0x30028
/-- Register `TBU_SNAP_SEC_HI`. -/
abbrev Reg.TBU_SNAP_SEC_HI : Nat := 0x3002C
/-- Register `TBU_SNAP_NS`. -/
abbrev Reg.TBU_SNAP_NS : Nat := 0x30030
/-- Register `TBU_SNAP_FRAC`. -/
abbrev Reg.TBU_SNAP_FRAC : Nat := 0x30034
/-- Register `TBU_RATE_LO`. -/
abbrev Reg.TBU_RATE_LO : Nat := 0x30040
/-- Register `TBU_RATE_HI`. -/
abbrev Reg.TBU_RATE_HI : Nat := 0x30044
/-- Register `TBU_SLEW`. -/
abbrev Reg.TBU_SLEW : Nat := 0x30048
/-- Register `TBU_SRC_CTRL`. -/
abbrev Reg.TBU_SRC_CTRL : Nat := 0x30050
/-- Register `TBU_SRC_OFFSET`. -/
abbrev Reg.TBU_SRC_OFFSET : Nat := 0x30054
/-- Register `TBU_UNCERT`. -/
abbrev Reg.TBU_UNCERT : Nat := 0x30058
/-- Register `TBU_HOLD`. -/
abbrev Reg.TBU_HOLD : Nat := 0x3005C
/-- Register `TBU_LIMITS`. -/
abbrev Reg.TBU_LIMITS : Nat := 0x30060
/-- Register `TBU_STEP_STAT`. -/
abbrev Reg.TBU_STEP_STAT : Nat := 0x30064
/-- Register `TBU_STEP_LAST_LO`. -/
abbrev Reg.TBU_STEP_LAST_LO : Nat := 0x30068
/-- Register `TBU_STEP_LAST_HI`. -/
abbrev Reg.TBU_STEP_LAST_HI : Nat := 0x3006C
/-- Register `TBU_UTC`. -/
abbrev Reg.TBU_UTC : Nat := 0x30070
/-- Register `TBU_REFIN_CTRL`. -/
abbrev Reg.TBU_REFIN_CTRL : Nat := 0x30080
/-- Register `TBU_PPS_DELAY`. -/
abbrev Reg.TBU_PPS_DELAY : Nat := 0x30084
/-- Register `TBU_IRIG_DELAY`. -/
abbrev Reg.TBU_IRIG_DELAY : Nat := 0x30088
/-- Register `TBU_PPS_REJECT`. -/
abbrev Reg.TBU_PPS_REJECT : Nat := 0x3008C
/-- Register `TBU_PORT_PTP` of instance `n`. -/
abbrev Reg.TBU_PORT_PTP (n : Nat) : Nat := 0x30100 + 0x20 * n
/-- Register `TBU_PORT_TXLAT` of instance `n`. -/
abbrev Reg.TBU_PORT_TXLAT (n : Nat) : Nat := 0x30104 + 0x20 * n
/-- Register `TBU_PORT_RXLAT` of instance `n`. -/
abbrev Reg.TBU_PORT_RXLAT (n : Nat) : Nat := 0x30108 + 0x20 * n
/-- Register `TBU_PORT_ASYM` of instance `n`. -/
abbrev Reg.TBU_PORT_ASYM (n : Nat) : Nat := 0x3010C + 0x20 * n
/-- Register `TBU_TEV_CTRL` of instance `n`. -/
abbrev Reg.TBU_TEV_CTRL (n : Nat) : Nat := 0x30200 + 0x20 * n
/-- Register `TBU_TEV_TARGET_LO` of instance `n`. -/
abbrev Reg.TBU_TEV_TARGET_LO (n : Nat) : Nat := 0x30204 + 0x20 * n
/-- Register `TBU_TEV_TARGET_HI` of instance `n`. -/
abbrev Reg.TBU_TEV_TARGET_HI (n : Nat) : Nat := 0x30208 + 0x20 * n
/-- Register `TBU_TEV_PERIOD_NS` of instance `n`. -/
abbrev Reg.TBU_TEV_PERIOD_NS (n : Nat) : Nat := 0x3020C + 0x20 * n
/-- Register `TBU_TEV_PERIOD_FRAC` of instance `n`. -/
abbrev Reg.TBU_TEV_PERIOD_FRAC (n : Nat) : Nat := 0x30210 + 0x20 * n
/-- Register `TBU_TEV_WIDTH` of instance `n`. -/
abbrev Reg.TBU_TEV_WIDTH (n : Nat) : Nat := 0x30214 + 0x20 * n
/-- Register `TBU_TEV_COUNT` of instance `n`. -/
abbrev Reg.TBU_TEV_COUNT (n : Nat) : Nat := 0x30218 + 0x20 * n
/-- Register `NET_CTRL` of instance `n`. -/
abbrev Reg.NET_CTRL (n : Nat) : Nat := 0x40000 + 0x2000 * n
/-- Register `NET_STATUS` of instance `n`. -/
abbrev Reg.NET_STATUS (n : Nat) : Nat := 0x40004 + 0x2000 * n
/-- Register `NET_MAC_LO` of instance `n`. -/
abbrev Reg.NET_MAC_LO (n : Nat) : Nat := 0x40008 + 0x2000 * n
/-- Register `NET_MAC_HI` of instance `n`. -/
abbrev Reg.NET_MAC_HI (n : Nat) : Nat := 0x4000C + 0x2000 * n
/-- Register `NET_IPV4` of instance `n`. -/
abbrev Reg.NET_IPV4 (n : Nat) : Nat := 0x40010 + 0x2000 * n
/-- Register `NET_IPV6_0` of instance `n`. -/
abbrev Reg.NET_IPV6_0 (n : Nat) : Nat := 0x40014 + 0x2000 * n
/-- Register `NET_IPV6_1` of instance `n`. -/
abbrev Reg.NET_IPV6_1 (n : Nat) : Nat := 0x40018 + 0x2000 * n
/-- Register `NET_IPV6_2` of instance `n`. -/
abbrev Reg.NET_IPV6_2 (n : Nat) : Nat := 0x4001C + 0x2000 * n
/-- Register `NET_IPV6_3` of instance `n`. -/
abbrev Reg.NET_IPV6_3 (n : Nat) : Nat := 0x40020 + 0x2000 * n
/-- Register `NET_C37_UDP` of instance `n`. -/
abbrev Reg.NET_C37_UDP (n : Nat) : Nat := 0x40024 + 0x2000 * n
/-- Register `NET_MACSEC_CTRL` of instance `n`. -/
abbrev Reg.NET_MACSEC_CTRL (n : Nat) : Nat := 0x40030 + 0x2000 * n
/-- Register `NET_MACSEC_REPLAY` of instance `n`. -/
abbrev Reg.NET_MACSEC_REPLAY (n : Nat) : Nat := 0x40034 + 0x2000 * n
/-- Register `NET_PAUSE_CTRL` of instance `n`. -/
abbrev Reg.NET_PAUSE_CTRL (n : Nat) : Nat := 0x40038 + 0x2000 * n
/-- Register `NET_PREEMPT_STATUS` of instance `n`. -/
abbrev Reg.NET_PREEMPT_STATUS (n : Nat) : Nat := 0x4003C + 0x2000 * n
/-- Register `NET_PRP_CTRL` of instance `n`. -/
abbrev Reg.NET_PRP_CTRL (n : Nat) : Nat := 0x40040 + 0x4000 * n
/-- Register `NET_PRP_NODES` of instance `n`. -/
abbrev Reg.NET_PRP_NODES (n : Nat) : Nat := 0x40044 + 0x4000 * n
/-- Register `NET_RXFRAMES` of instance `n`. -/
abbrev Reg.NET_RXFRAMES (n : Nat) : Nat := 0x40100 + 0x2000 * n
/-- Register `NET_RXDROP` of instance `n`. -/
abbrev Reg.NET_RXDROP (n : Nat) : Nat := 0x40104 + 0x2000 * n
/-- Register `NET_RXDROP_PROT` of instance `n`. -/
abbrev Reg.NET_RXDROP_PROT (n : Nat) : Nat := 0x40108 + 0x2000 * n
/-- Register `NET_FCS_ERR` of instance `n`. -/
abbrev Reg.NET_FCS_ERR (n : Nat) : Nat := 0x4010C + 0x2000 * n
/-- Register `NET_MACSEC_ICV` of instance `n`. -/
abbrev Reg.NET_MACSEC_ICV (n : Nat) : Nat := 0x40110 + 0x2000 * n
/-- Register `NET_MACSEC_REPLAY_DROP` of instance `n`. -/
abbrev Reg.NET_MACSEC_REPLAY_DROP (n : Nat) : Nat := 0x40114 + 0x2000 * n
/-- Register `NET_MACSEC_NOSC` of instance `n`. -/
abbrev Reg.NET_MACSEC_NOSC (n : Nat) : Nat := 0x40118 + 0x2000 * n
/-- Register `NET_PAUSE_RX` of instance `n`. -/
abbrev Reg.NET_PAUSE_RX (n : Nat) : Nat := 0x4011C + 0x2000 * n
/-- Register `NET_PFC_DROP` of instance `n`. -/
abbrev Reg.NET_PFC_DROP (n : Nat) : Nat := 0x40120 + 0x2000 * n
/-- Register `NET_REASM_ERR` of instance `n`. -/
abbrev Reg.NET_REASM_ERR (n : Nat) : Nat := 0x40124 + 0x2000 * n
/-- Register `NET_PRP_DUP` of instance `n`. -/
abbrev Reg.NET_PRP_DUP (n : Nat) : Nat := 0x40128 + 0x2000 * n
/-- Register `NET_PRP_NOTRAILER` of instance `n`. -/
abbrev Reg.NET_PRP_NOTRAILER (n : Nat) : Nat := 0x4012C + 0x2000 * n
/-- Register `NET_PRP_WRONG_LAN` of instance `n`. -/
abbrev Reg.NET_PRP_WRONG_LAN (n : Nat) : Nat := 0x40130 + 0x2000 * n
/-- Register `NET_PRP_TABLE_FULL` of instance `n`. -/
abbrev Reg.NET_PRP_TABLE_FULL (n : Nat) : Nat := 0x40134 + 0x2000 * n
/-- Register `NET_HOST_DROP` of instance `n`. -/
abbrev Reg.NET_HOST_DROP (n : Nat) : Nat := 0x40138 + 0x2000 * n
/-- Register `NET_UDP_CSUM_ERR` of instance `n`. -/
abbrev Reg.NET_UDP_CSUM_ERR (n : Nat) : Nat := 0x4013C + 0x2000 * n
/-- Register `NET_TXFRAMES` of instance `n`. -/
abbrev Reg.NET_TXFRAMES (n : Nat) : Nat := 0x40140 + 0x2000 * n
/-- Register `NET_TX_EXPRESS` of instance `n`. -/
abbrev Reg.NET_TX_EXPRESS (n : Nat) : Nat := 0x40144 + 0x2000 * n
/-- Register `NET_TX_PREEMPTIONS` of instance `n`. -/
abbrev Reg.NET_TX_PREEMPTIONS (n : Nat) : Nat := 0x40148 + 0x2000 * n
/-- Register `STM_CTRL`. -/
abbrev Reg.STM_CTRL : Nat := 0x60000
/-- Register `STM_STATUS`. -/
abbrev Reg.STM_STATUS : Nat := 0x60004
/-- Register `STM_PEND_SEC_LO`. -/
abbrev Reg.STM_PEND_SEC_LO : Nat := 0x60008
/-- Register `STM_PEND_SEC_HI`. -/
abbrev Reg.STM_PEND_SEC_HI : Nat := 0x6000C
/-- Register `STM_PEND_NS`. -/
abbrev Reg.STM_PEND_NS : Nat := 0x60010
/-- Register `STM_LAST_SEC_LO`. -/
abbrev Reg.STM_LAST_SEC_LO : Nat := 0x60014
/-- Register `STM_LAST_SEC_HI`. -/
abbrev Reg.STM_LAST_SEC_HI : Nat := 0x60018
/-- Register `STM_LAST_NS`. -/
abbrev Reg.STM_LAST_NS : Nat := 0x6001C
/-- Register `STM_NOMATCH`. -/
abbrev Reg.STM_NOMATCH : Nat := 0x60020
/-- Register `STM_LOCKED_WR`. -/
abbrev Reg.STM_LOCKED_WR : Nat := 0x60024
/-- Register `STM_ACTIVE_COUNT`. -/
abbrev Reg.STM_ACTIVE_COUNT : Nat := 0x60028
/-- Register `STM_CHG` of instance `n`. -/
abbrev Reg.STM_CHG (n : Nat) : Nat := 0x60100 + 0x4 * n
/-- Register `EAS_STATUS` of instance `n`. -/
abbrev Reg.EAS_STATUS (n : Nat) : Nat := 0x80000 + 0x800 * n
/-- Register `EAS_LOAD_FPS` of instance `n`. -/
abbrev Reg.EAS_LOAD_FPS (n : Nat) : Nat := 0x80004 + 0x800 * n
/-- Register `EAS_LOAD_PHV` of instance `n`. -/
abbrev Reg.EAS_LOAD_PHV (n : Nat) : Nat := 0x80008 + 0x800 * n
/-- Register `EAS_SPILL` of instance `n`. -/
abbrev Reg.EAS_SPILL (n : Nat) : Nat := 0x8000C + 0x800 * n
/-- Register `EAS_RX` of instance `n`. -/
abbrev Reg.EAS_RX (n : Nat) : Nat := 0x80010 + 0x800 * n
/-- Register `EAS_LATE` of instance `n`. -/
abbrev Reg.EAS_LATE (n : Nat) : Nat := 0x80014 + 0x800 * n
/-- Register `EAS_EARLY` of instance `n`. -/
abbrev Reg.EAS_EARLY (n : Nat) : Nat := 0x80018 + 0x800 * n
/-- Register `EAS_TOOLATE` of instance `n`. -/
abbrev Reg.EAS_TOOLATE (n : Nat) : Nat := 0x8001C + 0x800 * n
/-- Register `EAS_OFFGRID` of instance `n`. -/
abbrev Reg.EAS_OFFGRID (n : Nat) : Nat := 0x80020 + 0x800 * n
/-- Register `EAS_INQ_DROP` of instance `n`. -/
abbrev Reg.EAS_INQ_DROP (n : Nat) : Nat := 0x80024 + 0x800 * n
/-- Register `EAS_SRAM_CE` of instance `n`. -/
abbrev Reg.EAS_SRAM_CE (n : Nat) : Nat := 0x80028 + 0x800 * n
/-- Register `EAS_SRAM_UE` of instance `n`. -/
abbrev Reg.EAS_SRAM_UE (n : Nat) : Nat := 0x8002C + 0x800 * n
/-- Register `EAS_SPILL_UE` of instance `n`. -/
abbrev Reg.EAS_SPILL_UE (n : Nat) : Nat := 0x80030 + 0x800 * n
/-- Register `EAS_LAT_MAX` of instance `n`. -/
abbrev Reg.EAS_LAT_MAX (n : Nat) : Nat := 0x80034 + 0x800 * n
/-- Register `EAS_LAT_OVER` of instance `n`. -/
abbrev Reg.EAS_LAT_OVER (n : Nat) : Nat := 0x80038 + 0x800 * n
/-- Register `EAS_CTRL`. -/
abbrev Reg.EAS_CTRL : Nat := 0x90000
/-- Register `EAS_ALIGN`. -/
abbrev Reg.EAS_ALIGN : Nat := 0x90004
/-- Register `EAS_SPILL_BASE`. -/
abbrev Reg.EAS_SPILL_BASE : Nat := 0x90008
/-- Register `EAS_CAP`. -/
abbrev Reg.EAS_CAP : Nat := 0x9000C
/-- Register `EAS_CAP_FPS`. -/
abbrev Reg.EAS_CAP_FPS : Nat := 0x90010
/-- Register `EAS_FAULT_EVT`. -/
abbrev Reg.EAS_FAULT_EVT : Nat := 0x90014
/-- Register `EAS_SETS`. -/
abbrev Reg.EAS_SETS : Nat := 0x90018
/-- Register `EAS_AMENDS`. -/
abbrev Reg.EAS_AMENDS : Nat := 0x9001C
/-- Register `EAS_REHOME_DROP`. -/
abbrev Reg.EAS_REHOME_DROP : Nat := 0x90020
/-- Register `EAS_UNHOMED_DROP`. -/
abbrev Reg.EAS_UNHOMED_DROP : Nat := 0x90024
/-- Register `EAS_FINAL` of instance `n`. -/
abbrev Reg.EAS_FINAL (n : Nat) : Nat := 0x90040 + 0x4 * n
/-- Register `PHX_CTRL`. -/
abbrev Reg.PHX_CTRL : Nat := 0xA0000
/-- Register `PHX_STATUS`. -/
abbrev Reg.PHX_STATUS : Nat := 0xA0004
/-- Register `PHX_RESETS`. -/
abbrev Reg.PHX_RESETS : Nat := 0xA0008
/-- Register `PHX_GAP_FILLS`. -/
abbrev Reg.PHX_GAP_FILLS : Nat := 0xA000C
/-- Register `PHX_AJ_COUNT`. -/
abbrev Reg.PHX_AJ_COUNT : Nat := 0xA0010
/-- Register `PHX_AJ_SUPPRESSED`. -/
abbrev Reg.PHX_AJ_SUPPRESSED : Nat := 0xA0014
/-- Register `PHX_RF_COUNT`. -/
abbrev Reg.PHX_RF_COUNT : Nat := 0xA0018
/-- Register `PHX_RF_SUPPRESSED`. -/
abbrev Reg.PHX_RF_SUPPRESSED : Nat := 0xA001C
/-- Register `PHX_DET_LAST`. -/
abbrev Reg.PHX_DET_LAST : Nat := 0xA0020
/-- Register `PHX_DET_LAST_RAW_LO`. -/
abbrev Reg.PHX_DET_LAST_RAW_LO : Nat := 0xA0024
/-- Register `PHX_DET_LAST_RAW_HI`. -/
abbrev Reg.PHX_DET_LAST_RAW_HI : Nat := 0xA0028
/-- Register `PHX_DET_LAT_MAX`. -/
abbrev Reg.PHX_DET_LAT_MAX : Nat := 0xA002C
/-- Register `PHX_SKEW_STEP`. -/
abbrev Reg.PHX_SKEW_STEP : Nat := 0xA0030
/-- Register `PHX_SETTLE` of instance `n`. -/
abbrev Reg.PHX_SETTLE (n : Nat) : Nat := 0xA0040 + 0x4 * n
/-- Register `PHX_SHED` of instance `n`. -/
abbrev Reg.PHX_SHED (n : Nat) : Nat := 0xA0080 + 0x4 * n
/-- Register `SFL_CTRL`. -/
abbrev Reg.SFL_CTRL : Nat := 0xB0000
/-- Register `SFL_STATUS`. -/
abbrev Reg.SFL_STATUS : Nat := 0xB0004
/-- Register `SFL_EVT`. -/
abbrev Reg.SFL_EVT : Nat := 0xB0008
/-- Register `SFL_GOOSE`. -/
abbrev Reg.SFL_GOOSE : Nat := 0xB000C
/-- Register `SFL_GOOSE_STNUM`. -/
abbrev Reg.SFL_GOOSE_STNUM : Nat := 0xB0010
/-- Register `SFL_GOOSE_SQNUM`. -/
abbrev Reg.SFL_GOOSE_SQNUM : Nat := 0xB0014
/-- Register `SFL_HOST`. -/
abbrev Reg.SFL_HOST : Nat := 0xB0018
/-- Register `SFL_HOST_DROP`. -/
abbrev Reg.SFL_HOST_DROP : Nat := 0xB001C
/-- Register `SFL_MISMATCH`. -/
abbrev Reg.SFL_MISMATCH : Nat := 0xB0020
/-- Register `SFL_LAT_MAX`. -/
abbrev Reg.SFL_LAT_MAX : Nat := 0xB0024
/-- Register `SFL_LAT_OVER`. -/
abbrev Reg.SFL_LAT_OVER : Nat := 0xB0028
/-- Register `SFL_PASSES`. -/
abbrev Reg.SFL_PASSES : Nat := 0xB002C
/-- Register `SFL_LOCKED_WR`. -/
abbrev Reg.SFL_LOCKED_WR : Nat := 0xB0030
/-- Register `SFL_DYN_DEFER`. -/
abbrev Reg.SFL_DYN_DEFER : Nat := 0xB0034
/-- Register `SFL_DYN_OVER`. -/
abbrev Reg.SFL_DYN_OVER : Nat := 0xB0038
/-- Register `SFL_SNAP`. -/
abbrev Reg.SFL_SNAP : Nat := 0xB003C
/-- Register `SFL_PEND_SEC_LO`. -/
abbrev Reg.SFL_PEND_SEC_LO : Nat := 0xB0040
/-- Register `SFL_PEND_SEC_HI`. -/
abbrev Reg.SFL_PEND_SEC_HI : Nat := 0xB0044
/-- Register `SFL_PEND_NS`. -/
abbrev Reg.SFL_PEND_NS : Nat := 0xB0048
/-- Register `SFL_LAST_SEC_LO`. -/
abbrev Reg.SFL_LAST_SEC_LO : Nat := 0xB004C
/-- Register `SFL_LAST_SEC_HI`. -/
abbrev Reg.SFL_LAST_SEC_HI : Nat := 0xB0050
/-- Register `SFL_LAST_NS`. -/
abbrev Reg.SFL_LAST_NS : Nat := 0xB0054
/-- Register `SFL_SYSALM`. -/
abbrev Reg.SFL_SYSALM : Nat := 0xB0060
/-- Register `SFL_ALM_CTRL` of instance `n`. -/
abbrev Reg.SFL_ALM_CTRL (n : Nat) : Nat := 0xB0100 + 0x10 * n
/-- Register `SFL_ALM_STATUS` of instance `n`. -/
abbrev Reg.SFL_ALM_STATUS (n : Nat) : Nat := 0xB0104 + 0x10 * n
/-- Register `SFL_ASSERT` of instance `n`. -/
abbrev Reg.SFL_ASSERT (n : Nat) : Nat := 0xB1000 + 0x4 * n
/-- Register `SFL_INDET` of instance `n`. -/
abbrev Reg.SFL_INDET (n : Nat) : Nat := 0xB1200 + 0x4 * n
/-- Register `SFL_SNAP_ASSERT` of instance `n`. -/
abbrev Reg.SFL_SNAP_ASSERT (n : Nat) : Nat := 0xB1400 + 0x4 * n
/-- Register `SFL_SNAP_INDET` of instance `n`. -/
abbrev Reg.SFL_SNAP_INDET (n : Nat) : Nat := 0xB1600 + 0x4 * n
/-- Register `SFL_SNAP_STNUM`. -/
abbrev Reg.SFL_SNAP_STNUM : Nat := 0xB1800
/-- Register `SFL_SNAP_RAW_LO`. -/
abbrev Reg.SFL_SNAP_RAW_LO : Nat := 0xB1804
/-- Register `SFL_SNAP_RAW_HI`. -/
abbrev Reg.SFL_SNAP_RAW_HI : Nat := 0xB1808
/-- Register `DNS_CTRL`. -/
abbrev Reg.DNS_CTRL : Nat := 0xC0000
/-- Register `DNS_STATUS`. -/
abbrev Reg.DNS_STATUS : Nat := 0xC0004
/-- Register `DNS_EVT`. -/
abbrev Reg.DNS_EVT : Nat := 0xC0008
/-- Register `DNS_ID`. -/
abbrev Reg.DNS_ID : Nat := 0xC000C
/-- Register `DNS_PRE`. -/
abbrev Reg.DNS_PRE : Nat := 0xC0010
/-- Register `DNS_FO`. -/
abbrev Reg.DNS_FO : Nat := 0xC0014
/-- Register `DNS_FO2`. -/
abbrev Reg.DNS_FO2 : Nat := 0xC0018
/-- Register `DNS_COH`. -/
abbrev Reg.DNS_COH : Nat := 0xC001C
/-- Register `DNS_COH2`. -/
abbrev Reg.DNS_COH2 : Nat := 0xC0020
/-- Register `DNS_MT_SEQ`. -/
abbrev Reg.DNS_MT_SEQ : Nat := 0xC0024
/-- Register `DNS_MT_INFO`. -/
abbrev Reg.DNS_MT_INFO : Nat := 0xC0028
/-- Register `DNS_MT_TICK_LO`. -/
abbrev Reg.DNS_MT_TICK_LO : Nat := 0xC002C
/-- Register `DNS_MT_TICK_HI`. -/
abbrev Reg.DNS_MT_TICK_HI : Nat := 0xC0030
/-- Register `DNS_FLAGS_LO`. -/
abbrev Reg.DNS_FLAGS_LO : Nat := 0xC0034
/-- Register `DNS_FLAGS_HI`. -/
abbrev Reg.DNS_FLAGS_HI : Nat := 0xC0038
/-- Register `DNS_COH_SEQ`. -/
abbrev Reg.DNS_COH_SEQ : Nat := 0xC003C
/-- Register `DNS_COH_INFO`. -/
abbrev Reg.DNS_COH_INFO : Nat := 0xC0040
/-- Register `DNS_COH_OVER`. -/
abbrev Reg.DNS_COH_OVER : Nat := 0xC0044
/-- Register `DNS_COH_LATE`. -/
abbrev Reg.DNS_COH_LATE : Nat := 0xC0048
/-- Register `DNS_SIG_EXCL`. -/
abbrev Reg.DNS_SIG_EXCL : Nat := 0xC004C
/-- Register `DNS_RESTARTS`. -/
abbrev Reg.DNS_RESTARTS : Nat := 0xC0050
/-- Register `DNS_CORES`. -/
abbrev Reg.DNS_CORES : Nat := 0xC0054
/-- Register `DNS_SHAPE_SEL`. -/
abbrev Reg.DNS_SHAPE_SEL : Nat := 0xC0058
/-- Register `DNS_FO_SEL`. -/
abbrev Reg.DNS_FO_SEL : Nat := 0xC005C
/-- Register `DNS_FLAG_SPQ_DROP`. -/
abbrev Reg.DNS_FLAG_SPQ_DROP : Nat := 0xC0060
/-- Register `DNS_FO_OVER`. -/
abbrev Reg.DNS_FO_OVER : Nat := 0xC0064
/-- Register `SHT_CTRL`. -/
abbrev Reg.SHT_CTRL : Nat := 0xD0000
/-- Register `SHT_STATUS`. -/
abbrev Reg.SHT_STATUS : Nat := 0xD0004
/-- Register `SHT_EVT`. -/
abbrev Reg.SHT_EVT : Nat := 0xD0008
/-- Register `SHT_SKEW_CAL`. -/
abbrev Reg.SHT_SKEW_CAL : Nat := 0xD000C
/-- Register `SHT_READY_DROP`. -/
abbrev Reg.SHT_READY_DROP : Nat := 0xD0010
/-- Register `SHT_NEXT_ID`. -/
abbrev Reg.SHT_NEXT_ID : Nat := 0xD0014
/-- Register `SHT_GRP_STATUS` of instance `n`. -/
abbrev Reg.SHT_GRP_STATUS (n : Nat) : Nat := 0xD0100 + 0x40 * n
/-- Register `SHT_GRP_MISSED` of instance `n`. -/
abbrev Reg.SHT_GRP_MISSED (n : Nat) : Nat := 0xD0104 + 0x40 * n
/-- Register `SHT_GRP_CAPTURES` of instance `n`. -/
abbrev Reg.SHT_GRP_CAPTURES (n : Nat) : Nat := 0xD0108 + 0x40 * n
/-- Register `SHT_GRP_LAST_ID` of instance `n`. -/
abbrev Reg.SHT_GRP_LAST_ID (n : Nat) : Nat := 0xD010C + 0x40 * n
/-- Register `SHT_GRP_RING_FREE` of instance `n`. -/
abbrev Reg.SHT_GRP_RING_FREE (n : Nat) : Nat := 0xD0110 + 0x40 * n
/-- Register `SHT_GRP_STORE_FREE` of instance `n`. -/
abbrev Reg.SHT_GRP_STORE_FREE (n : Nat) : Nat := 0xD0114 + 0x40 * n
/-- Register `SHT_GRP_OVF` of instance `n`. -/
abbrev Reg.SHT_GRP_OVF (n : Nat) : Nat := 0xD0118 + 0x40 * n
/-- Register `SHT_GRP_MASK_VIOL` of instance `n`. -/
abbrev Reg.SHT_GRP_MASK_VIOL (n : Nat) : Nat := 0xD011C + 0x40 * n
/-- Register `SHT_GRP_HISTORY_MS` of instance `n`. -/
abbrev Reg.SHT_GRP_HISTORY_MS (n : Nat) : Nat := 0xD0120 + 0x40 * n
/-- Register `SWG_STATUS`. -/
abbrev Reg.SWG_STATUS : Nat := 0xE0000
/-- Register `SWG_EVT`. -/
abbrev Reg.SWG_EVT : Nat := 0xE0004
/-- Register `SWG_BLOCKS`. -/
abbrev Reg.SWG_BLOCKS : Nat := 0xE0008
/-- Register `SWG_IN_BYTES_LO`. -/
abbrev Reg.SWG_IN_BYTES_LO : Nat := 0xE000C
/-- Register `SWG_IN_BYTES_HI`. -/
abbrev Reg.SWG_IN_BYTES_HI : Nat := 0xE0010
/-- Register `SWG_OUT_BYTES_LO`. -/
abbrev Reg.SWG_OUT_BYTES_LO : Nat := 0xE0014
/-- Register `SWG_OUT_BYTES_HI`. -/
abbrev Reg.SWG_OUT_BYTES_HI : Nat := 0xE0018
/-- Register `SWG_VERIFY_FAIL`. -/
abbrev Reg.SWG_VERIFY_FAIL : Nat := 0xE001C
/-- Register `SWG_UNCODED`. -/
abbrev Reg.SWG_UNCODED : Nat := 0xE0020
/-- Register `SWG_MERGED`. -/
abbrev Reg.SWG_MERGED : Nat := 0xE0024
/-- Register `SWG_SATURATED`. -/
abbrev Reg.SWG_SATURATED : Nat := 0xE0028
/-- Register `SWG_CTX_STATUS` of instance `n`. -/
abbrev Reg.SWG_CTX_STATUS (n : Nat) : Nat := 0xE0100 + 0x10 * n
/-- Register `SWG_CTX_INDEX` of instance `n`. -/
abbrev Reg.SWG_CTX_INDEX (n : Nat) : Nat := 0xE0104 + 0x10 * n
/-- Register `PUB_CTRL`. -/
abbrev Reg.PUB_CTRL : Nat := 0xF0000
/-- Register `PUB_STATUS`. -/
abbrev Reg.PUB_STATUS : Nat := 0xF0004
/-- Register `PUB_EVT`. -/
abbrev Reg.PUB_EVT : Nat := 0xF0008
/-- Register `PUB_TX_SETS`. -/
abbrev Reg.PUB_TX_SETS : Nat := 0xF000C
/-- Register `PUB_TX_AMENDS`. -/
abbrev Reg.PUB_TX_AMENDS : Nat := 0xF0010
/-- Register `PUB_LAT_OVER`. -/
abbrev Reg.PUB_LAT_OVER : Nat := 0xF0014
/-- Register `PUB_SEALS`. -/
abbrev Reg.PUB_SEALS : Nat := 0xF0018
/-- Register `PUB_SEAL_FAIL`. -/
abbrev Reg.PUB_SEAL_FAIL : Nat := 0xF001C
/-- Register `PUB_ALM_CTRL`. -/
abbrev Reg.PUB_ALM_CTRL : Nat := 0xF0020
/-- Register `PUB_ALM_MAC_LO`. -/
abbrev Reg.PUB_ALM_MAC_LO : Nat := 0xF0024
/-- Register `PUB_ALM_MAC_HI`. -/
abbrev Reg.PUB_ALM_MAC_HI : Nat := 0xF0028
/-- Register `PUB_ALM_APPID`. -/
abbrev Reg.PUB_ALM_APPID : Nat := 0xF002C
/-- Register `PUB_ALM_CONFREV`. -/
abbrev Reg.PUB_ALM_CONFREV : Nat := 0xF0030
/-- Register `PUB_RG_DST` of instance `n`. -/
abbrev Reg.PUB_RG_DST (n : Nat) : Nat := 0xF0034 + 0x4 * n
/-- Register `PUB_RG_CTRL`. -/
abbrev Reg.PUB_RG_CTRL : Nat := 0xF0044
/-- Register `PUB_ALM_STR` of instance `n`. -/
abbrev Reg.PUB_ALM_STR (n : Nat) : Nat := 0xF0100 + 0x4 * n
/-- Register `BRZ_CTRL`. -/
abbrev Reg.BRZ_CTRL : Nat := 0x100000
/-- Register `BRZ_DEV`. -/
abbrev Reg.BRZ_DEV : Nat := 0x100004
/-- Register `BRZ_UP`. -/
abbrev Reg.BRZ_UP : Nat := 0x100008
/-- Register `BRZ_UP_ASYM`. -/
abbrev Reg.BRZ_UP_ASYM : Nat := 0x10000C
/-- Register `BRZ_ACK`. -/
abbrev Reg.BRZ_ACK : Nat := 0x100010
/-- Register `BRZ_STATUS`. -/
abbrev Reg.BRZ_STATUS : Nat := 0x100014
/-- Register `BRZ_EVT`. -/
abbrev Reg.BRZ_EVT : Nat := 0x100018
/-- Register `BRZ_ALM_VER`. -/
abbrev Reg.BRZ_ALM_VER : Nat := 0x10001C
/-- Register `BRZ_TWIN`. -/
abbrev Reg.BRZ_TWIN : Nat := 0x100020
/-- Register `BRZ_TWIN_TIMING`. -/
abbrev Reg.BRZ_TWIN_TIMING : Nat := 0x100024
/-- Register `BRZ_TWIN_STATUS`. -/
abbrev Reg.BRZ_TWIN_STATUS : Nat := 0x100028
/-- Register `BRZ_TWIN_MISMATCH`. -/
abbrev Reg.BRZ_TWIN_MISMATCH : Nat := 0x10002C
/-- Register `BRZ_TWIN_COMPARED`. -/
abbrev Reg.BRZ_TWIN_COMPARED : Nat := 0x100030
/-- Register `BRZ_PORT_CTRL` of instance `n`. -/
abbrev Reg.BRZ_PORT_CTRL (n : Nat) : Nat := 0x100100 + 0x40 * n
/-- Register `BRZ_PORT_GROUP_LO` of instance `n`. -/
abbrev Reg.BRZ_PORT_GROUP_LO (n : Nat) : Nat := 0x100104 + 0x40 * n
/-- Register `BRZ_PORT_GROUP_HI` of instance `n`. -/
abbrev Reg.BRZ_PORT_GROUP_HI (n : Nat) : Nat := 0x100108 + 0x40 * n
/-- Register `BRZ_PORT_RXFRAMES` of instance `n`. -/
abbrev Reg.BRZ_PORT_RXFRAMES (n : Nat) : Nat := 0x10010C + 0x40 * n
/-- Register `BRZ_PORT_AUTH` of instance `n`. -/
abbrev Reg.BRZ_PORT_AUTH (n : Nat) : Nat := 0x100110 + 0x40 * n
/-- Register `BRZ_PORT_REPEAT` of instance `n`. -/
abbrev Reg.BRZ_PORT_REPEAT (n : Nat) : Nat := 0x100114 + 0x40 * n
/-- Register `BRZ_PORT_REPLAY` of instance `n`. -/
abbrev Reg.BRZ_PORT_REPLAY (n : Nat) : Nat := 0x100118 + 0x40 * n
/-- Register `BRZ_PORT_NOPEER` of instance `n`. -/
abbrev Reg.BRZ_PORT_NOPEER (n : Nat) : Nat := 0x10011C + 0x40 * n
/-- Register `BRZ_PORT_TXFRAMES` of instance `n`. -/
abbrev Reg.BRZ_PORT_TXFRAMES (n : Nat) : Nat := 0x100120 + 0x40 * n
/-- Register `FLG_CTRL`. -/
abbrev Reg.FLG_CTRL : Nat := 0x110000
/-- Register `FLG_PAN`. -/
abbrev Reg.FLG_PAN : Nat := 0x110004
/-- Register `FLG_EUI_LO`. -/
abbrev Reg.FLG_EUI_LO : Nat := 0x110008
/-- Register `FLG_EUI_HI`. -/
abbrev Reg.FLG_EUI_HI : Nat := 0x11000C
/-- Register `FLG_PHY`. -/
abbrev Reg.FLG_PHY : Nat := 0x110010
/-- Register `FLG_LBT`. -/
abbrev Reg.FLG_LBT : Nat := 0x110014
/-- Register `FLG_LBT2`. -/
abbrev Reg.FLG_LBT2 : Nat := 0x110018
/-- Register `FLG_BCN`. -/
abbrev Reg.FLG_BCN : Nat := 0x11001C
/-- Register `FLG_ACK`. -/
abbrev Reg.FLG_ACK : Nat := 0x110020
/-- Register `FLG_SEC`. -/
abbrev Reg.FLG_SEC : Nat := 0x110024
/-- Register `FLG_FLOOD`. -/
abbrev Reg.FLG_FLOOD : Nat := 0x110028
/-- Register `FLG_SYNC`. -/
abbrev Reg.FLG_SYNC : Nat := 0x11002C
/-- Register `FLG_IE_OUI`. -/
abbrev Reg.FLG_IE_OUI : Nat := 0x110030
/-- Register `FLG_RLP_CTRL`. -/
abbrev Reg.FLG_RLP_CTRL : Nat := 0x110034
/-- Register `FLG_RLP_TXLAT`. -/
abbrev Reg.FLG_RLP_TXLAT : Nat := 0x110038
/-- Register `FLG_SFD_DEV`. -/
abbrev Reg.FLG_SFD_DEV : Nat := 0x11003C
/-- Register `FLG_EVT`. -/
abbrev Reg.FLG_EVT : Nat := 0x110040
/-- Register `FLG_UP_INFO`. -/
abbrev Reg.FLG_UP_INFO : Nat := 0x110044
/-- Register `FLG_UP_EUI_LO`. -/
abbrev Reg.FLG_UP_EUI_LO : Nat := 0x110048
/-- Register `FLG_UP_EUI_HI`. -/
abbrev Reg.FLG_UP_EUI_HI : Nat := 0x11004C
/-- Register `FLG_UP_FC`. -/
abbrev Reg.FLG_UP_FC : Nat := 0x110050
/-- Register `FLG_NODES`. -/
abbrev Reg.FLG_NODES : Nat := 0x110054
/-- Register `FLG_TX_FRAMES`. -/
abbrev Reg.FLG_TX_FRAMES : Nat := 0x110060
/-- Register `FLG_RX_FRAMES`. -/
abbrev Reg.FLG_RX_FRAMES : Nat := 0x110064
/-- Register `FLG_CCA_FAIL`. -/
abbrev Reg.FLG_CCA_FAIL : Nat := 0x110068
/-- Register `FLG_NOACK`. -/
abbrev Reg.FLG_NOACK : Nat := 0x11006C
/-- Register `FLG_BCN_SKIPPED`. -/
abbrev Reg.FLG_BCN_SKIPPED : Nat := 0x110070
/-- Register `FLG_REPEAT`. -/
abbrev Reg.FLG_REPEAT : Nat := 0x110074
/-- Register `FLG_REPLAY`. -/
abbrev Reg.FLG_REPLAY : Nat := 0x110078
/-- Register `FLG_MIC_FAIL`. -/
abbrev Reg.FLG_MIC_FAIL : Nat := 0x11007C
/-- Register `FLG_INSECURE`. -/
abbrev Reg.FLG_INSECURE : Nat := 0x110080
/-- Register `FLG_DENIED`. -/
abbrev Reg.FLG_DENIED : Nat := 0x110084
/-- Register `FLG_RX_UNSUP`. -/
abbrev Reg.FLG_RX_UNSUP : Nat := 0x110088
/-- Register `FLG_BUF_DROP`. -/
abbrev Reg.FLG_BUF_DROP : Nat := 0x11008C
/-- Register `FLG_FLOOD_DUP`. -/
abbrev Reg.FLG_FLOOD_DUP : Nat := 0x110090
/-- Register `FLG_TTL_DROP`. -/
abbrev Reg.FLG_TTL_DROP : Nat := 0x110094
/-- Register `FLG_SEEN_EVICT`. -/
abbrev Reg.FLG_SEEN_EVICT : Nat := 0x110098
/-- Register `FLG_HOST_DROP`. -/
abbrev Reg.FLG_HOST_DROP : Nat := 0x11009C
/-- Register `FLG_SFD_LATE`. -/
abbrev Reg.FLG_SFD_LATE : Nat := 0x1100A0
/-- Register `FLG_RLP_FAULTS`. -/
abbrev Reg.FLG_RLP_FAULTS : Nat := 0x1100A4
/-- Register `FLG_NODE_CHG` of instance `n`. -/
abbrev Reg.FLG_NODE_CHG (n : Nat) : Nat := 0x110100 + 0x4 * n
/-- Register `HST_CTRL`. -/
abbrev Reg.HST_CTRL : Nat := 0x120000
/-- Register `HST_STATUS`. -/
abbrev Reg.HST_STATUS : Nat := 0x120004
/-- Register `HST_EVT`. -/
abbrev Reg.HST_EVT : Nat := 0x120008
/-- Register `HST_POLL`. -/
abbrev Reg.HST_POLL : Nat := 0x12000C
/-- Register `HST_KICK`. -/
abbrev Reg.HST_KICK : Nat := 0x120010
/-- Register `HST_DB_LO`. -/
abbrev Reg.HST_DB_LO : Nat := 0x120014
/-- Register `HST_DB_HI`. -/
abbrev Reg.HST_DB_HI : Nat := 0x120018
/-- Register `HST_RING_ERR`. -/
abbrev Reg.HST_RING_ERR : Nat := 0x12001C
/-- Register `HST_MGMT_DROP`. -/
abbrev Reg.HST_MGMT_DROP : Nat := 0x120020
/-- Register `HST_REFUSED`. -/
abbrev Reg.HST_REFUSED : Nat := 0x120024
/-- Register `HST_DATA_CTRL`. -/
abbrev Reg.HST_DATA_CTRL : Nat := 0x120028
/-- Register `HST_RING_BASE_LO` of instance `n`. -/
abbrev Reg.HST_RING_BASE_LO (n : Nat) : Nat := 0x121000 + 0x20 * n
/-- Register `HST_RING_BASE_HI` of instance `n`. -/
abbrev Reg.HST_RING_BASE_HI (n : Nat) : Nat := 0x121004 + 0x20 * n
/-- Register `HST_RING_CTRL` of instance `n`. -/
abbrev Reg.HST_RING_CTRL (n : Nat) : Nat := 0x121008 + 0x20 * n
/-- Register `HST_CRING_CTRL` of instance `n`. -/
abbrev Reg.HST_CRING_CTRL (n : Nat) : Nat := 0x121808 + 0x20 * n
/-- Register `HST_RING_HEAD` of instance `n`. -/
abbrev Reg.HST_RING_HEAD (n : Nat) : Nat := 0x12100C + 0x20 * n
/-- Register `HST_RING_TAIL` of instance `n`. -/
abbrev Reg.HST_RING_TAIL (n : Nat) : Nat := 0x121010 + 0x20 * n
/-- Register `HST_RING_OUT` of instance `n`. -/
abbrev Reg.HST_RING_OUT (n : Nat) : Nat := 0x121014 + 0x20 * n
/-- Register `HST_RING_DROP` of instance `n`. -/
abbrev Reg.HST_RING_DROP (n : Nat) : Nat := 0x121018 + 0x20 * n
/-- Register `SPQ_Q_CTRL` of instance `n`. -/
abbrev Reg.SPQ_Q_CTRL (n : Nat) : Nat := 0x130000 + 0x40 * n
/-- Register `SPQ_HBUF_LO` of instance `n`. -/
abbrev Reg.SPQ_HBUF_LO (n : Nat) : Nat := 0x130004 + 0x40 * n
/-- Register `SPQ_HBUF_HI` of instance `n`. -/
abbrev Reg.SPQ_HBUF_HI (n : Nat) : Nat := 0x130008 + 0x40 * n
/-- Register `SPQ_HBUF_SIZE` of instance `n`. -/
abbrev Reg.SPQ_HBUF_SIZE (n : Nat) : Nat := 0x13000C + 0x40 * n
/-- Register `SPQ_STATUS` of instance `n`. -/
abbrev Reg.SPQ_STATUS (n : Nat) : Nat := 0x130010 + 0x40 * n
/-- Register `SPQ_CREDITS` of instance `n`. -/
abbrev Reg.SPQ_CREDITS (n : Nat) : Nat := 0x130014 + 0x40 * n
/-- Register `SPQ_POP_HDR` of instance `n`. -/
abbrev Reg.SPQ_POP_HDR (n : Nat) : Nat := 0x130018 + 0x40 * n
/-- Register `SPQ_POP_DATA` of instance `n`. -/
abbrev Reg.SPQ_POP_DATA (n : Nat) : Nat := 0x13001C + 0x40 * n
/-- Register `SPQ_DROP` of instance `n`. -/
abbrev Reg.SPQ_DROP (n : Nat) : Nat := 0x130020 + 0x40 * n
/-- Register `SPQ_CE` of instance `n`. -/
abbrev Reg.SPQ_CE (n : Nat) : Nat := 0x130024 + 0x40 * n
/-- Register `SPQ_UE` of instance `n`. -/
abbrev Reg.SPQ_UE (n : Nat) : Nat := 0x130028 + 0x40 * n
/-- Register `SPQ_ITEMS` of instance `n`. -/
abbrev Reg.SPQ_ITEMS (n : Nat) : Nat := 0x13002C + 0x40 * n
/-- Register `SPQ_BAD_POP` of instance `n`. -/
abbrev Reg.SPQ_BAD_POP (n : Nat) : Nat := 0x130030 + 0x40 * n
/-- Register `SPQ_WR` of instance `n`. -/
abbrev Reg.SPQ_WR (n : Nat) : Nat := 0x130034 + 0x40 * n
/-- Register `SPQ_CTRL`. -/
abbrev Reg.SPQ_CTRL : Nat := 0x131000
/-- Register `KEY_STATUS`. -/
abbrev Reg.KEY_STATUS : Nat := 0x140000
/-- Register `KEY_EVT`. -/
abbrev Reg.KEY_EVT : Nat := 0x140004
/-- Register `KEY_IMPORT_CTR`. -/
abbrev Reg.KEY_IMPORT_CTR : Nat := 0x140008
/-- Register `KEY_FLIPS`. -/
abbrev Reg.KEY_FLIPS : Nat := 0x14000C
/-- Register `KEY_LOST`. -/
abbrev Reg.KEY_LOST : Nat := 0x140010
/-- Register `KEY_LAST_FLIP_LO`. -/
abbrev Reg.KEY_LAST_FLIP_LO : Nat := 0x140014
/-- Register `KEY_LAST_FLIP_HI`. -/
abbrev Reg.KEY_LAST_FLIP_HI : Nat := 0x140018
/-- Register `HLM_PUB` of instance `n`. -/
abbrev Reg.HLM_PUB (n : Nat) : Nat := 0x140020 + 0x4 * n
/-- Register `HLM_CERT_LEN`. -/
abbrev Reg.HLM_CERT_LEN : Nat := 0x140060
/-- Register `HLM_MEASURE` of instance `n`. -/
abbrev Reg.HLM_MEASURE (n : Nat) : Nat := 0x140064 + 0x4 * n
/-- Register `TMP_LC`. -/
abbrev Reg.TMP_LC : Nat := 0x150000
/-- Register `TMP_STATUS`. -/
abbrev Reg.TMP_STATUS : Nat := 0x150004
/-- Register `TMP_SRC_EN`. -/
abbrev Reg.TMP_SRC_EN : Nat := 0x150008
/-- Register `TMP_LATCH`. -/
abbrev Reg.TMP_LATCH : Nat := 0x15000C
/-- Register `TMP_LATCH_TIME`. -/
abbrev Reg.TMP_LATCH_TIME : Nat := 0x150010
/-- Register `TMP_VAULT_GEN`. -/
abbrev Reg.TMP_VAULT_GEN : Nat := 0x150014
/-- Register `TMP_UPD_CTR`. -/
abbrev Reg.TMP_UPD_CTR : Nat := 0x150018
/-- Register `TMP_UPD_LAST`. -/
abbrev Reg.TMP_UPD_LAST : Nat := 0x15001C
/-- Register `TMP_UPD_STALE`. -/
abbrev Reg.TMP_UPD_STALE : Nat := 0x150020
/-- Register `TMP_DBG_DENIED`. -/
abbrev Reg.TMP_DBG_DENIED : Nat := 0x150024
/-- Register `TMP_AUTH_HASH` of instance `n`. -/
abbrev Reg.TMP_AUTH_HASH (n : Nat) : Nat := 0x150040 + 0x4 * n
/-- Register `PLG_CTRL`. -/
abbrev Reg.PLG_CTRL : Nat := 0x160000
/-- Register `PLG_STATUS`. -/
abbrev Reg.PLG_STATUS : Nat := 0x160004
/-- Register `PLG_GEN_HEAD`. -/
abbrev Reg.PLG_GEN_HEAD : Nat := 0x160008
/-- Register `PLG_GEN_OLDEST`. -/
abbrev Reg.PLG_GEN_OLDEST : Nat := 0x16000C
/-- Register `PLG_SEC_NEXT` of instance `n`. -/
abbrev Reg.PLG_SEC_NEXT (n : Nat) : Nat := 0x160010 + 0x4 * n
/-- Register `PLG_SEC_OLDEST` of instance `n`. -/
abbrev Reg.PLG_SEC_OLDEST (n : Nat) : Nat := 0x16001C + 0x4 * n
/-- Register `PLG_CURSOR_0`. -/
abbrev Reg.PLG_CURSOR_0 : Nat := 0x160028
/-- Register `PLG_CURSOR_1`. -/
abbrev Reg.PLG_CURSOR_1 : Nat := 0x16002C
/-- Register `PLG_CURSOR_2`. -/
abbrev Reg.PLG_CURSOR_2 : Nat := 0x160030
/-- Register `PLG_NEXT`. -/
abbrev Reg.PLG_NEXT : Nat := 0x160034
/-- Register `PLG_REC` of instance `n`. -/
abbrev Reg.PLG_REC (n : Nat) : Nat := 0x160040 + 0x4 * n
/-- Register `PLG_SUPPRESSED`. -/
abbrev Reg.PLG_SUPPRESSED : Nat := 0x160060
/-- Register `PLG_STAGE_DROP`. -/
abbrev Reg.PLG_STAGE_DROP : Nat := 0x160064
/-- Register `PLG_DAMAGED`. -/
abbrev Reg.PLG_DAMAGED : Nat := 0x160068
/-- Register `PLG_BAD_SLOTS`. -/
abbrev Reg.PLG_BAD_SLOTS : Nat := 0x16006C
/-- Register `PLG_SEC_DIGEST` of instance `n`. -/
abbrev Reg.PLG_SEC_DIGEST (n : Nat) : Nat := 0x160080 + 0x4 * n
/-- Register `PLG_RATE` of instance `n`. -/
abbrev Reg.PLG_RATE (n : Nat) : Nat := 0x160400 + 0x4 * n
/-- Register `MEM_CFG`. -/
abbrev Reg.MEM_CFG : Nat := 0x170000
/-- Register `MEM_STATUS`. -/
abbrev Reg.MEM_STATUS : Nat := 0x170004
/-- Register `MEM_CE`. -/
abbrev Reg.MEM_CE : Nat := 0x170008
/-- Register `MEM_UE`. -/
abbrev Reg.MEM_UE : Nat := 0x17000C
/-- Register `MEM_UE_ADDR_LO`. -/
abbrev Reg.MEM_UE_ADDR_LO : Nat := 0x170010
/-- Register `MEM_UE_ADDR_HI`. -/
abbrev Reg.MEM_UE_ADDR_HI : Nat := 0x170014
/-- Register `MEM_SCRUB`. -/
abbrev Reg.MEM_SCRUB : Nat := 0x170018
/-- Register `MEM_BW`. -/
abbrev Reg.MEM_BW : Nat := 0x17001C

/-- Rows of the register map, part 1. -/
def regRows0 : List RegRow := [
  ⟨0x0, 0x0, 1, 0, 0, 0, 0, 32, false, 0, false⟩,
  ⟨0x4, 0x0, 1, 0, 0, 0, 0, 32, false, 0, false⟩,
  ⟨0x8, 0x0, 1, 0, 0, 0, 0, 32, false, 0, false⟩,
  ⟨0xC, 0x0, 1, 0, 0, 0, 0, 32, false, 0, false⟩,
  ⟨0x10, 0x0, 1, 0, 0, 0, 0, 32, false, 0, false⟩,
  ⟨0x40, 0x0, 1, 0, 0, 0, 0, 32, false, 0, false⟩,
  ⟨0x44, 0x0, 1, 0, 0, 0, 0, 32, false, 0, false⟩,
  ⟨0x48, 0x0, 1, 0, 0, 0, 0, 32, false, 0, false⟩,
  ⟨0x4C, 0x0, 1, 0, 0, 0, 0, 32, false, 0, false⟩,
  ⟨0x100, 0x0, 1, 0, 0, 0, 0, 32, false, 0, false⟩,
  ⟨0x104, 0x0, 1, 0, 0x1, 0, 0, 32, false, 0, false⟩,
  ⟨0x10000, 0x4, 64, 0, 0, 0, 0, 32, false, 0, false⟩,
  ⟨0x10100, 0x4, 8, 0, 0, 0, 0, 32, false, 0, false⟩,
  ⟨0x10200, 0x0, 1, 0, 0, 0, 0, 32, false, 0, false⟩,
  ⟨0x10204, 0x0, 1, 0, 0, 0, 0, 32, false, 0, false⟩,
  ⟨0x10208, 0x0, 1, 0, 0, 0, 0, 32, true, 0, false⟩,
  ⟨0x20000, 0x0, 1, 0x3FFFFFFF, 0, 0, 0, 32, false, 0x10320A14, false⟩,
  ⟨0x20004, 0x0, 1, 0, 0, 0, 0, 32, false, 0x96, false⟩,
  ⟨0x20008, 0x0, 1, 0, 0, 0, 0, 32, false, 0, false⟩,
  ⟨0x2000C, 0x0, 1, 0, 0x3F, 0, 0, 32, false, 0, false⟩,
  ⟨0x20010, 0x0, 1, 0, 0, 0, 0, 32, false, 0, false⟩,
  ⟨0x20014, 0x0, 1, 0, 0, 0, 0, 32, false, 0, false⟩,
  ⟨0x20018, 0x0, 1, 0, 0, 0, 0, 32, false, 0, false⟩,
  ⟨0x2001C, 0x0, 1, 0, 0, 0, 0, 32, false, 0, false⟩,
  ⟨0x20020, 0x4, 9, 0, 0, 0, 0, 32, false, 0, false⟩,
  ⟨0x20100, 0x0, 1, 0, 0, 0, 0, 32, false, 0, false⟩,
  ⟨0x20104, 0x0, 1, 0, 0xF, 0, 0, 32, false, 0, false⟩,
  ⟨0x20108, 0x0, 1, 0, 0, 0, 0xFFFFFF7F, 2, false, 0, false⟩,
  ⟨0x2010C, 0x0, 1, 0, 0, 0, 0xFFFFFFFF, 2, false, 0, false⟩,
  ⟨0x20110, 0x0, 1, 0, 0, 0, 0x3FFFFFF, 2, false, 0, false⟩,
  ⟨0x20114, 0x0, 1, 0, 0, 0, 0, 32, false, 0, false⟩,
  ⟨0x20118, 0x0, 1, 0, 0, 0, 0, 32, false, 0, false⟩,
  ⟨0x2011C, 0x0, 1, 0, 0, 0, 0, 32, false, 0, false⟩,
  ⟨0x20120, 0x0, 1, 0, 0, 0, 0, 32, true, 0, false⟩,
  ⟨0x20124, 0x0, 1, 0, 0, 0, 0, 32, false, 0, false⟩,
  ⟨0x20200, 0x0, 1, 0, 0, 0, 0, 32, false, 0, false⟩,
  ⟨0x20204, 0x0, 1, 0, 0, 0, 0, 32, false, 0, false⟩,
  ⟨0x20208, 0x0, 1, 0, 0, 0, 0, 32, false, 0, false⟩,
  ⟨0x20300, 0x0, 1, 0, 0, 0, 0, 32, false, 0, false⟩,
  ⟨0x20304, 0x0, 1, 0, 0, 0, 0, 32, false, 0, false⟩]

/-- Rows of the register map, part 2. -/
def regRows1 : List RegRow := [
  ⟨0x20308, 0x0, 1, 0, 0, 0, 0, 32, false, 0, false⟩,
  ⟨0x2030C, 0x0, 1, 0, 0, 0, 0, 32, false, 0, false⟩,
  ⟨0x20310, 0x0, 1, 0, 0, 0, 0, 32, false, 0, false⟩,
  ⟨0x30000, 0x0, 1, 0xFF0B, 0, 0x4, 0, 32, false, 0x103, false⟩,
  ⟨0x30004, 0x0, 1, 0, 0, 0, 0, 32, false, 0, false⟩,
  ⟨0x30008, 0x0, 1, 0, 0x3F, 0, 0, 32, false, 0, false⟩,
  ⟨0x30010, 0x0, 1, 0, 0, 0, 0, 32, false, 0, false⟩,
  ⟨0x30014, 0x0, 1, 0, 0, 0, 0, 32, false, 0, false⟩,
  ⟨0x30018, 0x0, 1, 0, 0, 0, 0, 32, false, 0, false⟩,
  ⟨0x30020, 0x0, 1, 0, 0, 0, 0, 32, false, 0, false⟩,
  ⟨0x30024, 0x0, 1, 0, 0, 0, 0, 32, false, 0, false⟩,
  ⟨0x30028, 0x0, 1, 0, 0, 0, 0, 32, false, 0, false⟩,
  ⟨0x3002C, 0x0, 1, 0, 0, 0, 0, 32, false, 0, false⟩,
  ⟨0x30030, 0x0, 1, 0, 0, 0, 0, 32, false, 0, false⟩,
  ⟨0x30034, 0x0, 1, 0, 0, 0, 0, 32, false, 0, false⟩,
  ⟨0x30040, 0x0, 1, 0xFFFFFFFF, 0, 0, 0, 32, false, 0, false⟩,
  ⟨0x30044, 0x0, 1, 0xFF, 0, 0, 0, 32, false, 0, false⟩,
  ⟨0x30048, 0x0, 1, 0x3FF, 0, 0, 0, 32, false, 0x32, false⟩,
  ⟨0x30050, 0x0, 1, 0xFFFFFFFF, 0, 0, 0, 32, false, 0x7D090321, false⟩,
  ⟨0x30054, 0x0, 1, 0, 0, 0, 0, 32, false, 0, false⟩,
  ⟨0x30058, 0x0, 1, 0, 0, 0, 0, 32, false, 0xFFFFFFFF, false⟩,
  ⟨0x3005C, 0x0, 1, 0xFFFFFFFF, 0, 0, 0, 32, false, 0xA0064, false⟩,
  ⟨0x30060, 0x0, 1, 0xFFFF03FF, 0, 0, 0, 32, false, 0xA0064, false⟩,
  ⟨0x30064, 0x0, 1, 0, 0, 0, 0, 32, false, 0, false⟩,
  ⟨0x30068, 0x0, 1, 0, 0, 0, 0, 32, false, 0, false⟩,
  ⟨0x3006C, 0x0, 1, 0, 0, 0, 0, 32, false, 0, false⟩,
  ⟨0x30070, 0x0, 1, 0xFFFF00FF, 0, 0, 0, 32, false, 0x25, false⟩,
  ⟨0x30080, 0x0, 1, 0x33F, 0, 0, 0, 32, false, 0, false⟩,
  ⟨0x30084, 0x0, 1, 0xFFFFFFFF, 0, 0, 0, 32, false, 0, false⟩,
  ⟨0x30088, 0x0, 1, 0xFFFFFFFF, 0, 0, 0, 32, false, 0, false⟩,
  ⟨0x3008C, 0x0, 1, 0, 0, 0, 0, 32, true, 0, false⟩,
  ⟨0x30100, 0x20, 4, 0x7FFFFFF, 0, 0, 0, 32, false, 0x33000000, false⟩,
  ⟨0x30104, 0x20, 4, 0xFFFFFF, 0, 0, 0, 32, false, 0x2666, false⟩,
  ⟨0x30108, 0x20, 4, 0xFFFFFF, 0, 0, 0, 32, false, 0x4000, false⟩,
  ⟨0x3010C, 0x20, 4, 0xFFFFFFFF, 0, 0, 0, 32, false, 0, false⟩,
  ⟨0x30200, 0x20, 8, 0xFF, 0x300, 0, 0, 32, false, 0, false⟩,
  ⟨0x30204, 0x20, 8, 0xFFFFFFFF, 0, 0, 0, 32, false, 0, false⟩,
  ⟨0x30208, 0x20, 8, 0xFF, 0, 0, 0, 32, false, 0, false⟩,
  ⟨0x3020C, 0x20, 8, 0xFFFFFFFF, 0, 0, 0, 32, false, 0, false⟩,
  ⟨0x30210, 0x20, 8, 0xFFFF, 0, 0, 0, 32, false, 0, false⟩]

/-- Rows of the register map, part 3. -/
def regRows2 : List RegRow := [
  ⟨0x30214, 0x20, 8, 0xFFFFFFFF, 0, 0, 0, 32, false, 0, false⟩,
  ⟨0x30218, 0x20, 8, 0, 0, 0, 0, 32, false, 0, false⟩,
  ⟨0x40000, 0x2000, 4, 0x3F0F, 0, 0, 0, 32, false, 0x4, false⟩,
  ⟨0x40004, 0x2000, 4, 0, 0, 0, 0, 32, false, 0, false⟩,
  ⟨0x40008, 0x2000, 4, 0xFFFFFFFF, 0, 0, 0, 32, false, 0, false⟩,
  ⟨0x4000C, 0x2000, 4, 0xFFFF, 0, 0, 0, 32, false, 0, false⟩,
  ⟨0x40010, 0x2000, 4, 0xFFFFFFFF, 0, 0, 0, 32, false, 0, false⟩,
  ⟨0x40014, 0x2000, 4, 0xFFFFFFFF, 0, 0, 0, 32, false, 0, false⟩,
  ⟨0x40018, 0x2000, 4, 0xFFFFFFFF, 0, 0, 0, 32, false, 0, false⟩,
  ⟨0x4001C, 0x2000, 4, 0xFFFFFFFF, 0, 0, 0, 32, false, 0, false⟩,
  ⟨0x40020, 0x2000, 4, 0xFFFFFFFF, 0, 0, 0, 32, false, 0, false⟩,
  ⟨0x40024, 0x2000, 4, 0xFFFFFFFF, 0, 0, 0, 32, false, 0x1269, false⟩,
  ⟨0x40030, 0x2000, 4, 0xFFF, 0, 0, 0, 32, false, 0, false⟩,
  ⟨0x40034, 0x2000, 4, 0xFFFFFFFF, 0, 0, 0, 32, false, 0, false⟩,
  ⟨0x40038, 0x2000, 4, 0x1FF, 0, 0, 0, 32, false, 0x64, false⟩,
  ⟨0x4003C, 0x2000, 4, 0, 0, 0, 0, 32, false, 0, false⟩,
  ⟨0x40040, 0x4000, 2, 0xFFFFFFFF, 0, 0, 0, 32, false, 0x7D00190, false⟩,
  ⟨0x40044, 0x4000, 2, 0, 0, 0, 0, 32, false, 0, false⟩,
  ⟨0x40100, 0x2000, 4, 0, 0, 0, 0, 32, false, 0, false⟩,
  ⟨0x40104, 0x2000, 4, 0, 0, 0, 0, 32, true, 0, false⟩,
  ⟨0x40108, 0x2000, 4, 0, 0, 0, 0, 32, true, 0, false⟩,
  ⟨0x4010C, 0x2000, 4, 0, 0, 0, 0, 32, true, 0, false⟩,
  ⟨0x40110, 0x2000, 4, 0, 0, 0, 0, 32, true, 0, false⟩,
  ⟨0x40114, 0x2000, 4, 0, 0, 0, 0, 32, true, 0, false⟩,
  ⟨0x40118, 0x2000, 4, 0, 0, 0, 0, 32, true, 0, false⟩,
  ⟨0x4011C, 0x2000, 4, 0, 0, 0, 0, 32, true, 0, false⟩,
  ⟨0x40120, 0x2000, 4, 0, 0, 0, 0, 32, true, 0, false⟩,
  ⟨0x40124, 0x2000, 4, 0, 0, 0, 0, 32, true, 0, false⟩,
  ⟨0x40128, 0x2000, 4, 0, 0, 0, 0, 32, true, 0, false⟩,
  ⟨0x4012C, 0x2000, 4, 0, 0, 0, 0, 32, true, 0, false⟩,
  ⟨0x40130, 0x2000, 4, 0, 0, 0, 0, 32, true, 0, false⟩,
  ⟨0x40134, 0x2000, 4, 0, 0, 0, 0, 32, true, 0, false⟩,
  ⟨0x40138, 0x2000, 4, 0, 0, 0, 0, 32, true, 0, false⟩,
  ⟨0x4013C, 0x2000, 4, 0, 0, 0, 0, 32, true, 0, false⟩,
  ⟨0x40140, 0x2000, 4, 0, 0, 0, 0, 32, false, 0, false⟩,
  ⟨0x40144, 0x2000, 4, 0, 0, 0, 0, 32, false, 0, false⟩,
  ⟨0x40148, 0x2000, 4, 0, 0, 0, 0, 32, false, 0, false⟩,
  ⟨0x60000, 0x0, 1, 0xFF07, 0, 0, 0, 32, false, 0x800, false⟩,
  ⟨0x60004, 0x0, 1, 0, 0, 0, 0, 32, false, 0, false⟩,
  ⟨0x60008, 0x0, 1, 0, 0, 0, 0, 32, false, 0, false⟩]

/-- Rows of the register map, part 4. -/
def regRows3 : List RegRow := [
  ⟨0x6000C, 0x0, 1, 0, 0, 0, 0, 32, false, 0, false⟩,
  ⟨0x60010, 0x0, 1, 0, 0, 0, 0, 32, false, 0, false⟩,
  ⟨0x60014, 0x0, 1, 0, 0, 0, 0, 32, false, 0, false⟩,
  ⟨0x60018, 0x0, 1, 0, 0, 0, 0, 32, false, 0, false⟩,
  ⟨0x6001C, 0x0, 1, 0, 0, 0, 0, 32, false, 0, false⟩,
  ⟨0x60020, 0x0, 1, 0, 0, 0, 0, 32, true, 0, false⟩,
  ⟨0x60024, 0x0, 1, 0, 0, 0, 0, 32, true, 0, false⟩,
  ⟨0x60028, 0x0, 1, 0, 0, 0, 0, 32, false, 0, false⟩,
  ⟨0x60100, 0x4, 256, 0, 0xFFFFFFFF, 0, 0, 32, false, 0, false⟩,
  ⟨0x80000, 0x800, 32, 0, 0, 0, 0, 32, false, 0, false⟩,
  ⟨0x80004, 0x800, 32, 0, 0, 0, 0, 32, false, 0, false⟩,
  ⟨0x80008, 0x800, 32, 0, 0, 0, 0, 32, false, 0, false⟩,
  ⟨0x8000C, 0x800, 32, 0, 0, 0, 0, 32, false, 0, false⟩,
  ⟨0x80010, 0x800, 32, 0, 0, 0, 0, 32, false, 0, false⟩,
  ⟨0x80014, 0x800, 32, 0, 0, 0, 0, 32, true, 0, false⟩,
  ⟨0x80018, 0x800, 32, 0, 0, 0, 0, 32, true, 0, false⟩,
  ⟨0x8001C, 0x800, 32, 0, 0, 0, 0, 32, true, 0, false⟩,
  ⟨0x80020, 0x800, 32, 0, 0, 0, 0, 32, true, 0, false⟩,
  ⟨0x80024, 0x800, 32, 0, 0, 0, 0, 32, true, 0, false⟩,
  ⟨0x80028, 0x800, 32, 0, 0, 0, 0, 32, true, 0, false⟩,
  ⟨0x8002C, 0x800, 32, 0, 0, 0, 0, 32, true, 0, false⟩,
  ⟨0x80030, 0x800, 32, 0, 0, 0, 0, 32, true, 0, false⟩,
  ⟨0x80034, 0x800, 32, 0, 0, 0, 0, 32, true, 0, false⟩,
  ⟨0x80038, 0x800, 32, 0, 0, 0, 0, 32, true, 0, false⟩,
  ⟨0x90000, 0x0, 1, 0xFFF1F, 0, 0, 0, 32, false, 0x40A02, true⟩,
  ⟨0x90004, 0x0, 1, 0xFFFFFFFF, 0, 0, 0, 32, false, 0x3E807D0, true⟩,
  ⟨0x90008, 0x0, 1, 0x1FFF, 0, 0, 0, 32, false, 0, true⟩,
  ⟨0x9000C, 0x0, 1, 0, 0, 0, 0, 32, false, 0, false⟩,
  ⟨0x90010, 0x0, 1, 0, 0, 0, 0, 32, false, 0, false⟩,
  ⟨0x90014, 0x0, 1, 0, 0xFFFFFFFF, 0, 0, 32, false, 0, false⟩,
  ⟨0x90018, 0x0, 1, 0, 0, 0, 0, 32, false, 0, false⟩,
  ⟨0x9001C, 0x0, 1, 0, 0, 0, 0, 32, false, 0, false⟩,
  ⟨0x90020, 0x0, 1, 0, 0, 0, 0, 32, true, 0, false⟩,
  ⟨0x90024, 0x0, 1, 0, 0, 0, 0, 32, true, 0, false⟩,
  ⟨0x90040, 0x4, 12, 0, 0, 0, 0, 32, false, 0, false⟩,
  ⟨0xA0000, 0x0, 1, 0x7F, 0, 0, 0, 32, false, 0, false⟩,
  ⟨0xA0004, 0x0, 1, 0, 0, 0, 0, 32, false, 0, false⟩,
  ⟨0xA0008, 0x0, 1, 0, 0, 0, 0, 32, false, 0, false⟩,
  ⟨0xA000C, 0x0, 1, 0, 0, 0, 0, 32, true, 0, false⟩,
  ⟨0xA0010, 0x0, 1, 0, 0, 0, 0, 32, false, 0, false⟩]

/-- Rows of the register map, part 5. -/
def regRows4 : List RegRow := [
  ⟨0xA0014, 0x0, 1, 0, 0, 0, 0, 32, true, 0, false⟩,
  ⟨0xA0018, 0x0, 1, 0, 0, 0, 0, 32, false, 0, false⟩,
  ⟨0xA001C, 0x0, 1, 0, 0, 0, 0, 32, true, 0, false⟩,
  ⟨0xA0020, 0x0, 1, 0, 0, 0, 0, 32, false, 0, false⟩,
  ⟨0xA0024, 0x0, 1, 0, 0, 0, 0, 32, false, 0, false⟩,
  ⟨0xA0028, 0x0, 1, 0, 0, 0, 0, 32, false, 0, false⟩,
  ⟨0xA002C, 0x0, 1, 0, 0, 0, 0, 32, true, 0, false⟩,
  ⟨0xA0030, 0x0, 1, 0, 0, 0, 0, 32, false, 0x1F4, false⟩,
  ⟨0xA0040, 0x4, 16, 0, 0, 0, 0, 32, false, 0, false⟩,
  ⟨0xA0080, 0x4, 16, 0, 0, 0, 0, 32, false, 0, false⟩,
  ⟨0xB0000, 0x0, 1, 0xFF03, 0, 0, 0, 32, false, 0xA00, false⟩,
  ⟨0xB0004, 0x0, 1, 0, 0, 0, 0, 32, false, 0, false⟩,
  ⟨0xB0008, 0x0, 1, 0, 0x1F, 0, 0, 32, false, 0, false⟩,
  ⟨0xB000C, 0x0, 1, 0xFFFFFF03, 0, 0, 0, 32, false, 0x3E80200, false⟩,
  ⟨0xB0010, 0x0, 1, 0, 0, 0, 0, 32, false, 0, false⟩,
  ⟨0xB0014, 0x0, 1, 0, 0, 0, 0, 32, false, 0, false⟩,
  ⟨0xB0018, 0x0, 1, 0x7F01, 0, 0, 0, 32, false, 0, false⟩,
  ⟨0xB001C, 0x0, 1, 0, 0, 0, 0, 32, true, 0, false⟩,
  ⟨0xB0020, 0x0, 1, 0, 0, 0, 0, 32, false, 0, false⟩,
  ⟨0xB0024, 0x0, 1, 0, 0, 0, 0, 32, true, 0, false⟩,
  ⟨0xB0028, 0x0, 1, 0, 0, 0, 0, 32, true, 0, false⟩,
  ⟨0xB002C, 0x0, 1, 0, 0, 0, 0, 32, false, 0, false⟩,
  ⟨0xB0030, 0x0, 1, 0, 0, 0, 0, 32, true, 0, false⟩,
  ⟨0xB0034, 0x0, 1, 0, 0, 0, 0, 32, true, 0, false⟩,
  ⟨0xB0038, 0x0, 1, 0, 0, 0, 0, 32, true, 0, false⟩,
  ⟨0xB003C, 0x0, 1, 0, 0, 0, 0, 32, false, 0, false⟩,
  ⟨0xB0040, 0x0, 1, 0, 0, 0, 0, 32, false, 0, false⟩,
  ⟨0xB0044, 0x0, 1, 0, 0, 0, 0, 32, false, 0, false⟩,
  ⟨0xB0048, 0x0, 1, 0, 0, 0, 0, 32, false, 0, false⟩,
  ⟨0xB004C, 0x0, 1, 0, 0, 0, 0, 32, false, 0, false⟩,
  ⟨0xB0050, 0x0, 1, 0, 0, 0, 0, 32, false, 0, false⟩,
  ⟨0xB0054, 0x0, 1, 0, 0, 0, 0, 32, false, 0, false⟩,
  ⟨0xB0060, 0x0, 1, 0xFFFF, 0, 0, 0, 32, false, 0, false⟩,
  ⟨0xB0100, 0x10, 8, 0xFF1F, 0, 0, 0, 32, false, 0xA00, false⟩,
  ⟨0xB0104, 0x10, 8, 0, 0x8, 0, 0, 32, false, 0, false⟩,
  ⟨0xB1000, 0x4, 128, 0, 0, 0, 0, 32, false, 0, false⟩,
  ⟨0xB1200, 0x4, 128, 0, 0, 0, 0, 32, false, 0, false⟩,
  ⟨0xB1400, 0x4, 128, 0, 0, 0, 0, 32, false, 0, false⟩,
  ⟨0xB1600, 0x4, 128, 0, 0, 0, 0, 32, false, 0, false⟩,
  ⟨0xB1800, 0x0, 1, 0, 0, 0, 0, 32, false, 0, false⟩]

/-- Rows of the register map, part 6. -/
def regRows5 : List RegRow := [
  ⟨0xB1804, 0x0, 1, 0, 0, 0, 0, 32, false, 0, false⟩,
  ⟨0xB1808, 0x0, 1, 0, 0, 0, 0, 32, false, 0, false⟩,
  ⟨0xC0000, 0x0, 1, 0xFF3F3F, 0, 0, 0, 32, false, 0x50001, false⟩,
  ⟨0xC0004, 0x0, 1, 0, 0, 0, 0, 32, false, 0, false⟩,
  ⟨0xC0008, 0x0, 1, 0, 0x3F, 0, 0, 32, false, 0, false⟩,
  ⟨0xC000C, 0x0, 1, 0xFFFFF7FF, 0, 0, 0, 32, false, 0x8184012C, false⟩,
  ⟨0xC0010, 0x0, 1, 0x7FF07FF, 0, 0, 0, 32, false, 0x3C0064, false⟩,
  ⟨0xC0014, 0x0, 1, 0xFFF03FF, 0, 0, 0, 32, false, 0x30D003C, false⟩,
  ⟨0xC0018, 0x0, 1, 0xFFFF, 0, 0, 0, 32, false, 0x1E05, false⟩,
  ⟨0xC001C, 0x0, 1, 0xFFFFFF3F, 0, 0, 0, 32, false, 0x3F00320A, false⟩,
  ⟨0xC0020, 0x0, 1, 0xFFFF, 0, 0, 0, 32, false, 0x5A02, false⟩,
  ⟨0xC0024, 0x0, 1, 0, 0, 0, 0, 32, false, 0, false⟩,
  ⟨0xC0028, 0x0, 1, 0, 0, 0, 0, 32, false, 0, false⟩,
  ⟨0xC002C, 0x0, 1, 0, 0, 0, 0, 32, false, 0, false⟩,
  ⟨0xC0030, 0x0, 1, 0, 0, 0, 0, 32, false, 0, false⟩,
  ⟨0xC0034, 0x0, 1, 0, 0, 0, 0, 32, false, 0, false⟩,
  ⟨0xC0038, 0x0, 1, 0, 0, 0, 0, 32, false, 0, false⟩,
  ⟨0xC003C, 0x0, 1, 0, 0, 0, 0, 32, false, 0, false⟩,
  ⟨0xC0040, 0x0, 1, 0, 0, 0, 0, 32, false, 0, false⟩,
  ⟨0xC0044, 0x0, 1, 0, 0, 0, 0, 32, true, 0, false⟩,
  ⟨0xC0048, 0x0, 1, 0, 0, 0, 0, 32, true, 0, false⟩,
  ⟨0xC004C, 0x0, 1, 0, 0, 0, 0, 32, false, 0, false⟩,
  ⟨0xC0050, 0x0, 1, 0, 0, 0, 0, 32, false, 0, false⟩,
  ⟨0xC0054, 0x0, 1, 0, 0, 0, 0, 32, false, 0xFFFF, false⟩,
  ⟨0xC0058, 0x0, 1, 0x3F, 0, 0, 0, 32, false, 0, false⟩,
  ⟨0xC005C, 0x0, 1, 0x7, 0, 0, 0, 32, false, 0, false⟩,
  ⟨0xC0060, 0x0, 1, 0, 0, 0, 0, 32, true, 0, false⟩,
  ⟨0xC0064, 0x0, 1, 0, 0, 0, 0, 32, true, 0, false⟩,
  ⟨0xD0000, 0x0, 1, 0x7F01, 0, 0, 0, 32, false, 0, false⟩,
  ⟨0xD0004, 0x0, 1, 0, 0, 0, 0, 32, false, 0, false⟩,
  ⟨0xD0008, 0x0, 1, 0, 0xF, 0, 0, 32, false, 0, false⟩,
  ⟨0xD000C, 0x0, 1, 0, 0, 0, 0, 32, false, 0, false⟩,
  ⟨0xD0010, 0x0, 1, 0, 0, 0, 0, 32, true, 0, false⟩,
  ⟨0xD0014, 0x0, 1, 0, 0, 0, 0, 32, false, 0, false⟩,
  ⟨0xD0100, 0x40, 16, 0, 0, 0, 0, 32, false, 0, false⟩,
  ⟨0xD0104, 0x40, 16, 0, 0, 0, 0, 32, true, 0, false⟩,
  ⟨0xD0108, 0x40, 16, 0, 0, 0, 0, 32, false, 0, false⟩,
  ⟨0xD010C, 0x40, 16, 0, 0, 0, 0, 32, false, 0, false⟩,
  ⟨0xD0110, 0x40, 16, 0, 0, 0, 0, 32, false, 0, false⟩,
  ⟨0xD0114, 0x40, 16, 0, 0, 0, 0, 32, false, 0, false⟩]

/-- Rows of the register map, part 7. -/
def regRows6 : List RegRow := [
  ⟨0xD0118, 0x40, 16, 0, 0, 0, 0, 32, true, 0, false⟩,
  ⟨0xD011C, 0x40, 16, 0, 0, 0, 0, 32, true, 0, false⟩,
  ⟨0xD0120, 0x40, 16, 0, 0, 0, 0, 32, false, 0, false⟩,
  ⟨0xE0000, 0x0, 1, 0, 0, 0, 0, 32, false, 0, false⟩,
  ⟨0xE0004, 0x0, 1, 0, 0x7, 0, 0, 32, false, 0, false⟩,
  ⟨0xE0008, 0x0, 1, 0, 0, 0, 0, 32, false, 0, false⟩,
  ⟨0xE000C, 0x0, 1, 0, 0, 0, 0, 32, false, 0, false⟩,
  ⟨0xE0010, 0x0, 1, 0, 0, 0, 0, 32, false, 0, false⟩,
  ⟨0xE0014, 0x0, 1, 0, 0, 0, 0, 32, false, 0, false⟩,
  ⟨0xE0018, 0x0, 1, 0, 0, 0, 0, 32, false, 0, false⟩,
  ⟨0xE001C, 0x0, 1, 0, 0, 0, 0, 32, true, 0, false⟩,
  ⟨0xE0020, 0x0, 1, 0, 0, 0, 0, 32, true, 0, false⟩,
  ⟨0xE0024, 0x0, 1, 0, 0, 0, 0, 32, true, 0, false⟩,
  ⟨0xE0028, 0x0, 1, 0, 0, 0, 0, 32, true, 0, false⟩,
  ⟨0xE0100, 0x10, 4, 0, 0, 0, 0, 32, false, 0, false⟩,
  ⟨0xE0104, 0x10, 4, 0, 0, 0, 0, 32, false, 0, false⟩,
  ⟨0xF0000, 0x0, 1, 0x1, 0, 0, 0, 32, false, 0x1, false⟩,
  ⟨0xF0004, 0x0, 1, 0, 0, 0, 0, 32, false, 0, false⟩,
  ⟨0xF0008, 0x0, 1, 0, 0x1, 0, 0, 32, false, 0, false⟩,
  ⟨0xF000C, 0x0, 1, 0, 0, 0, 0, 32, false, 0, false⟩,
  ⟨0xF0010, 0x0, 1, 0, 0, 0, 0, 32, false, 0, false⟩,
  ⟨0xF0014, 0x0, 1, 0, 0, 0, 0, 32, true, 0, false⟩,
  ⟨0xF0018, 0x0, 1, 0, 0, 0, 0, 32, false, 0, false⟩,
  ⟨0xF001C, 0x0, 1, 0, 0, 0, 0, 32, true, 0, false⟩,
  ⟨0xF0020, 0x0, 1, 0xFFFFFFF, 0, 0, 0, 32, false, 0xC1, false⟩,
  ⟨0xF0024, 0x0, 1, 0xFFFFFFFF, 0, 0, 0, 32, false, 0xCD010000, false⟩,
  ⟨0xF0028, 0x0, 1, 0xFFFF, 0, 0, 0, 32, false, 0x10C, false⟩,
  ⟨0xF002C, 0x0, 1, 0xFFFF, 0, 0, 0, 32, false, 0x1, false⟩,
  ⟨0xF0030, 0x0, 1, 0xFFFFFFFF, 0, 0, 0, 32, false, 0x1, false⟩,
  ⟨0xF0034, 0x4, 4, 0xFFFFFFFF, 0, 0, 0, 32, false, 0, false⟩,
  ⟨0xF0044, 0x0, 1, 0xFFFFFF01, 0, 0, 0, 32, false, 0x661000, false⟩,
  ⟨0xF0100, 0x4, 48, 0xFFFFFFFF, 0, 0, 0, 32, false, 0, false⟩,
  ⟨0x100000, 0x0, 1, 0xFFFFFF03, 0, 0, 0, 32, false, 0x88B50A00, false⟩,
  ⟨0x100004, 0x0, 1, 0, 0, 0, 0x1FF01FF, 4, false, 0, false⟩,
  ⟨0x100008, 0x0, 1, 0xFF01FF01, 0, 0, 0, 32, false, 0, false⟩,
  ⟨0x10000C, 0x0, 1, 0xFFFFFFFF, 0, 0, 0, 32, false, 0, false⟩,
  ⟨0x100010, 0x0, 1, 0x3FF, 0, 0, 0, 32, false, 0xC8, false⟩,
  ⟨0x100014, 0x0, 1, 0, 0, 0, 0, 32, false, 0, false⟩,
  ⟨0x100018, 0x0, 1, 0, 0x1F, 0, 0, 32, false, 0, false⟩,
  ⟨0x10001C, 0x0, 1, 0, 0, 0, 0, 32, false, 0, false⟩]

/-- Rows of the register map, part 8. -/
def regRows7 : List RegRow := [
  ⟨0x100020, 0x0, 1, 0xFF01FF03, 0, 0, 0, 32, false, 0, true⟩,
  ⟨0x100024, 0x0, 1, 0xFFFFFFFF, 0, 0, 0, 32, false, 0xA0A01F4, false⟩,
  ⟨0x100028, 0x0, 1, 0, 0, 0, 0, 32, false, 0, false⟩,
  ⟨0x10002C, 0x0, 1, 0, 0, 0, 0, 32, false, 0, false⟩,
  ⟨0x100030, 0x0, 1, 0, 0, 0, 0, 32, false, 0, false⟩,
  ⟨0x100100, 0x40, 2, 0x1, 0, 0, 0, 32, false, 0, false⟩,
  ⟨0x100104, 0x40, 2, 0xFFFFFFFF, 0, 0, 0, 32, false, 0, false⟩,
  ⟨0x100108, 0x40, 2, 0xFFFF, 0, 0, 0, 32, false, 0, false⟩,
  ⟨0x10010C, 0x40, 2, 0, 0, 0, 0, 32, false, 0, false⟩,
  ⟨0x100110, 0x40, 2, 0, 0, 0, 0, 32, true, 0, false⟩,
  ⟨0x100114, 0x40, 2, 0, 0, 0, 0, 32, true, 0, false⟩,
  ⟨0x100118, 0x40, 2, 0, 0, 0, 0, 32, true, 0, false⟩,
  ⟨0x10011C, 0x40, 2, 0, 0, 0, 0, 32, true, 0, false⟩,
  ⟨0x100120, 0x40, 2, 0, 0, 0, 0, 32, false, 0, false⟩,
  ⟨0x110000, 0x0, 1, 0x3F0F, 0, 0, 0, 32, false, 0, true⟩,
  ⟨0x110004, 0x0, 1, 0xFFFFFFFF, 0, 0, 0, 32, false, 0, true⟩,
  ⟨0x110008, 0x0, 1, 0xFFFFFFFF, 0, 0, 0, 32, false, 0, false⟩,
  ⟨0x11000C, 0x0, 1, 0xFFFFFFFF, 0, 0, 0, 32, false, 0, false⟩,
  ⟨0x110010, 0x0, 1, 0xFFF03FF, 0, 0, 0, 32, false, 0x80064, false⟩,
  ⟨0x110014, 0x0, 1, 0xFF7FF1, 0, 0, 0, 32, false, 0xAB4531, false⟩,
  ⟨0x110018, 0x0, 1, 0xFFFFFFFF, 0, 0, 0, 32, false, 0xA003E8, false⟩,
  ⟨0x11001C, 0x0, 1, 0xFFFF, 0, 0, 0, 32, false, 0x3E8, false⟩,
  ⟨0x110020, 0x0, 1, 0xFFFF3FFF, 0, 0, 0, 32, false, 0x63E803E8, false⟩,
  ⟨0x110024, 0x0, 1, 0xFFFF01, 0, 0, 0, 32, false, 0x1, false⟩,
  ⟨0x110028, 0x0, 1, 0xFF0F, 0, 0, 0, 32, false, 0x1E08, false⟩,
  ⟨0x11002C, 0x0, 1, 0xFFFF, 0, 0, 0, 32, false, 0x64, false⟩,
  ⟨0x110030, 0x0, 1, 0xFFFFFF, 0, 0, 0, 32, false, 0, false⟩,
  ⟨0x110034, 0x0, 1, 0xFF3F, 0, 0, 0, 32, false, 0x204, false⟩,
  ⟨0x110038, 0x0, 1, 0xFFFFFF, 0, 0, 0, 32, false, 0, false⟩,
  ⟨0x11003C, 0x0, 1, 0, 0, 0, 0, 32, true, 0, false⟩,
  ⟨0x110040, 0x0, 1, 0, 0xF, 0, 0, 32, false, 0, false⟩,
  ⟨0x110044, 0x0, 1, 0, 0, 0, 0, 32, false, 0, false⟩,
  ⟨0x110048, 0x0, 1, 0, 0, 0, 0, 32, false, 0, false⟩,
  ⟨0x11004C, 0x0, 1, 0, 0, 0, 0, 32, false, 0, false⟩,
  ⟨0x110050, 0x0, 1, 0, 0, 0, 0, 32, false, 0, false⟩,
  ⟨0x110054, 0x0, 1, 0, 0, 0, 0, 32, false, 0, false⟩,
  ⟨0x110060, 0x0, 1, 0, 0, 0, 0, 32, false, 0, false⟩,
  ⟨0x110064, 0x0, 1, 0, 0, 0, 0, 32, false, 0, false⟩,
  ⟨0x110068, 0x0, 1, 0, 0, 0, 0, 32, true, 0, false⟩,
  ⟨0x11006C, 0x0, 1, 0, 0, 0, 0, 32, true, 0, false⟩]

/-- Rows of the register map, part 9. -/
def regRows8 : List RegRow := [
  ⟨0x110070, 0x0, 1, 0, 0, 0, 0, 32, true, 0, false⟩,
  ⟨0x110074, 0x0, 1, 0, 0, 0, 0, 32, true, 0, false⟩,
  ⟨0x110078, 0x0, 1, 0, 0, 0, 0, 32, true, 0, false⟩,
  ⟨0x11007C, 0x0, 1, 0, 0, 0, 0, 32, true, 0, false⟩,
  ⟨0x110080, 0x0, 1, 0, 0, 0, 0, 32, true, 0, false⟩,
  ⟨0x110084, 0x0, 1, 0, 0, 0, 0, 32, true, 0, false⟩,
  ⟨0x110088, 0x0, 1, 0, 0, 0, 0, 32, true, 0, false⟩,
  ⟨0x11008C, 0x0, 1, 0, 0, 0, 0, 32, true, 0, false⟩,
  ⟨0x110090, 0x0, 1, 0, 0, 0, 0, 32, true, 0, false⟩,
  ⟨0x110094, 0x0, 1, 0, 0, 0, 0, 32, true, 0, false⟩,
  ⟨0x110098, 0x0, 1, 0, 0, 0, 0, 32, true, 0, false⟩,
  ⟨0x11009C, 0x0, 1, 0, 0, 0, 0, 32, true, 0, false⟩,
  ⟨0x1100A0, 0x0, 1, 0, 0, 0, 0, 32, true, 0, false⟩,
  ⟨0x1100A4, 0x0, 1, 0, 0, 0, 0, 32, true, 0, false⟩,
  ⟨0x110100, 0x4, 64, 0, 0xFFFFFFFF, 0, 0, 32, false, 0, false⟩,
  ⟨0x120000, 0x0, 1, 0x1, 0, 0, 0, 32, false, 0, false⟩,
  ⟨0x120004, 0x0, 1, 0, 0, 0, 0, 32, false, 0, false⟩,
  ⟨0x120008, 0x0, 1, 0, 0xF, 0, 0, 32, false, 0, false⟩,
  ⟨0x12000C, 0x0, 1, 0x3FF, 0, 0, 0, 32, false, 0xA, false⟩,
  ⟨0x120010, 0x0, 1, 0, 0, 0, 0, 32, false, 0, false⟩,
  ⟨0x120014, 0x0, 1, 0xFFFFF000, 0, 0, 0, 32, false, 0, false⟩,
  ⟨0x120018, 0x0, 1, 0xFFFFFFFF, 0, 0, 0, 32, false, 0, false⟩,
  ⟨0x12001C, 0x0, 1, 0, 0, 0, 0, 32, false, 0, false⟩,
  ⟨0x120020, 0x0, 1, 0, 0, 0, 0, 32, true, 0, false⟩,
  ⟨0x120024, 0x0, 1, 0, 0, 0, 0, 32, false, 0, false⟩,
  ⟨0x120028, 0x0, 1, 0xFFF3F03, 0, 0, 0, 32, false, 0, false⟩,
  ⟨0x121000, 0x20, 128, 0xFFFFF000, 0, 0, 0, 32, false, 0, false⟩,
  ⟨0x121004, 0x20, 128, 0xFFFFFFFF, 0, 0, 0, 32, false, 0, false⟩,
  ⟨0x121008, 0x20, 64, 0xFFFFFF1F, 0, 0, 0xE0, 0, false, 0, false⟩,
  ⟨0x121808, 0x20, 64, 0xFFFF801F, 0, 0, 0xE0, 0, false, 0x80000, false⟩,
  ⟨0x12100C, 0x20, 128, 0, 0, 0, 0, 32, false, 0, false⟩,
  ⟨0x121010, 0x20, 128, 0, 0, 0, 0, 32, false, 0, false⟩,
  ⟨0x121014, 0x20, 128, 0, 0, 0, 0, 32, false, 0, false⟩,
  ⟨0x121018, 0x20, 128, 0, 0, 0, 0, 32, true, 0, false⟩,
  ⟨0x130000, 0x40, 64, 0x1FFFFF03, 0, 0, 0, 32, false, 0, false⟩,
  ⟨0x130004, 0x40, 64, 0xFFFFF000, 0, 0, 0, 32, false, 0, false⟩,
  ⟨0x130008, 0x40, 64, 0xFFFFFFFF, 0, 0, 0, 32, false, 0, false⟩,
  ⟨0x13000C, 0x40, 64, 0x1F, 0, 0, 0, 32, false, 0xF, false⟩,
  ⟨0x130010, 0x40, 64, 0, 0, 0, 0, 32, false, 0, false⟩,
  ⟨0x130014, 0x40, 64, 0, 0, 0, 0, 32, false, 0, false⟩]

/-- Rows of the register map, part 10. -/
def regRows9 : List RegRow := [
  ⟨0x130018, 0x40, 64, 0, 0, 0, 0, 32, true, 0, false⟩,
  ⟨0x13001C, 0x40, 64, 0, 0, 0, 0, 32, true, 0, false⟩,
  ⟨0x130020, 0x40, 64, 0, 0, 0, 0, 32, true, 0, false⟩,
  ⟨0x130024, 0x40, 64, 0, 0, 0, 0, 32, true, 0, false⟩,
  ⟨0x130028, 0x40, 64, 0, 0, 0, 0, 32, true, 0, false⟩,
  ⟨0x13002C, 0x40, 64, 0, 0, 0, 0, 32, false, 0, false⟩,
  ⟨0x130030, 0x40, 64, 0, 0, 0, 0, 32, true, 0, false⟩,
  ⟨0x130034, 0x40, 64, 0, 0, 0, 0, 32, false, 0, false⟩,
  ⟨0x131000, 0x0, 1, 0x1F, 0, 0, 0, 32, false, 0x2, false⟩,
  ⟨0x140000, 0x0, 1, 0, 0, 0, 0, 32, false, 0, false⟩,
  ⟨0x140004, 0x0, 1, 0, 0x7, 0, 0, 32, false, 0, false⟩,
  ⟨0x140008, 0x0, 1, 0, 0, 0, 0, 32, false, 0, false⟩,
  ⟨0x14000C, 0x0, 1, 0, 0, 0, 0, 32, false, 0, false⟩,
  ⟨0x140010, 0x0, 1, 0, 0, 0, 0, 32, false, 0, false⟩,
  ⟨0x140014, 0x0, 1, 0, 0, 0, 0, 32, false, 0, false⟩,
  ⟨0x140018, 0x0, 1, 0, 0, 0, 0, 32, false, 0, false⟩,
  ⟨0x140020, 0x4, 16, 0, 0, 0, 0, 32, false, 0, false⟩,
  ⟨0x140060, 0x0, 1, 0, 0, 0, 0, 32, false, 0, false⟩,
  ⟨0x140064, 0x4, 8, 0, 0, 0, 0, 32, false, 0, false⟩,
  ⟨0x150000, 0x0, 1, 0, 0, 0, 0, 32, false, 0, false⟩,
  ⟨0x150004, 0x0, 1, 0, 0, 0, 0, 32, false, 0, false⟩,
  ⟨0x150008, 0x0, 1, 0, 0, 0, 0xB, 1, false, 0x8, false⟩,
  ⟨0x15000C, 0x0, 1, 0, 0, 0, 0, 32, false, 0, false⟩,
  ⟨0x150010, 0x0, 1, 0, 0, 0, 0, 32, false, 0, false⟩,
  ⟨0x150014, 0x0, 1, 0, 0, 0, 0, 32, false, 0, false⟩,
  ⟨0x150018, 0x0, 1, 0, 0, 0, 0, 32, false, 0, false⟩,
  ⟨0x15001C, 0x0, 1, 0, 0, 0, 0, 32, false, 0, false⟩,
  ⟨0x150020, 0x0, 1, 0, 0, 0, 0, 32, true, 0, false⟩,
  ⟨0x150024, 0x0, 1, 0, 0, 0, 0, 32, true, 0, false⟩,
  ⟨0x150040, 0x4, 8, 0, 0, 0, 0, 32, false, 0, false⟩,
  ⟨0x160000, 0x0, 1, 0x1, 0, 0, 0, 32, false, 0, false⟩,
  ⟨0x160004, 0x0, 1, 0, 0, 0, 0, 32, false, 0, false⟩,
  ⟨0x160008, 0x0, 1, 0, 0, 0, 0, 32, false, 0, false⟩,
  ⟨0x16000C, 0x0, 1, 0, 0, 0, 0, 32, false, 0, false⟩,
  ⟨0x160010, 0x4, 3, 0, 0, 0, 0, 32, false, 0, false⟩,
  ⟨0x16001C, 0x4, 3, 0, 0, 0, 0, 32, false, 0, false⟩,
  ⟨0x160028, 0x0, 1, 0xFFFFFFFF, 0, 0, 0, 32, false, 0, false⟩,
  ⟨0x16002C, 0x0, 1, 0xFFFFFFFF, 0, 0, 0, 32, false, 0, false⟩,
  ⟨0x160030, 0x0, 1, 0xFFFF, 0, 0, 0, 32, false, 0, false⟩,
  ⟨0x160034, 0x0, 1, 0, 0, 0, 0, 32, false, 0, false⟩]

/-- Rows of the register map, part 11. -/
def regRows10 : List RegRow := [
  ⟨0x160040, 0x4, 8, 0, 0, 0, 0, 32, false, 0, false⟩,
  ⟨0x160060, 0x0, 1, 0, 0, 0, 0, 32, true, 0, false⟩,
  ⟨0x160064, 0x0, 1, 0, 0, 0, 0, 32, true, 0, false⟩,
  ⟨0x160068, 0x0, 1, 0, 0, 0, 0, 32, false, 0, false⟩,
  ⟨0x16006C, 0x0, 1, 0, 0, 0, 0, 32, false, 0, false⟩,
  ⟨0x160080, 0x4, 8, 0, 0, 0, 0, 32, false, 0, false⟩,
  ⟨0x160400, 0x4, 256, 0, 0, 0, 0xFFFFFF, 3, false, 0, false⟩,
  ⟨0x170000, 0x0, 1, 0, 0, 0, 0, 32, false, 0, false⟩,
  ⟨0x170004, 0x0, 1, 0, 0, 0, 0, 32, false, 0, false⟩,
  ⟨0x170008, 0x0, 1, 0, 0, 0, 0, 32, true, 0, false⟩,
  ⟨0x17000C, 0x0, 1, 0, 0, 0, 0, 32, true, 0, false⟩,
  ⟨0x170010, 0x0, 1, 0, 0, 0, 0, 32, false, 0, false⟩,
  ⟨0x170014, 0x0, 1, 0, 0, 0, 0, 32, false, 0, false⟩,
  ⟨0x170018, 0x0, 1, 0x1FF, 0, 0, 0, 32, false, 0x118, false⟩,
  ⟨0x17001C, 0x0, 1, 0, 0, 0, 0, 32, false, 0, false⟩]

/-- Every register of BAR0 (Table 16.1). -/
def regRows : List RegRow :=
  regRows0 ++ regRows1 ++ regRows2 ++ regRows3 ++ regRows4 ++ regRows5 ++ regRows6 ++ regRows7 ++ regRows8 ++ regRows9 ++ regRows10

/-- The row an offset belongs to. -/
def regRow? (off : Nat) : Option RegRow := regRows.find? (fun r => r.has off)

/-- Default buckets of Table 15.3: `DEPTH | REFILL_MS << 8`; 0 for a code without a bucket. -/
def plgRateDefault (code : Nat) : Nat :=
  let mk (d ms : Nat) : Nat := d + ms * 256
  if code ∈ [0x01, 0x04, 0x05, 0x23, 0x24, 0x27, 0x30, 0x31, 0x35] then mk 8 1000
  else if code ∈ [0x02, 0x03] then mk 16 1000
  else if code = 0x10 then mk 32 100
  else if code ∈ [0x11, 0x12] then mk 8 100
  else if code ∈ [0x13, 0x21] then mk 16 100
  else if code ∈ [0x14, 0x15, 0x18, 0x20, 0x22, 0x25, 0x26, 0x32, 0x33, 0x34] then mk 4 1000
  else if code = 0x16 then mk 8 1000
  else if code = 0x17 then mk 1 10000
  else 0

/-- The value a register holds after power-on reset when nothing has been written to it. -/
def porOf (off : Nat) : Word :=
  if 0x160400 ≤ off ∧ off < 0x160800 ∧ off % 4 = 0 then BitVec.ofNat 32 (plgRateDefault ((off - 0x160400) / 4))
  else match regRow? off with
    | some r => BitVec.ofNat 32 r.por
    | none => 0

end Sys2Proof.Machine
end

