-- ==== Sys2Proof/Machine/Device.lean ====
section
/-! DEFINITION. The pieces of state the spec gives the machine, unit by unit, as plain data: `Fuse` (fixed at
manufacture), `Nv` (MRAM and OTP), `Bd` (the backup domain) and `Dev` (the main domain). -/

namespace Sys2Proof.Machine

/-! ### Fixed at manufacture, non-volatile memory and the backup domain -/

/-- The orderable parts (Table 0.1). -/
inductive Part where
  | aq9124 | aq9116 | aq9108
  deriving DecidableEq, Repr

/-- What is fused at manufacture (R2, R487). -/
structure Fuse where
  part   : Part
  serial : Nat
  lot    : Word
  die    : Word
  mac    : Nat
  eui    : Nat
  deriving DecidableEq, Repr

/-- The operating states (Table 1.7). -/
inductive OpState where
  | off | backup | boot | config | run | degraded | safe | holdup
  deriving DecidableEq, Repr

/-- The life-cycle states (Table 13.9). -/
inductive LifeCycle where
  | blank | provisioned | field | ret | scrap
  deriving DecidableEq, Repr

/-- A key with its attributes (Table 13.3). `key` is the key material; no command returns it (R400). -/
structure KeyRec where
  copy    : Bool
  typ     : Nat
  origin  : Nat
  usage   : Nat
  keyId   : Word
  gen     : Word
  kcv     : Nat
  instMs  : Nat
  instPcc : Nat
  hostTag : Word
  key     : Nat
  deriving DecidableEq, Repr

/-- The two MRAM copies of a slot (R406). -/
structure KeyCopies where
  c0 : Option KeyRec
  c1 : Option KeyRec
  deriving DecidableEq, Repr

/-- A proof log record before its partition adds its number (Table 15.1). -/
structure LogRec where
  code    : Nat
  summary : Bool
  late    : Bool
  pcc     : Nat
  ms      : Nat
  p       : List Word
  deriving DecidableEq, Repr

/-- A committed record; `damaged` when its slot holds `COMMIT` = 1 with a wrong CRC (R476). -/
structure Committed where
  num     : Nat
  recd    : LogRec
  damaged : Bool
  deriving DecidableEq, Repr

/-- One partition of the proof log: records held oldest first, the next number, the slot the next record goes to, the
bad slots (R475), and the number the oldest record held starts from. -/
structure Partition where
  recs   : List Committed
  next   : Nat
  oldest : Nat
  slot   : Nat
  bad    : List Nat
  deriving DecidableEq, Repr

/-- MRAM and OTP: what survives the loss of every supply. -/
structure Nv where
  pcc       : Nat
  lc        : LifeCycle
  updCtr    : Nat
  authKey   : Option Nat
  debugNext : Bool
  helperOk  : Bool
  vaultGen  : Word
  importCtr : Nat
  bootSvn   : Nat
  certLen   : Nat
  store     : KMap KeyCopies
  gens      : KMap Word
  gen       : Partition
  sec       : Partition
  digest    : Nat
  wrapped   : Bool
  hopCtr    : Nat
  deriving DecidableEq, Repr

/-- The backup domain (R397, R443): `root` is none when the vault is zeroed; `journal` lists the slots whose journal
bit is 1; `rtcNs` is the backup real-time counter, a TAI nanosecond count. -/
structure Bd where
  root      : Option Nat
  journal   : List Nat
  causes    : Nat
  count     : Nat
  backup    : Bool
  time      : Nat
  logged    : Bool
  pcc       : Nat
  rtcNs     : Nat
  holdup    : Bool
  srcEn     : Word
  onVbat    : Bool
  deriving DecidableEq, Repr

/-! ### What leaves the device -/

/-- Where a frame waits on a port (R100). -/
inductive TxQueue where
  | express | preempt
  deriving DecidableEq, Repr

/-- One member of a set image (R140, Table 12.14): its state (Table 4.3), mask bit, message time quality, STAT, arrival
time in ns of derived time, and values. -/
structure ImgMember where
  idx     : Nat
  st      : Nat
  mask    : Bool
  mtq     : Nat
  stat    : BitVec 16
  arrival : Option Int
  pay     : Option Payload
  deriving DecidableEq, Repr

/-- The alarm dataset (Table 6.10). `raised` and `asserted` list rule indices. -/
structure AlarmMsg where
  slotTick   : Int
  msgTq      : Nat
  rateCode   : Nat
  epoch      : Nat
  flags      : Nat
  primary    : Nat
  primaryVal : Word
  indetCount : Nat
  indetFirst : Nat
  raised     : List Nat
  asserted   : List Nat
  deriving DecidableEq, Repr

/-- A member's block in a published frame (R309, R311). -/
structure PubBlock where
  stat  : Nat
  ph    : List (Word × Word)
  freq  : Word
  dfreq : Word
  an    : List Word
  dg    : List (BitVec 16)
  deriving DecidableEq, Repr

/-- Bodies of the frames a port sends. -/
inductive TxBody where
  | ptp (kind domain : Nat) (a b : Int) (tlv : Option Nat)
  | prpSup (mac : Nat)
  | goose (routed : Bool) (hdr : List Word) (spdu : Word) (stNum sqNum : Word) (tal : Nat) (stamp : Int) (sim : Bool) (m : AlarmMsg)
      (tag : Option Nat)
  | c37 (set rev udp : Nat) (bytes : List Byte)
  | rsv (set rev udp : Nat) (spdu : Nat) (smpCnt smpSynch : Nat) (tick : Int) (epoch flags tq : Nat)
      (blocks : List PubBlock) (tag : Option Nat)
  | companion (set rev udp dev epoch : Nat) (soc : Nat) (fracsec : Word) (idcode slot tag : Nat)
  | seal (set udp dev epoch sec count slot chain sig : Nat)
  | host (words : List Word)
  deriving DecidableEq, Repr

/-- A frame queued on a port: its body, the sequence number of its PRP trailer (none: no trailer), its length, its
place within the preemptable queue (0 sets, 1 supervision, 2 host frames), the host frame it belongs to, and when a
published frame has to start at the latest (R307). -/
structure TxFrame where
  body   : TxBody
  prp    : Option Nat
  len    : Nat
  cls    : Nat
  host   : Option Nat
  latest : Option Nat := none
  deriving DecidableEq, Repr

/-- A MAC frame the mesh sends (Table 11.3): `kind` 0 enhanced beacon, 1 data, 2 Enh-Ack, 3 Association Response,
4 Disassociation Notification, 5 Association Request; `pend` its frame pending bit; `arg` a command's parameters. -/
structure RadioTx where
  kind    : Nat
  dst     : Nat
  seq     : Nat
  counter : Word
  timing  : Option TimingIe
  mesh    : Option MeshIe
  e2e     : Option E2e
  pend    : Bool
  arg     : List Nat
  pan     : Nat
  oui     : Nat
  len     : Nat
  deriving DecidableEq, Repr

/-- Blocks the device writes to host memory. -/
inductive HostBlock where
  | words (ws : List Word)
  | pubKey (k : Nat)
  | attest (slot : Nat) (r : KeyRec) (lc : Nat) (vgen : Word) (pcc ms : Nat) (dbg : Bool) (pub : Nat) (nonce measure seq sig : Nat)
  | cert (len : Nat) (pub : Nat)
  | records (rs : List Committed)
  | logSeal (serial seq digest nonce sig : Nat)
  | identity (ws : List Word)
  | item (hdr : Word) (drops : Nat) (ws : List Word)
  | capture (id off : Nat) (bytes : List Byte)
  | blocks (bytes : List Byte)
  deriving DecidableEq, Repr

/-- What the device does that is seen outside it, in order of issue (newest first in `Dev.out`). -/
inductive Output where
  | cqe (addr ring status code : Nat) (tag : BitVec 16) (sub : Nat) (memErr : Bool) (p : List Word)
  | record (addr ring code : Nat) (p : List Word)
  | msix (vector : Nat)
  | hostWrite (addr : Nat) (b : HostBlock)
  | doorbell (addr : Nat) (w : Word)
  | readData (off : Nat) (w : Word)
  | frame (port : Nat) (q : TxQueue) (f : TxFrame)
  | badFcs (port : Nat)
  | braze (port group src dst : Nat) (session seq : Word) (slot : Nat) (retx : Bool) (p : BrzPayload)
  | radio (f : RadioTx)
  | alarmPad (n : Nat) (conduct : Bool)
  | timedPin (n : Nat) (level : Bool)
  | thermPin (low : Bool)
  | rlpReset (low : Bool)
  | rlpCmd (code : Nat) (ops : List Nat)
  | resSwitch (on : Bool)
  | resBleed (on : Bool)
  deriving DecidableEq, Repr

/-! ### Host interface and spill queues (12_host_rings_queues.md) -/

/-- A descriptor fetched and not completed (R370). `noCqe`: a function-level reset has dropped its completion (R396). -/
structure Fetched where
  ring  : Nat
  tag   : BitVec 16
  code  : Nat
  fence : Bool
  noCqe : Bool
  deriving DecidableEq, Repr

/-- State of the host interface beside its registers. -/
structure HostS where
  link     : Bool
  polling  : Bool
  polls    : Word
  kicked   : Bool
  nextPoll : Nat
  fetched  : List Fetched
  unmasked : List Nat
  pendBits : List Nat
  coal     : KMap Nat
  ringSent : List Nat
  turn     : Nat
  stopping : Option CmdHdr
  deriving DecidableEq, Repr

/-- An item of a spill queue: producer, count at its start mark, and words. -/
structure SpqItem where
  prod  : Nat
  cnt   : Nat
  words : List Word
  deriving DecidableEq, Repr

/-- A spill queue (R384 to R393): `items` are visible, oldest first; `inside` is the unread rest of the item the
consumer is in, with the whole length of that item. -/
structure SpqQ where
  items    : List SpqItem
  inside   : Option (Nat × List Word)
  count    : Nat
  drops    : Nat
  flush    : Option (CmdHdr × Nat × Nat)
  cfgErr   : Bool
  sent     : Bool
  hostRead : Word
  stall    : Option Nat
  deriving DecidableEq, Repr

def SpqQ.empty : SpqQ :=
  { items := [], inside := none, count := 0, drops := 0, flush := none, cfgErr := false, sent := false, hostRead := 0,
    stall := none }

/-! ### Proof log staging (15_proof_log_identity.md) -/

/-- A token bucket below its depth (R479): tokens left, when it next gains one, and the suppressed events. -/
structure Bucket where
  tokens : Nat
  due    : Nat
  count  : Nat
  first  : Nat
  last   : Nat
  p0     : Word
  deriving DecidableEq, Repr

/-- Staging, buckets and the register window of the proof log. -/
structure PlgS where
  stage      : List LogRec
  stalled    : List LogRec
  drops      : Nat
  overflow   : Bool
  buckets    : KMap Bucket
  cursorLost : Bool
  lastAnchor : Nat
  cycle      : Nat
  run        : Nat
  deriving DecidableEq, Repr

/-! ### Keys (13_security.md) -/

/-- What a key command asks for once it has passed its checks (Table 13.4). -/
inductive KeyOp where
  | gen (a : KeyArgs)
  | imp (a : KeyArgs) (tslot : Nat) (blob : ImportBlob)
  | destroy (slot : Nat)
  | pubKey (slot : Nat) (addr : Nat) (memErr : Bool)
  | attest (slot : Nat) (nonce addr : Nat) (memErr : Bool)
  deriving DecidableEq, Repr

/-- An installation between its start and its flip (R407). -/
structure Install where
  hdr     : CmdHdr
  code    : Nat
  slot    : Nat
  newKey  : KeyRec
  counter : Option Nat
  deriving DecidableEq, Repr

/-- The working key plate (R401). `plate` holds valid slots; `grace` a replaced `BRAZE_LINK` key with the raw count at
which it is dropped (R409). -/
structure KeyS where
  plate    : KMap KeyRec
  grace    : KMap (KeyRec × Nat)
  install  : List Install
  waiting  : List (CmdHdr × KeyOp)
  rngFail  : Bool
  rngRuns  : Nat
  attestOk : Bool
  pub      : Nat
  measure  : Nat
  lost     : Nat
  debug    : Bool
  debugged : Bool
  deriving DecidableEq, Repr

/-! ### Annealer and power (14_power_annealer_startup.md) -/

/-- The commands that wait for the Annealer (R463). -/
inductive P5Op where
  | attest (slot : Nat) (nonce addr : Nat) (memErr : Bool)
  | cert (addr : Nat) (memErr : Bool)
  | seal (nonce addr : Nat) (memErr : Bool)
  deriving DecidableEq, Repr

/-- State of the Annealer beside its registers. -/
structure AnlS where
  step      : Nat
  p2        : List Nat
  holdup    : Bool
  lastStep  : Nat
  lastTherm : Nat
  overSince : Option Nat
  warnEp    : Bool
  tripEp    : Bool
  unmetEp   : Bool
  readings  : List (Int × Nat)
  pendCap   : List (CmdHdr × Nat)
  p5wait    : List (CmdHdr × P5Op × Nat)
  deriving DecidableEq, Repr

/-- A reservoir check in progress (R470). -/
structure ResCheck where
  hdr      : CmdHdr
  startRaw : Nat
  startMv  : Nat
  bleeding : Bool
  deriving DecidableEq, Repr

/-- State of the supplies beside their registers. -/
structure PwrS where
  resMv   : Nat
  vinMv   : Nat
  vinLow  : Option Nat
  check   : Option ResCheck
  ovEp    : Bool
  bleed   : Bool
  thermLo : Bool
  deriving DecidableEq, Repr

/-- The network client the TBU, PHX and others stop while the management cluster restarts (R464). -/
structure MgmtS where
  restart  : Bool
  lastWdt  : Option Nat
  wdtPosts : Nat
  deriving DecidableEq, Repr

/-! ### Time base (02_time_base.md) -/

/-- A time source (R53 to R55): its recent offsets in 2^-16 ns, newest first. -/
structure SrcS where
  offs      : List Int
  qualified : Bool
  outRun    : Nat
  lastOff   : Int
  lastRaw   : Nat
  fresh     : Bool
  deriving DecidableEq, Repr

def SrcS.new : SrcS := { offs := [], qualified := false, outRun := 0, lastOff := 0, lastRaw := 0, fresh := false }

/-- A PTP port instance (R56 to R64), times in 2^-16 ns: raw counts of the last Announce and Sync, what the grandmaster
announces, `t2` of a two-step Sync, `t1p` of the Pdelay_Req under way, the mean link delay, recent offsets newest first, an
offset measured since the last Announce, and the raw counts from which the port's own messages are due. -/
structure PtpS where
  lastAnn   : Nat
  lastSync  : Nat
  gm        : Nat
  class_    : Nat
  utcOff    : Int
  utcValid  : Bool
  leap61    : Bool
  leap59    : Bool
  t2        : Option Int
  t1p       : Option Int
  delay     : Int
  offs      : List Int
  fresh     : Option Int
  inacc     : Nat
  nextSync  : Nat
  nextAnn   : Nat
  nextReq   : Nat
  deriving DecidableEq, Repr

def PtpS.new : PtpS :=
  { lastAnn := 0, lastSync := 0, gm := 0, class_ := 248, utcOff := 0, utcValid := false, leap61 := false,
    leap59 := false, t2 := none, t1p := none, delay := 0, offs := [], fresh := none, inacc := 0, nextSync := 0, nextAnn := 0,
    nextReq := 0 }

/-- An armed comparator (R80 to R82), targets in 2^-16 ns of derived time. -/
structure TevS where
  first  : Int
  target : Int
  base   : Int
  deriving DecidableEq, Repr

/-- A step decided and not yet applied (R73): by `ns`, or to the instant `target` in ns. -/
structure StepDue where
  ns     : Int
  target : Option Int
  host   : Bool
  hdr    : Option CmdHdr
  due    : Nat
  deriving DecidableEq, Repr

/-- The time-base values a set carries (R519). -/
structure RefVals where
  epoch  : Nat
  statTq : Nat
  unlock : Nat
  msgTq  : Nat
  sync   : Nat
  utc    : Word
  raw    : Nat
  deriving DecidableEq, Repr

/-- State of the Time Base Unit beside its registers. Derived time is `anchor` (2^-48 ns) at raw count `anchorRaw`; `stepTimes`
are the ticks that recent steps set (R74), newest first; `leapDay` is the UTC day at whose end a pending leap falls. -/
structure TbuS where
  anchor    : Int
  anchorRaw : Nat
  rate      : Int
  freq      : Int
  err       : Int
  errRaw    : Nat
  sync      : Nat
  everLock  : Bool
  src       : Nat
  ptpPort   : Nat
  slewing   : Bool
  disagree  : Bool
  uLock     : Nat
  lastAcc   : Nat
  hist      : List (Nat × Int)
  srcs      : KMap SrcS
  ptp       : KMap PtpS
  armed     : Bool
  stepDue   : List StepDue
  epoch     : Nat
  stepTimes : List Int
  leapSrc   : Nat
  leapDay   : Int
  leapOccur : Option Nat
  leapAt    : Option (Int × Int)
  nextSlot  : KMap Nat
  nextPre   : KMap Nat
  tevs      : KMap TevS
  pins      : KMap Nat
  pps       : Option (Nat × Int)
  ppsSec    : Option (Nat × Nat)
  lastRtc   : Nat
  deriving DecidableEq, Repr

/-! ### Ports (03_network_ingest.md) -/

/-- The frame a port is sending: since when, and how many of its bytes went out in earlier fragments. -/
structure TxCur where
  q     : TxQueue
  frame : TxFrame
  start : Nat
  sent  : Nat
  deriving DecidableEq, Repr

/-- An Ethernet port beside its registers. -/
structure PortS where
  link       : Bool
  express    : List TxFrame
  preempt    : List TxFrame
  cur        : Option TxCur
  held       : Option TxCur
  pauseUntil : Option Nat
  pauseSince : Option Nat
  stormUntil : Option Nat
  verify     : Nat
  tries      : Nat
  addFrag    : Nat
  nextSup    : Nat
  rxSc       : List Nat
  pn         : KMap Nat
  txSa       : Option Nat
  deriving DecidableEq, Repr

def PortS.new : PortS :=
  { link := false, express := [], preempt := [], cur := none, held := none, pauseUntil := none, pauseSince := none,
    stormUntil := none, verify := 0, tries := 0, addFrag := 0, nextSup := 0, rxSc := [], pn := [],
    txSa := none }

/-- A node table entry (R93): bit j of `marks` is set when sequence `highest - j` was accepted. -/
structure PrpNode where
  mac     : Nat
  highest : Nat
  marks   : Nat
  seen    : Nat
  deriving DecidableEq, Repr

/-- The ports, the PRP pairs and the host frames under way. -/
structure NetS where
  ports   : KMap PortS
  nodesA  : KMap PrpNode
  nodesB  : KMap PrpNode
  seqA    : Nat
  seqB    : Nat
  hostTx  : List (CmdHdr × Nat × List Nat)
  nextTx  : Nat
  deriving DecidableEq, Repr

/-! ### Stream table (03_network_ingest.md) -/

/-- The version before the last commit that changed an entry (R121): the instant of that commit in ns, the entry's
words and pool words before it (none: there was no previous version), and whether they have been discarded. -/
structure PrevVer where
  inst  : Int
  words : Option (List Word)
  pool  : List Word
  gone  : Bool
  deriving DecidableEq, Repr

/-- A pending commit (R118 to R120): `snap` is the staged copy at its fetch, `inst` its instant once validated. -/
structure PendCommit where
  hdr        : CmdHdr
  args       : CommitArgs
  snap       : SMap
  validating : Bool
  inst       : Int
  homes      : KMap Nat
  deriving DecidableEq, Repr

/-- State of the stream table beside its windows. -/
structure StmS where
  pend     : Option PendCommit
  prev     : KMap PrevVer
  fails    : KMap Nat
  lastRx   : KMap Nat
  svSeen   : KMap (Nat × List Nat)
  nmStart  : Nat
  nmCount  : Nat
  prevOut  : SMap
  inst     : Int
  deriving DecidableEq, Repr

/-! ### Alignment (04_stream_alignment.md) -/

/-- A frame on its way to a tile: stream, revision, frame time `num / den` seconds, and its content (R110). -/
structure TileFrame where
  idx    : Nat
  rev    : Nat
  num    : Nat
  den    : Nat
  stat   : BitVec 16
  mtq    : Nat
  pay    : Payload
  arrNs  : Int
  arrRaw : Nat
  deriving DecidableEq, Repr

/-- An alignment tile: cause of its failure (0: in service), waiting frames, known-answer failures in a row, and the
raw counts of recent uncorrectable SRAM errors. -/
structure TileS where
  cause : Nat
  inq   : List TileFrame
  kat   : Nat
  ues   : List Nat
  deriving DecidableEq, Repr

def TileS.new : TileS := { cause := 0, inq := [], kat := 0, ues := [] }

/-- A cell (R127). `rev` is the revision merged last, `merged` that a merge took place after first look. -/
structure Cell where
  k      : Nat
  st     : Nat
  num    : Nat
  den    : Nat
  stat   : BitVec 16
  mtq    : Nat
  arrNs  : Int
  arrRaw : Nat
  pay    : Option Payload
  rev    : Nat
  merged : Bool
  ue     : Bool
  spUe   : Bool
  first  : Option Payload
  deriving DecidableEq, Repr

/-- An open aligned set (R128, R129). -/
structure SetS where
  rc      : Nat
  k       : Nat
  first   : Nat
  final   : Nat
  done    : Bool
  image   : List ImgMember
  refv    : Option RefVals
  flag    : Bool
  deriving DecidableEq, Repr

/-- The images of a set after its first look, kept while a set of a lower rate may still read them (R193, R304). -/
structure ArchSet where
  rc    : Nat
  k     : Nat
  rev0  : List ImgMember
  fin   : Option (List ImgMember)
  refv  : RefVals
  flag  : Bool
  deriving DecidableEq, Repr

/-- The sequencer, the tiles and homing. `unhomed` holds from which tick a stream was UNHOMED and until which, `moved` the
home before the last commit that moved a stream, with its instant, and `gap`, for a re-homed stream, the ticks of the fault
and of t_r (R154). -/
structure EasS where
  tiles   : KMap TileS
  homes   : KMap Nat
  unhomed : KMap (Int × Option Int)
  moved   : KMap (Int × Option Nat)
  spill   : List Nat
  gap     : KMap (Int × Int)
  sets    : List SetS
  highest : KMap Nat
  cells   : KMap Cell
  arch    : List ArchSet
  deriving DecidableEq, Repr

/-! ### Phasor chain (05_phasor_chain.md) -/

/-- A native sample of a channel: its number within TAI time (sample time `n / rate` seconds), its value in counts as
binary32 (exact for a delivered sample), how it was obtained, and when it was delivered. -/
structure Sample where
  n      : Nat
  val    : Word
  clip   : Bool
  filled : Bool
  arr    : Nat
  deriving DecidableEq, Repr

/-- A stretch of the grid phase (R169): from `t0` (2^-16 ns), at phase `phi` (2^-48 cycle), advancing at `ft` (binary32
Hz). -/
structure GridSeg where
  t0  : Int
  phi : Int
  ft  : Word
  deriving DecidableEq, Repr

/-- A detector of a channel (R182, R184): armed, held until a raw count, with its value. -/
structure DetS where
  armed : Bool
  till  : Option Nat
  val   : Word
  deriving DecidableEq, Repr

def DetS.new : DetS := { armed := true, till := none, val := 0 }

/-- A channel of the Phasor chain. Times in 2^-16 ns of derived time. -/
structure PhxCh where
  ft      : Word
  off     : Nat
  segs    : List GridSeg
  trP     : Int
  trM     : Int
  endP    : Int
  endM    : Int
  rate    : Nat
  hist    : List Sample
  taken   : Nat
  lost    : Nat
  nextP   : Nat
  nextM   : Nat
  shed    : Bool
  unplaced : Bool
  place   : Option (Nat × Nat)
  resets  : Nat
  lastUs  : Word
  lastD   : Int
  lastR   : Int
  aj      : DetS
  rf      : DetS
  rfRun   : Nat
  detN    : Nat
  deriving DecidableEq, Repr

def PhxCh.new : PhxCh :=
  { ft := 0, off := 0, segs := [], trP := 0, trM := 0, endP := 0, endM := 0, rate := 4000, hist := [], taken := 0,
    lost := 0, nextP := 0, nextM := 0, shed := false, unplaced := false, place := none, resets := 0, lastUs := 0,
    lastD := 0, lastR := 0, aj := DetS.new, rf := DetS.new, rfRun := 0, detN := 0 }

/-- The Phasor chain: channels in use, failed lanes, known-answer failures in a row per lane, the raw count at which
the next round begins, and how many channels the Annealer has shed. -/
structure PhxS where
  chans  : KMap PhxCh
  failed : List Nat
  kat    : KMap Nat
  round  : Nat
  allP2  : Bool
  deriving DecidableEq, Repr

/-! ### Safelight (06_safelight_alarms.md) -/

/-- A term's memory: its hysteresis state, its result at the previous decision, and the run of held decisions. -/
structure TermS where
  hyst : Bool
  res  : Bool
  held : Nat
  deriving DecidableEq, Repr

def TermS.new : TermS := { hyst := false, res := false, held := 0 }

/-- A rule's state (Tables 6.7, 6.9): 0 CLEAR, 1 ASSERTED, 2 INDETERMINATE. -/
structure RuleS where
  st     : Nat
  indet  : Bool
  held   : Bool
  acount : Nat
  dcount : Nat
  slotUs : Word
  raises : Nat
  miss   : Nat
  value  : Word
  terms  : List TermS
  deriving DecidableEq, Repr

def RuleS.new : RuleS :=
  { st := 0, indet := false, held := false, acount := 0, dcount := 0, slotUs := 0, raises := 0, miss := 0, value := 0,
    terms := [TermS.new, TermS.new, TermS.new] }

/-- A set Safelight works on: the rules decided and queued for it, and those that raised in it (R208, R212). -/
structure SflSet where
  rc      : Nat
  k       : Nat
  loc     : Bool
  decided : List Nat
  queued  : List Nat
  raised  : List Nat
  refv    : Option RefVals
  deriving DecidableEq, Repr

/-- A pass waiting to run (R208): its rules in ascending index, its trigger, and whether its set has no later pass. -/
structure SflPass where
  rc    : Nat
  k     : Nat
  loc   : Bool
  rules : List Nat
  trig  : Nat
  last  : Bool
  flush : Bool
  deriving DecidableEq, Repr

/-- An alarm output's driver (R215, R216): `drive` is what its logic asks the pad for; `turnOn` the raw count at which
the pad began to conduct, until it succeeds or fails. -/
structure AlmS where
  pulseEnd : Option Nat
  latched  : Bool
  drive    : Bool
  turnOn   : Option Nat
  retryAt  : Option Nat
  fails    : Nat
  episode  : Bool
  deriving DecidableEq, Repr

def AlmS.new : AlmS :=
  { pulseEnd := none, latched := false, drive := false, turnOn := none, retryAt := none, fails := 0, episode := false }

/-- Safelight beside its registers and tables. -/
structure SflS where
  rules    : KMap RuleS
  sets     : List SflSet
  passes   : List SflPass
  prevTab  : SMap
  inst     : Int
  changed  : List Nat
  pend     : Option PendCommit
  laneA    : Bool
  laneB    : Bool
  katRun   : KMap Nat
  invert   : Bool
  disagree : Option Nat
  trans    : List Nat
  testing  : List Nat
  tevHold  : KMap Nat
  msg      : Option AlarmMsg
  msgAt    : Nat
  nextTx   : Nat
  interval : Nat
  hostDrop : Nat
  supply   : Bool
  alms     : KMap AlmS
  deriving DecidableEq, Repr

/-! ### Publisher and Braze (10_publishing_and_braze.md) -/

/-- A hash chain (R317): H of the last whole second, the second under way with the digests of its frames in send order
the epoch at its start, and the digests of frames of the second after it. -/
structure SealS where
  h      : Nat
  sec    : Nat
  epoch  : Nat
  frames : List Nat
  next   : List Nat
  deriving DecidableEq, Repr

/-- The frames of a published set: when they are due, later on a STANDBY twin (R308), and the latest start of the first
(R307). -/
structure Delayed where
  due    : Nat
  latest : Nat
  rev    : Nat
  set    : Nat
  pair   : Nat
  fs     : List (TxBody × Nat)
  dig    : Option Nat
  deriving DecidableEq, Repr

/-- The Publisher beside its registers and tables. -/
structure PubS where
  chains    : KMap SealS
  delayed   : List Delayed
  rgCount   : Word
  withdrawn : Bool
  kat       : Bool
  deriving DecidableEq, Repr

/-- A peer on a Braze port (R319, R320, R324). -/
structure BrzPeer where
  up      : Bool
  lastRx  : Nat
  session : Word
  seq     : Word
  v       : Option Word
  held    : Bool
  deriving DecidableEq, Repr

def BrzPeer.new : BrzPeer := { up := false, lastRx := 0, session := 0, seq := 0, v := none, held := false }

/-- A set's masks and digests under comparison (R331). -/
structure TwinCmp where
  set   : Nat
  k     : Nat
  mine  : Option (List Bool)
  other : Option (List Bool)
  myDig : Option Nat
  oDig  : Option Nat
  deriving DecidableEq, Repr

/-- Braze beside its registers. `tx` holds (session, sequence) by destination and port, the next frame's; `since` a condition
of R330 (cause, raw count since when it holds); `reqAt` the raw count of the last TIME_REQ and `t1` its egress (2^-16 ns) while
its answer is awaited; `upUncert` the parent's `TBU_UNCERT`; `nextHb`, `nextTwin` and `syncAt` the raw counts at which the next
HEARTBEAT, TWIN_STATE and TIME_SYNC of a child are due;
`wasLock` says whether the TBU was LOCKED at the last TWIN_STATE. -/
structure BrzS where
  tx       : KMap (Word × Word)
  peers    : KMap BrzPeer
  last     : Bool × Nat
  pending  : Option BrzPayload
  alarmSeq : Word × Word
  nextRto  : Nat
  role     : Nat
  cause    : Nat
  causes   : List Nat
  giveUp   : Bool
  swap     : List CmdHdr
  partner  : Option TwinPartner
  since    : Option (Nat × Nat)
  cmps     : List TwinCmp
  checkDue : Option (Nat × Nat)
  trans    : List Nat
  mirror   : Option (KMap (Word × Word) × Word)
  reqAt    : Nat
  t1       : Option Int
  delay    : Int
  upUncert : Nat
  nextHb   : Nat
  nextTwin : Nat
  wasLock  : Bool
  syncAt   : KMap Nat
  deriving DecidableEq, Repr

/-! ### Shutter (08_shutter_capture.md) -/

/-- `run` samples of a channel from number `n` on, each stored with these words (Table 8.9); `run` exceeds 1 only for
samples that are missing, and no word stands for samples that were lost (R278). -/
structure ShtSmp where
  n   : Nat
  run : Nat
  ws  : List Word
  deriving DecidableEq, Repr

/-- A channel's history in a group's raw ring, newest first. -/
structure ShtChan where
  kind : Nat
  ch   : Nat
  rate : Nat
  smp  : List ShtSmp
  deriving DecidableEq, Repr

/-- The state of a table trigger (R263, R264): armed, qualifying samples in a row, the instant of the first (2^-16 ns),
the truth of a level term or pattern, and whether it has had a valid value. -/
structure ShtTrig where
  armed : Bool
  run   : Nat
  inst  : Int
  truth : Bool
  valid : Bool
  fell  : Bool
  deriving DecidableEq, Repr

def ShtTrig.new : ShtTrig := { armed := false, run := 0, inst := 0, truth := false, valid := false, fell := false }

/-- A trigger on its way to a group: source, instant (2^-16 ns) and detail (Table 8.11 bytes 34-35); `mark` is the value of
a mask violation that no capture holds yet (R276). -/
structure ShtEv where
  g      : Nat
  src    : Nat
  inst   : Int
  detail : Nat
  mark   : Option Nat
  deriving DecidableEq, Repr

/-- A capture's channel (channel descriptor of Table 8.11): first sample number, next sample to back-fill, the first sample
number past the capture once it has closed, and the runs of samples lost. -/
structure CapChan where
  kind  : Nat
  ch    : Nat
  rate  : Nat
  first : Nat
  next  : Nat
  endN  : Option Nat
  pre   : Nat
  short : Bool
  scale : Word
  lost  : List (Nat × Nat)
  deriving DecidableEq, Repr

/-- A mark of a capture (Table 8.11). -/
structure CapMark where
  typ  : Nat
  chan : Nat
  idx  : Int
  val  : Nat
  deriving DecidableEq, Repr

/-- A capture record (Tables 8.11, 8.15). Instants in 2^-16 ns; `st` 1 recording, 2 back-filling, 3 ready; `off` the offset
of its record in units of 4 KiB once that is allocated; `gen` the history its samples lie in. -/
structure Capture where
  id      : Nat
  g       : Nat
  slot    : Nat
  st      : Nat
  reason  : Nat
  flags   : Nat
  srcs    : List Nat
  primary : Nat
  details : KMap Nat
  t0      : Int
  i0      : Nat
  rg      : Nat
  epoch   : Nat
  tq      : Nat
  utc     : Word
  raw0    : Nat
  fnom    : Nat
  endT    : Int
  start   : Int
  exts    : Nat
  marks   : List CapMark
  chans   : List CapChan
  code    : Nat
  off     : Option Nat
  rawLen  : Nat
  data    : List Byte
  released : Bool
  gen     : Nat
  deriving DecidableEq, Repr

/-- A capture group (Table 8.7). `tab` holds the Shutter table words that define it now; `gen` numbers its histories, `held`
keeps frozen samples of those that have ended, and `storeAt` is where its next record begins, in units of 4 KiB. -/
structure ShtGroup where
  st      : Nat
  tab     : SMap
  chans   : List ShtChan
  gen     : Nat
  held    : List (Nat × ShtChan)
  trigs   : KMap ShtTrig
  holdEnd : Nat
  holdCnt : Nat
  viol    : Nat
  violAt  : Int
  violIdle : Bool
  storeAt : Nat
  deriving DecidableEq, Repr

def ShtGroup.new : ShtGroup :=
  { st := 0, tab := [], chans := [], gen := 0, held := [], trigs := [], holdEnd := 0, holdCnt := 0, viol := 0, violAt := 0,
    violIdle := false, storeAt := 0 }

/-- Shutter: groups, captures, triggers on their way, delivery delays per SV channel (R265), the latest sample of every SV
channel since the last round, where its triggers may read it (Table 8.6), and whether P4 is shed. -/
structure ShtS where
  groups : KMap ShtGroup
  caps   : List Capture
  evs    : List ShtEv
  delays : KMap (List (Nat × Int))
  fresh  : KMap (Option Int)
  p4shed : Bool
  deriving DecidableEq, Repr

/-! ### Densitometer (07_densitometer.md) -/

/-- A modal signal's analysis (R227): its last value, missing and present instants in a row, and exclusion. -/
structure DnsSig where
  last : Option Word
  miss : Nat
  pres : Nat
  excl : Bool
  deriving DecidableEq, Repr

def DnsSig.new : DnsSig := { last := none, miss := 0, pres := 0, excl := false }

/-- A reported mode (Table 7.3). `seed` names its shape; `past` holds FREQ and DAMP of the track's last publications,
newest first. -/
structure DnsMode where
  isNew  : Bool
  track  : Nat
  conf   : Nat
  freq   : Word
  damp   : Word
  zmag   : Word
  zarg   : Word
  dom    : Nat
  age    : Nat
  energy : Word
  seed   : Nat
  past   : List (Word × Word)
  deriving DecidableEq, Repr

/-- A publication of the mode table (R235): its modes, the tick and time-step epoch of t_r, and the signals excluded. -/
structure DnsPub where
  modes : List DnsMode
  tick  : Int
  epoch : Nat
  excl  : List Nat
  deriving DecidableEq, Repr

/-- A forced-oscillation entry (Table 7.5). `bin` is its bin number, `run` evaluations in a row that found it as a
candidate, `gone` those that missed it while ending; `seed` names its energy-flow results. -/
structure FoEntry where
  st      : Nat
  bin     : Nat
  snr     : Word
  amp     : Word
  strong  : Nat
  age     : Nat
  id      : Nat
  startUs : Word
  run     : Nat
  gone    : Nat
  seed    : Nat
  srcConf : Nat
  srcArea : Option Nat
  srcBr   : Nat
  srcNet  : Word
  used    : List (Nat × Word)
  young   : List (Nat × Word)
  deriving DecidableEq, Repr

/-- A flag beside its value bit (Table 7.8 words 6 and 7). -/
structure FlagS where
  pcount : Nat
  dcount : Nat
  cause  : Nat
  deriving DecidableEq, Repr

def FlagS.new : FlagS := { pcount := 0, dcount := 0, cause := 65535 }

/-- A coherency result on its way to Safelight (R245): its TAI second and the vector entries it gives. -/
structure CohResult where
  sec     : Nat
  entries : List (Nat × Option Nat)
  deriving DecidableEq, Repr

/-- The Densitometer beside its registers and tables. `idAt`, `foAt`, `cohAt` are the ticks of the last restarts,
`count` the analysis instants since; `angles` hold the last coherency samples of each signal, newest first. -/
structure DnsS where
  failed   : List Nat
  kat      : KMap Nat
  anlLevel : Nat
  level    : Nat
  warming  : Bool
  paused   : Option Nat
  idAt     : Int
  cohAt    : Int
  m        : Nat
  count    : Nat
  sigs     : KMap DnsSig
  branches : KMap (List Bool)
  angles   : KMap (List (Nat × Word))
  empty    : Bool
  refresh  : Nat
  trackNext : Nat
  shown    : DnsPub
  pend     : Option DnsPub
  fo       : KMap FoEntry
  foNext   : Nat
  foDue    : Int
  cohSec   : Nat
  labels   : KMap Nat
  vec      : Option CohResult
  flags    : KMap FlagS
  deriving DecidableEq, Repr

/-! ### Filigree (11_filigree_mesh.md) -/

/-- A node's status (Table 11.5 words 8 to 15); `heardRaw` is the raw count of its last accepted frame's SFD and `joined`
says that it has associated since BOOT. -/
structure FlgNode where
  st       : Nat
  direct   : Bool
  depth    : Nat
  parent   : Nat
  rssi     : Int
  lqi      : Nat
  lastFc   : Word
  lastRc   : Word
  heardUs  : Word
  heardRaw : Nat
  joined   : Bool
  rejoins  : Nat
  replays  : Nat
  repeats  : Nat
  micFail  : Nat
  bufDrop  : Nat
  deriving DecidableEq, Repr

def FlgNode.new : FlgNode :=
  { st := 1, direct := false, depth := 0, parent := 65534, rssi := 0, lqi := 0, lastFc := 0, lastRc := 0, heardUs := 0,
    heardRaw := 0, joined := false, rejoins := 0, replays := 0, repeats := 0, micFail := 0, bufDrop := 0 }

/-- A frame under channel access (R347) or on the air: `uni` asks for an acknowledgement, `node` is its node, `hdr` the
command that waits for it with its code, `held` its place in the pool. `nb`, `be` and `due` are the back-off's. -/
structure FlgTx where
  f     : RadioTx
  uni   : Bool
  node  : Option Nat
  hdr   : Option (CmdHdr × Nat)
  held  : Option Nat
  nb    : Nat
  be    : Nat
  due   : Nat
  tries : Nat
  ready : Bool
  deriving DecidableEq, Repr

/-- The frame on the air: the raw count of its predicted SFD, and of its SFD once it has passed. -/
structure FlgAir where
  tx   : FlgTx
  pred : Nat
  sfd  : Option Nat
  deriving DecidableEq, Repr

/-- A held frame (R350): for a sleepy child, or upward in orphan search. -/
structure FlgHeld where
  id   : Nat
  node : Nat
  up   : Bool
  f    : RadioTx
  due  : Nat
  hdr  : Option (CmdHdr × Nat)
  sent : Bool
  deriving DecidableEq, Repr

/-- Filigree beside its registers. `acks` are Enh-Acks to send (due, destination, sequence, pending bit), `seen` the seen
cache newest last (origin, sequence, expiry), `relay` floods to send again, `up` the uplink state of Table 11.10. -/
structure FlgS where
  nodes    : KMap FlgNode
  ctr      : Nat
  dsn      : Nat
  rcOut    : Nat
  floodSeq : Nat
  queue    : List FlgTx
  air      : Option FlgAir
  acks     : List (Nat × Nat × Nat × Bool)
  ackPred  : Option Nat
  held     : List FlgHeld
  heldNext : Nat
  seen     : List (Nat × Nat × Nat)
  relay    : List (Nat × RadioTx)
  up       : Nat
  depth    : Nat
  short    : Nat
  parent   : Nat
  upEui    : Nat
  upFc     : Word
  cand     : Option (Nat × Nat)
  nextBcn  : Int
  expect   : Option Nat
  missed   : Nat
  sfd      : Nat
  rst      : Option Nat
  ended    : Bool
  deriving DecidableEq, Repr

/-! ### Swage (09_swage_compression.md) -/

/-- A queued output buffer (R297). -/
structure SwgBuf where
  hdr    : CmdHdr
  addr   : Nat
  len    : Nat
  used   : Nat
  blocks : Nat
  deriving DecidableEq, Repr

/-- A context command that waits its turn or is in progress (R299). -/
inductive SwgCmd where
  | openCtx (h : CmdHdr) (kind code label : Nat)
  | feed (h : CmdHdr) (left : List (List Word)) (total written : Nat) (memErr : Bool)
  | flush (h : CmdHdr)
  | close (h : CmdHdr)
  deriving DecidableEq, Repr

/-- A host job context: 0 CLOSED, 1 OPEN, 2 WAIT_BUF; `ready` is a full or flushed block not coded yet, `coded` a coded
block without buffer space. -/
structure SwgCtx where
  st      : Nat
  kind    : Nat
  code    : Nat
  label   : Nat
  partial_ : List (List Word)
  index   : Nat
  ready   : Option (Nat × List (List Word))
  coded   : Option (List Byte)
  bufs    : List SwgBuf
  cur     : Option SwgCmd
  wait    : List SwgCmd
  deriving DecidableEq, Repr

def SwgCtx.new : SwgCtx :=
  { st := 0, kind := 0, code := 0, label := 0, partial_ := [], index := 0, ready := none, coded := none, bufs := [],
    cur := none, wait := [] }

/-- Swage: contexts, the client served last, raw counts of blocks stored uncoded after two failed checks. -/
structure SwgS where
  ctxs  : KMap SwgCtx
  last  : Nat
  fails : List Nat
  count : Nat
  deriving DecidableEq, Repr

/-! ### The main domain -/

/-- Everything the main domain holds. `regs` lists the register words that differ from their power-on values; `stg` and
`act` the non-zero words of the staged and active tables (Table 16.2), keyed by BAR0 offset; `latch` the values of
latched groups (R491); `deg` the bits of `DEG_UNITS` (Table 1.11); `free` counts the free values drawn and `out` lists what left the device, newest first (both the
model's own). -/
structure Dev where
  op     : OpState
  reason : Nat
  deg    : Nat
  raw    : Nat
  regs   : SMap
  stg    : SMap
  act    : SMap
  latch  : KMap Word
  free   : Nat
  out    : List Output
  host   : HostS
  spq    : KMap SpqQ
  plg    : PlgS
  key    : KeyS
  anl    : AnlS
  pwr    : PwrS
  mgmt   : MgmtS
  tbu    : TbuS
  net    : NetS
  stm    : StmS
  eas    : EasS
  phx    : PhxS
  sfl    : SflS
  pub    : PubS
  brz    : BrzS
  sht    : ShtS
  swg    : SwgS
  dns    : DnsS
  flg    : FlgS
  deriving DecidableEq, Repr

end Sys2Proof.Machine
end

