-- ==== Sys2Proof/Machine/Ops.lean ====
section
/-! DEFINITION. The named operations every meaning is built from: reading and writing a register or a table word,
derived time, free values, posting to the proof log, raising an event bit and its MSI-X vector, changing the operating
state, checking a host command and completing it, and appending an item to a spill queue. -/

namespace Sys2Proof.Machine

/-! ### Registers and table words -/

/-- A register's stored word. -/
def Dev.reg (d : Dev) (off : Nat) : Word := SMap.get porOf d.regs off

/-- Store a register's word. -/
def Dev.setReg (off : Nat) (w : Word) (d : Dev) : Dev := { d with regs := SMap.put porOf d.regs off w }

/-- Count in a saturating register (R13). -/
def Dev.bump (off n : Nat) (d : Dev) : Dev := d.setReg off ((d.reg off).satAdd n)

/-- Count in a register whose description says that it wraps. -/
def Dev.wrapAdd (off n : Nat) (d : Dev) : Dev := d.setReg off (d.reg off + BitVec.ofNat 32 n)

/-- Write a field of a register. -/
def Dev.setField (off lo len v : Nat) (d : Dev) : Dev := d.setReg off ((d.reg off).setField lo len v)

/-- A field of a register. -/
def Dev.fld (d : Dev) (off lo len : Nat) : Nat := (d.reg off).field lo len

/-- A bit of a register. -/
def Dev.rbit (d : Dev) (off i : Nat) : Bool := (d.reg off).bit i

/-- Keep the larger of a register and a value held at `cap` ("largest seen, saturating"). -/
def Dev.keepMax (off v cap : Nat) (d : Dev) : Dev :=
  d.setReg off (BitVec.ofNat 32 (max (d.reg off).toNat (min v cap)))

/-- An unlisted table word reads 0. -/
def zeroW (_ : Nat) : Word := 0

/-- A word of the active tables and of the read-only windows, by BAR0 offset. -/
def Dev.actW (d : Dev) (off : Nat) : Word := SMap.get zeroW d.act off

/-- Store a word of the active tables. -/
def Dev.setAct (off : Nat) (w : Word) (d : Dev) : Dev := { d with act := SMap.put zeroW d.act off w }

/-- A word of the staged tables. -/
def Dev.stgW (d : Dev) (off : Nat) : Word := SMap.get zeroW d.stg off

/-- Store a word of the staged tables. -/
def Dev.setStg (off : Nat) (w : Word) (d : Dev) : Dev := { d with stg := SMap.put zeroW d.stg off w }

/-- Write a field of an active table word. -/
def Dev.setActField (off lo len v : Nat) (d : Dev) : Dev := d.setAct off ((d.actW off).setField lo len v)

/-! ### The part -/

/-- Easel tiles fitted (Table 0.1). -/
def Part.tiles : Part → Nat
  | .aq9124 => 32 | .aq9116 => 16 | .aq9108 => 8

/-- Stream table entries (Table 0.1). -/
def Part.streams : Part → Nat
  | .aq9124 => 8192 | .aq9116 => 4096 | .aq9108 => 2048

/-- Local sampled-value channels (Table 0.1). -/
def Part.channels : Part → Nat
  | .aq9124 => 512 | .aq9116 => 256 | .aq9108 => 128

/-- Densitometer signals (Table 0.1). -/
def Part.signals : Part → Nat
  | .aq9124 => 1024 | .aq9116 => 512 | .aq9108 => 128

/-- Whether the Filigree mesh MAC is present (Table 0.1). -/
def Part.hasFlg : Part → Bool
  | .aq9124 => true | _ => false

/-- Whether Swage is present (Table 0.1). -/
def Part.hasSwg : Part → Bool
  | .aq9108 => false | _ => true

/-- The capability registers (Table 0.6), `ID_CAP0` to `ID_CAP3`. -/
def Part.cap (p : Part) (i : Nat) : Word :=
  match p, i with
  | .aq9124, 0 => 0x00200020 | .aq9124, 1 => 0x00100200 | .aq9124, 2 => 0x00011FFF | .aq9124, 3 => 0xFF409124
  | .aq9116, 0 => 0x00100010 | .aq9116, 1 => 0x00080100 | .aq9116, 2 => 0x00000FFF | .aq9116, 3 => 0xFF409116
  | .aq9108, 0 => 0x00080008 | .aq9108, 1 => 0x00020080 | .aq9108, 2 => 0x00000DFF | .aq9108, 3 => 0xFF409108
  | _, _ => 0

/-! ### Time -/

/-- Derived time in units of 2^-48 ns (R47). -/
def Dev.derived (d : Dev) : Int :=
  d.tbu.anchor + ((d.raw : Int) - (d.tbu.anchorRaw : Int)) * (281474976710656 + d.tbu.rate)

/-- The tick: whole nanoseconds of derived time, truncated toward zero (Table 0.10, R47). -/
def Dev.tick (d : Dev) : Int := Int.tdiv d.derived 281474976710656

/-- Derived time in units of 2^-16 ns, truncated toward zero (R49). -/
def Dev.t16 (d : Dev) : Int := Int.tdiv d.derived 4294967296

/-- Operating time in ms (Table 0.10). -/
def Dev.opMs (d : Dev) : Nat := d.raw / 1000000

/-- The tick as two words, low word first. -/
def tickWords (t : Int) : List Word := [lo32 (twos64 t), hi32 (twos64 t)]

/-! ### Free values and output -/

/-- Draw a free value (Config.freeNat) for a purpose. -/
def Dev.drawN (what : Nat) (d : Dev) : Nat × Dev := (Config.freeNat what d.free, { d with free := d.free + 1 })

/-- Draw a signed free value. -/
def Dev.drawI (what : Nat) (d : Dev) : Int × Dev := (Config.freeInt what d.free, { d with free := d.free + 1 })

/-- Something leaves the device. -/
def Dev.emit (o : Output) (d : Dev) : Dev := { d with out := o :: d.out }

/-! ### Posting to the proof log (R471 to R480) -/

/-- Whether a record code belongs to the security partition (Table 15.3). -/
def secCode (code : Nat) : Bool := decide (0x80 ≤ code)

/-- The record of an event at the moment of its posting (Table 15.1, R473). -/
def Dev.mkRec (code : Nat) (p : List Word) (d : Dev) : LogRec :=
  { code := code, summary := false, late := false, pcc := d.fld Reg.PWR_PCC 0 24, ms := d.opMs % 1099511627776, p := p }

/-- Remove the oldest general entry of staging. -/
def dropGeneral : List LogRec → Option (List LogRec)
  | [] => none
  | r :: t => if secCode r.code then (dropGeneral t).map (r :: ·) else some t

/-- One staging entry is dropped and counted (R480). -/
def Dev.stageDrop (d : Dev) : Dev :=
  let d := d.bump Reg.PLG_STAGE_DROP 1
  { d with plg := { d.plg with drops := d.plg.drops + 1, overflow := true } }

/-- Events of one cycle enter staging with the security partition first, then in ascending code (R478). -/
def entersBefore (a b : LogRec) : Bool :=
  if secCode a.code = secCode b.code then decide (a.code < b.code) else secCode a.code

/-- Entries of staging that an event of the present cycle keeps before it, whatever its code, and those of its own cycle. -/
def Dev.stageSplit (d : Dev) : List LogRec × List LogRec :=
  let run := if d.plg.cycle = d.raw then d.plg.run else 0
  d.plg.stage.splitAt (d.plg.stage.length - run)

/-- An event takes its place in staging after the entries `old`, among those of its cycle `new`. -/
def Dev.stagePut (r : LogRec) (old new : List LogRec) (d : Dev) : Dev :=
  let new := insertBy entersBefore r new
  { d with plg := { d.plg with stage := old ++ new, cycle := d.raw, run := new.length } }

/-- Enter an event into staging; with staging full, as R480 gives. -/
def Dev.stageRec (r : LogRec) (d : Dev) : Dev :=
  let (old, new) := d.stageSplit
  if d.plg.stage.length < 256 then d.stagePut r old new
  else
    match dropGeneral old, dropGeneral new with
    | some o, _ => d.stageDrop.stagePut r o new
    | none, some n => d.stageDrop.stagePut r old n
    | none, none => if secCode r.code then { d with plg := { d.plg with stalled := d.plg.stalled ++ [r] } } else d.stageDrop

/-- Depth of a code's bucket (R479). -/
def Dev.bucketDepth (code : Nat) (d : Dev) : Nat := zeroActs 1 (d.fld (Reg.PLG_RATE code) 0 8)

/-- Refill interval of a code's bucket, in raw counts. -/
def Dev.bucketRefill (code : Nat) (d : Dev) : Nat := zeroActs 1 (d.fld (Reg.PLG_RATE code) 8 16) * 1000000

/-- One token arrives at a code's bucket when its time has come (R479). -/
def Dev.tokenArrive (code : Nat) (d : Dev) : Dev :=
  match KMap.get? d.plg.buckets code with
  | none => d
  | some b =>
    if d.raw < b.due then d
    else if b.count = 0 then
      let n := b.tokens + 1
      let bs := if d.bucketDepth code ≤ n then KMap.del d.plg.buckets code
        else KMap.put d.plg.buckets code { b with tokens := n, due := b.due + d.bucketRefill code }
      { d with plg := { d.plg with buckets := bs } }
    else
      let r : LogRec := { d.mkRec code [BitVec.ofNat 32 b.count, BitVec.ofNat 32 b.first, BitVec.ofNat 32 b.last, b.p0]
        with summary := true }
      let bs := KMap.put d.plg.buckets code { b with count := 0, due := b.due + d.bucketRefill code }
      Dev.stageRec r { d with plg := { d.plg with buckets := bs } }

/-- Up to `n` due tokens arrive, oldest first. -/
def Dev.tokensArrive (code : Nat) : Nat → Dev → Dev
  | 0, d => d
  | n + 1, d =>
    match KMap.get? d.plg.buckets code with
    | none => d
    | some b => if d.raw < b.due then d else Dev.tokensArrive code n (d.tokenArrive code)

/-- Post an event (R478, R479): a security event and a code without a bucket always enter staging; another takes a
token, or is suppressed. -/
def Dev.post (code : Nat) (p : List Word) (d : Dev) : Dev :=
  if secCode code || plgRateDefault code = 0 then d.stageRec (d.mkRec code p)
  else
    let d := d.tokensArrive code 256 
    let depth := d.bucketDepth code
    let b := (KMap.get? d.plg.buckets code).getD
      { tokens := depth, due := d.raw + d.bucketRefill code, count := 0, first := 0, last := 0, p0 := 0 }
    let b := { b with tokens := min b.tokens depth }
    if 0 < b.tokens then
      let d := { d with plg := { d.plg with buckets := KMap.put d.plg.buckets code { b with tokens := b.tokens - 1 } } }
      d.stageRec (d.mkRec code p)
    else
      let ms := d.opMs
      let b := { b with count := b.count + 1, first := if b.count = 0 then ms else b.first, last := ms,
                        p0 := p.headD 0 }
      let d := { d with plg := { d.plg with buckets := KMap.put d.plg.buckets code b } }
      d.bump Reg.PLG_SUPPRESSED 1

/-! ### MSI-X and event registers (R381, R382) -/

/-- Send a vector's message, or set its pending bit when it is masked (R381). -/
def Dev.msix (v : Nat) (d : Dev) : Dev :=
  if d.host.unmasked.contains v then d.emit (.msix v)
  else if d.host.pendBits.contains v then d
  else { d with host := { d.host with pendBits := v :: d.host.pendBits } }

/-- The source bits of an event vector outside vector 4 (Table 12.10). -/
def vecSources : Nat → List (Nat × Nat)
  | 0 => [(Reg.GLB_STATE_EVT, 1)]
  | 1 => [(Reg.EAS_FAULT_EVT, 0xFFFFFFFF), (Reg.SFL_EVT, 4), (Reg.DNS_EVT, 16), (Reg.SWG_EVT, 2)]
  | 2 => [(Reg.SFL_EVT, 0x1B)]
  | 3 => [(Reg.TBU_EVT, 0x3F)]
  | 5 => [(Reg.DNS_EVT, 0x2F)]
  | 6 => [(Reg.SHT_EVT, 0xF)]
  | 7 => [(Reg.SWG_EVT, 5)]
  | 8 => [(Reg.BRZ_EVT, 0x1F)]
  | 9 => [(Reg.FLG_EVT, 0xF)]
  | 10 => [(Reg.HST_EVT, 0xF)]
  | _ => []

/-- Whether any source bit of a vector is set. -/
def Dev.vecActive (v : Nat) (d : Dev) : Bool :=
  if v = 4 then
    d.rbit Reg.STM_CTRL 2 &&
      d.regs.any (fun p => decide (Reg.STM_CHG 0 ≤ p.1) && decide (p.1 < Reg.STM_CHG 256) && p.2 != 0)
  else (vecSources v).any (fun p => (d.reg p.1).toNat &&& p.2 != 0)

/-- The vector that an event register's bit raises; 255: none. -/
def evtVector (off bit : Nat) : Nat :=
  if off = Reg.GLB_STATE_EVT then 0
  else if off = Reg.EAS_FAULT_EVT then 1
  else if off = Reg.SFL_EVT then (if bit = 2 then 1 else 2)
  else if off = Reg.TBU_EVT then 3
  else if off = Reg.DNS_EVT then (if bit = 4 then 1 else 5)
  else if off = Reg.SHT_EVT then 6
  else if off = Reg.SWG_EVT then (if bit = 1 then 1 else 7)
  else if off = Reg.BRZ_EVT then 8
  else if off = Reg.FLG_EVT then 9
  else if off = Reg.HST_EVT then 10
  else if Reg.STM_CHG 0 ≤ off ∧ off < Reg.STM_CHG 256 then 4
  else 255

/-- Set an event bit; its vector's message goes out when no source bit of the vector was set (R382). -/
def Dev.raise (off bit : Nat) (d : Dev) : Dev :=
  let v := evtVector off bit
  let was := d.vecActive v
  let d := d.setReg off ((d.reg off).setBit bit true)
  if !was && d.vecActive v then d.msix v else d

/-! ### Doorbell page and completion rings (R364, R370, R379, R383) -/

/-- Address of the doorbell page. -/
def Dev.pageAddr (d : Dev) : Nat :=
  (d.reg Reg.HST_DB_LO).toNat / 4096 * 4096 + (d.reg Reg.HST_DB_HI).toNat * 4294967296

/-- A word written to the doorbell page while the host interface is enabled; a page that cannot be read stops polling alone (R369). -/
def Dev.doorbell (off : Nat) (w : Word) (d : Dev) : Dev :=
  if d.rbit Reg.HST_CTRL 0 && d.host.link then d.emit (.doorbell (d.pageAddr + off) w) else d

/-- `HST_RINGn_CTRL` of any ring. -/
def Dev.ringCtrl (n : Nat) (d : Dev) : Word := d.reg (Reg.HST_RING_CTRL n)

/-- Entries of a ring (R367). -/
def Dev.ringSize (n : Nat) (d : Dev) : Nat := 2 ^ clampNat 4 16 ((d.ringCtrl n).field 1 4)

/-- Address of a ring. -/
def Dev.ringAddr (n : Nat) (d : Dev) : Nat :=
  (d.reg (Reg.HST_RING_BASE_LO n)).toNat / 4096 * 4096 + (d.reg (Reg.HST_RING_BASE_HI n)).toNat * 4294967296

/-- The completion ring a submission ring names. -/
def Dev.cqOf (n : Nat) (d : Dev) : Nat := (d.ringCtrl n).field 8 7

/-- Free entries of a completion ring (R370). -/
def Dev.ringFree (c : Nat) (d : Dev) : Nat :=
  d.ringSize c - (d.reg (Reg.HST_RING_TAIL c) - d.reg (Reg.HST_RING_HEAD c)).toNat

/-- Commands fetched for a completion ring and not completed. -/
def Dev.fetchedFor (c : Nat) (d : Dev) : Nat :=
  (d.host.fetched.filter (fun f => !f.noCqe && d.cqOf f.ring == c)).length

/-- A completion ring holds a new entry: its vector is sent, or held for coalescing (R383). -/
def Dev.ringNotify (c : Nat) (d : Dev) : Dev :=
  if (d.ringCtrl c).bit 15 && !d.host.ringSent.contains c then
    let coal := (d.ringCtrl c).field 24 8
    if coal = 0 then
      ({ d with host := { d.host with ringSent := c :: d.host.ringSent } }).msix (c - 48)
    else if KMap.has d.host.coal c then d
    else { d with host := { d.host with coal := KMap.put d.host.coal c (d.raw + coal * 1000) } }
  else d

/-- Write one entry of a completion ring; a disabled ring discards it and counts it (R368). -/
def Dev.cqWrite (c : Nat) (o : Nat → Output) (d : Dev) : Dev :=
  if !d.host.link then d
  else if !(d.ringCtrl c).bit 0 then d.bump (Reg.HST_RING_DROP c) 1
  else
    let d := d.emit (o (d.ringAddr c + 32 * ((d.reg (Reg.HST_RING_TAIL c)).toNat % d.ringSize c)))
    let d := d.wrapAdd (Reg.HST_RING_TAIL c) 1
    let d := d.doorbell (0x900 + 4 * (c - 64)) (d.reg (Reg.HST_RING_TAIL c))
    d.ringNotify c

/-- Six words of a completion parameter area. -/
def pad6 (p : List Word) : List Word := (p ++ [0, 0, 0, 0, 0, 0]).take 6

/-- Whether a fetched descriptor is the one a header names. -/
def Fetched.isFor (f : Fetched) (h : CmdHdr) (code : Nat) : Bool :=
  f.ring == h.ring && f.tag == h.tag && f.code == code

/-- Drop the first fetched descriptor a header names. -/
def unfetch (h : CmdHdr) (code : Nat) : List Fetched → List Fetched
  | [] => []
  | f :: t => if f.isFor h code then t else f :: unfetch h code t

/-- Complete a command (Table 12.4); a command whose completion a function-level reset dropped writes none (R396). -/
def Dev.completeErr (h : CmdHdr) (code status : Nat) (memErr : Bool) (p : List Word) (d : Dev) : Dev :=
  let muted := match d.host.fetched.find? (fun f => f.isFor h code) with
    | some f => f.noCqe
    | none => false
  let d := { d with host := { d.host with fetched := unfetch h code d.host.fetched } }
  if muted || decide (64 ≤ h.ring) then d
  else
    let c := d.cqOf h.ring
    if c < 64 then d else d.cqWrite c (fun a => .cqe a c status code h.tag h.ring memErr (pad6 p))

/-- Complete a command with `HOST_MEM_ERR` = 0. -/
def Dev.complete (h : CmdHdr) (code status : Nat) (p : List Word) (d : Dev) : Dev :=
  d.completeErr h code status false p

/-- A command whose data transfer met a PCIe error stops there (R375). -/
def Dev.memFail (h : CmdHdr) (code : Nat) (p : List Word) (d : Dev) : Dev :=
  (d.raise Reg.HST_EVT 2).completeErr h code 7 true p

/-- An uncorrectable error in device DRAM is counted and its address kept (R497). -/
def Dev.memUe (addr : Nat) (d : Dev) : Dev :=
  ((d.bump Reg.MEM_UE 1).setReg Reg.MEM_UE_ADDR_LO (lo32 addr)).setReg Reg.MEM_UE_ADDR_HI (BitVec.ofNat 32 (addr / 4294967296 % 256))

/-- Write a notice on the management completion ring, or drop it (R379). -/
def Dev.notice (code : Nat) (p : List Word) (d : Dev) : Dev :=
  if !(d.ringCtrl 64).bit 0 || decide (d.ringFree 64 ≤ d.fetchedFor 64) then
    (d.bump Reg.HST_MGMT_DROP 1).raise Reg.HST_EVT 3
  else d.cqWrite 64 (fun a => .cqe a 64 0 code 0 0xFF false (pad6 p))

/-- Write a record of a chapter into a completion ring, into an entry that no fetched command holds (R380); answers
whether it was written. -/
def Dev.record (ring code : Nat) (p : List Word) (d : Dev) : Bool × Dev :=
  if ring < 64 || !(d.ringCtrl ring).bit 0 || decide (d.ringFree ring ≤ d.fetchedFor ring) || !d.host.link then
    (false, d.bump (Reg.HST_RING_DROP ring) (if ring < 64 then 0 else 1))
  else (true, d.cqWrite ring (fun a => .record a ring code p))

/-! ### Operating state (R34, R39) -/

/-- Code of an operating state (Table 1.11). -/
def OpState.code : OpState → Nat
  | .off => 0 | .backup => 1 | .boot => 2 | .config => 3 | .run => 4 | .degraded => 5 | .safe => 6 | .holdup => 7

/-- The main domain is on. -/
def OpState.mainOn : OpState → Bool
  | .off => false | .backup => false | _ => true

/-- The data plane runs (Table 1.7). -/
def OpState.running : OpState → Bool
  | .run => true | .degraded => true | _ => false

/-- The alarm path runs (Table 1.7). -/
def OpState.alarm : OpState → Bool
  | .run => true | .degraded => true | .holdup => true | _ => false

/-- `GLB_STATE` (Table 1.11). -/
def Dev.glbState (d : Dev) : Word :=
  BitVec.ofNat 32 (d.op.code + (if d.op = .safe then d.reason else 0) * 256 + (d.deg % 32) * 65536)

/-- `GLB_STATE` has changed: the event bit is set and the copy in the doorbell page is written (Table 1.12). -/
def Dev.stateChanged (d : Dev) : Dev := (d.raise Reg.GLB_STATE_EVT 0).doorbell 0xB00 d.glbState

/-- Change the operating state; `order` is the place of its event in Table 1.9, `reason` a SAFE reason. -/
def Dev.setOp (new : OpState) (reason order : Nat) (d : Dev) : Dev :=
  let old := d.op
  let d := { d with op := new, reason := reason }
  let d := d.setField Reg.GLB_STATE_EVT 16 16 (d.fld Reg.GLB_STATE_EVT 16 16 + 1)
  let d := d.stateChanged
  d.post 0x0002 [BitVec.ofNat 32 (old.code + new.code * 256 + reason * 65536), BitVec.ofNat 32 d.deg,
    BitVec.ofNat 32 order, 0]

/-- A unit fails (bit of `DEG_UNITS`): the bit is set, and RUN becomes DEGRADED (Table 1.8). -/
def Dev.unitFailed (bit : Nat) (d : Dev) : Dev :=
  let d := if d.deg.testBit bit then d else ({ d with deg := d.deg ||| 2 ^ bit }).stateChanged
  if d.op = .run then d.setOp .degraded 0 4 else d

/-! ### Host commands (R372, R373) -/

/-- The states in which most commands are legal. -/
def legalCRD : List OpState := [.config, .run, .degraded]

/-- The access context of a ring. -/
def Dev.ctxOf (n : Nat) (d : Dev) : Nat := (d.ringCtrl n).field 5 3

/-- Whether the access control table lets a context issue a code (R436, R437). -/
def Dev.permitted (ctx code : Nat) (d : Dev) : Bool :=
  (ctx == 0 && code == 0xA7) || d.rbit (Reg.ACT_PERM (ctx * 8 + code / 32)) (code % 32)

/-- Whether a slot lies in a context's range (R436). -/
def Dev.slotAllowed (ctx slot : Nat) (d : Dev) : Bool :=
  decide (d.fld (Reg.ACT_CTX_SLOTS ctx) 0 8 ≤ slot) && decide (slot ≤ d.fld (Reg.ACT_CTX_SLOTS ctx) 8 8)

/-- Checks 2 to 4 of Table 12.7: the first that fails, with its status. -/
def Dev.gate (h : CmdHdr) (code : Nat) (slots : List Nat) (present : Bool) (legal : List OpState) (d : Dev) :
    Option (Nat × Nat) :=
  if !d.permitted (d.ctxOf h.ring) code || slots.any (fun s => !d.slotAllowed (d.ctxOf h.ring) s) then some (2, 4)
  else if !present then some (3, 5)
  else if !legal.contains d.op then some (4, 1)
  else none

/-- Refuse a command: it has no effect but its completion, its counts and its records (R373). -/
def Dev.refuse (h : CmdHdr) (code order status : Nat) (slot : Nat) (p : List Word) (d : Dev) : Dev :=
  let d :=
    if status = 1 then
      (d.wrapAdd Reg.HST_REFUSED 1).post 0x0025
        [BitVec.ofNat 32 (code + h.ring * 256 + order * 65536), BitVec.ofNat 32 d.op.code, BitVec.ofNat 32 h.tag.toNat, 0]
    else if status = 4 then
      (d.bump Reg.ACT_DENIED 1).post 0x0026
        [BitVec.ofNat 32 (code + h.ring * 256 + d.ctxOf h.ring * 65536), BitVec.ofNat 32 slot, 0, 0]
    else d
  d.complete h code status p

/-- Whether a command may start: with `FENCE` = 1, no earlier command of its ring is outstanding (R371). -/
def Dev.mayStart (h : CmdHdr) (code : Nat) (d : Dev) : Bool :=
  !h.fence || (d.host.fetched.takeWhile (fun f => !f.isFor h code)).all (fun f => f.ring != h.ring)

/-- A host command: while no rings are served it is not fetched (R376), in HOLDUP it is aborted (R43), it waits while a
fence holds it, is refused by the first failing check of orders 2 to 4, and otherwise runs `body`. -/
def Dev.cmd (h : CmdHdr) (code : Nat) (slots : List Nat) (present : Bool) (legal : List OpState) (body : Dev → Dev)
    (d : Dev) : Dev :=
  if d.op == .boot || !d.op.mainOn then d
  else if d.op == .holdup then d.complete h code 7 []
  else if d.mayStart h code then
    match d.gate h code slots present legal with
    | some (o, st) => d.refuse h code o st (slots.headD 0xFFFF) []
    | none => body d
  else d

/-! ### Spill queues (R385, R386, R390) -/

/-- A queue's state. -/
def Dev.spqQ (q : Nat) (d : Dev) : SpqQ := (KMap.get? d.spq q).getD SpqQ.empty

/-- Store a queue's state. -/
def Dev.setSpq (q : Nat) (x : SpqQ) (d : Dev) : Dev := { d with spq := KMap.put d.spq q x }

/-- The capacity of an enabled queue in bytes (R385). -/
def Dev.spqCap (q : Nat) (d : Dev) : Nat := 8192 + d.fld (Reg.SPQ_Q_CTRL q) 8 8 * 1048576

/-- Bytes of the items a queue holds, the one its consumer is inside included. -/
def SpqQ.used (x : SpqQ) : Nat :=
  (x.items.map (fun i => 4 * i.words.length)).sum + (match x.inside with | some (n, _) => 4 * n | none => 0)

/-- Items held, the one its consumer is inside included. -/
def SpqQ.held (x : SpqQ) : Nat := x.items.length + (if x.inside.isSome then 1 else 0)

/-- `SPQq_CREDITS` (R385). -/
def Dev.spqCredits (q : Nat) (d : Dev) : Nat :=
  if d.rbit (Reg.SPQ_Q_CTRL q) 0 then d.spqCap q - (d.spqQ q).used else 0

/-- The header of an item (Table 12.13). -/
def SpqItem.header (i : SpqItem) : Word :=
  BitVec.ofNat 32 (i.words.length % 8192 + (i.prod % 64) * 16384 + (i.cnt % 256) * 16777216)

/-- Append an item whole, or drop it (R385); answers whether it was taken. With P1 withdrawn producers have stopped (R394). In
mode 1 the queue's vector is sent when no item was visible, and a read held for an item returns (R390). -/
def Dev.spqAppend (q prod : Nat) (ws : List Word) (d : Dev) : Bool × Dev :=
  let x := d.spqQ q
  if d.pub.withdrawn then (false, d)
  else if !d.rbit (Reg.SPQ_Q_CTRL q) 0 || decide (d.spqCredits q < 4 * ws.length) || decide (4096 ≤ x.held) then
    (false, (d.setSpq q { x with drops := min 65535 (x.drops + 1) }).bump (Reg.SPQ_DROP q) 1)
  else
    let i : SpqItem := { prod := prod, cnt := (x.count + 1) % 256, words := ws }
    let was := x.items.isEmpty
    let x := { x with items := x.items ++ [i], count := (x.count + 1) % 256 }
    let d := d.setSpq q x
    if !d.rbit (Reg.SPQ_Q_CTRL q) 1 then (true, d)
    else
      let d := if was then d.msix (80 + q) else d
      if x.stall.any (fun t => decide (d.raw ≤ t)) && was then
        (true, (d.setSpq q { x with items := [], inside := some (ws.length, ws), stall := none }).emit
          (.readData (Reg.SPQ_POP_HDR q) i.header))
      else (true, d)

end Sys2Proof.Machine
end

