-- ==== Sys2Proof/Machine/TbuOps.lean ====
section
/-! DEFINITION. The operations of the Time Base Unit (02_time_base.md): slot times, quality codes, qualification and
selection of sources, the servo, holdover and the two parts of a time step that concern the TBU alone. -/

namespace Sys2Proof.Machine

/-! ### Reporting rates and slot times (R51, Table 3.7) -/

/-- Reporting rate of a `RATE` code, in frames/s. -/
def rateOf (rc : Nat) : Nat := [10, 12, 15, 20, 25, 30, 50, 60, 100, 120, 200, 240].getD rc 10

/-- Slot time of slot `k` of rate `f`, in ns (R51). -/
def slotNs (f k : Nat) : Nat := k / f * 1000000000 + k % f * 1000000000 / f

/-- Slot time in 2^-16 ns, with the fraction of R51. -/
def slot16 (f k : Nat) : Nat := slotNs f k * 65536 + (k * 1000000000) % f * 65536 / f

/-- The first slot of rate `f` whose slot time is at or after `t` (2^-16 ns). -/
def firstSlot (f : Nat) (t : Int) : Nat :=
  let k := t.toNat * f / 65536000000000
  if t ≤ (slot16 f k : Nat) then k else k + 1

/-- The next raw count that is a multiple of 1 ms and later than now (R73). -/
def nextMs (raw : Nat) : Nat := (raw / 1000000 + 1) * 1000000

/-! ### Rate, error and quality -/

/-- The range of `rate` (R47). -/
def clampRate (r : Int) : Int := max (-549755813888) (min 549755813887 r)

/-- A rate history, newest first, without what a holdover can no longer ask for: the rates that ended more than 64 s before
`raw` (the longest detection of a loss, 28 s, and the 16 s of R70 fit in). -/
def recentRates (raw : Nat) : List (Nat × Int) → List (Nat × Int)
  | [] => []
  | (t, r) :: rest => if raw ≤ t + 64000000000 then (t, r) :: recentRates raw rest else [(t, r)]

/-- Change the rate from the next raw count on; derived time is continuous (R47, R48). -/
def Dev.setRate (r : Int) (d : Dev) : Dev :=
  let r := clampRate r
  { d with tbu := { d.tbu with anchor := d.derived, anchorRaw := d.raw, rate := r,
                               hist := (d.raw, r) :: recentRates d.raw d.tbu.hist } }

/-- The slew limit in units of 2^-48 (R67). -/
def Dev.slewUnits (d : Dev) : Int := (clampNat 1 1000 (d.fld Reg.TBU_SLEW 0 10) * 281474976710656 / 1000000 : Nat)

/-- The error still in derived time, in 2^-16 ns: the last measured error less what the phase term has removed. -/
def Dev.tbuErr (d : Dev) : Int :=
  d.tbu.err + Int.tdiv (((d.raw : Int) - (d.tbu.errRaw : Int)) * (d.tbu.rate - d.tbu.freq)) 4294967296

/-- Raw time since the last accepted measurement, ns (R70). -/
def Dev.sinceLock (d : Dev) : Nat := d.raw - d.tbu.lastAcc

/-- U of R70 in HOLDOVER, in ns. -/
def Dev.holdoverU (d : Dev) : Nat := d.tbu.uLock + d.fld Reg.TBU_HOLD 0 16 * d.sinceLock / 1000000000

/-- TIME_QUALITY and STAT time quality of Table 2.2, before the rule for `OFFSET_VALID`. -/
def qualCodes (sync u : Nat) : Nat × Nat :=
  if sync = 0 ∨ 10000000000 < u then (0xF, 7)
  else if u ≤ 1 then (if sync = 2 then (0, 1) else (1, 1))
  else if u ≤ 10 then (2, 1)
  else if u ≤ 100 then (3, 1)
  else if u ≤ 1000 then (4, 2)
  else if u ≤ 10000 then (5, 3)
  else if u ≤ 100000 then (6, 4)
  else if u ≤ 1000000 then (7, 5)
  else if u ≤ 10000000 then (8, 6)
  else if u ≤ 100000000 then (9, 7)
  else if u ≤ 1000000000 then (0xA, 7)
  else (0xB, 7)

/-- `TBU_UNCERT` (R70): all ones in FREERUN. -/
def Dev.uncert (d : Dev) : Nat := if d.tbu.sync = 0 then 0xFFFFFFFF else (d.reg Reg.TBU_UNCERT).toNat

/-- `TBU_UTC.OFFSET_VALID`. -/
def Dev.offsetValid (d : Dev) : Bool := d.rbit Reg.TBU_UTC 11

/-- The message code in force (R71). -/
def Dev.msgTq (d : Dev) : Nat :=
  let c := (qualCodes d.tbu.sync d.uncert).1
  if d.offsetValid then c else max c 0xB

/-- The STAT time quality in force. -/
def Dev.statTq (d : Dev) : Nat := (qualCodes d.tbu.sync d.uncert).2

/-- The STAT unlocked time in force (Table 2.2). -/
def Dev.unlocked (d : Dev) : Nat :=
  if d.tbu.sync = 0 then 3
  else if d.tbu.sync = 3 then
    let t := d.sinceLock
    if t < 10000000000 then 0 else if t < 100000000000 then 1 else if t < 1000000000000 then 2 else 3
  else 0

/-- `TBU_STATUS` (Table 2.6). -/
def Dev.tbuStatus (d : Dev) : Word :=
  BitVec.ofNat 32 (d.tbu.sync + d.tbu.src * 4 + d.tbu.ptpPort * 32 + (if d.tbu.slewing then 128 else 0)
    + d.statTq * 256 + d.unlocked * 2048 + d.msgTq * 8192 + (if d.tbu.disagree then 131072 else 0))

/-- The time-base values in force (R519). -/
def Dev.refVals (d : Dev) : RefVals :=
  { epoch := d.tbu.epoch, statTq := d.statTq, unlock := d.unlocked, msgTq := d.msgTq, sync := d.tbu.sync,
    utc := d.reg Reg.TBU_UTC, raw := d.raw }

/-- A TAI-UTC offset, signed (Table 2.4). -/
def utcOffset (w : Word) : Int := signedOf 8 (w.field 0 8)

/-! ### SYNC and sources (R53 to R55, R67 to R70) -/

/-- The value of `SYNC` that R68 gives. -/
def Dev.syncNow (d : Dev) : Nat :=
  if d.tbu.src = 0 then (if d.tbu.everLock then 3 else 0)
  else if d.tbuErr.natAbs ≤ d.fld Reg.TBU_LIMITS 0 10 * 65536 then 2 else 1

/-- Parameters of a `TIME_SOURCE` record. -/
def Dev.timeSource (kind v : Nat) (d : Dev) : Dev :=
  d.post 0x0004 [BitVec.ofNat 32 kind, BitVec.ofNat 32 v, d.reg Reg.TBU_SRC_OFFSET, BitVec.ofNat 32 d.uncert]

/-- Post a `TIME_ANCHOR` (R481): TAI and raw count sampled together. -/
def Dev.timeAnchor (d : Dev) : Dev :=
  let t := d.tick
  let s := t / 1000000000
  let d := d.post 0x0005 [BitVec.ofInt 32 s, BitVec.ofInt 32 (t % 1000000000),
    BitVec.ofNat 32 (d.tbu.epoch + (s / 4294967296 % 65536).toNat * 65536), BitVec.ofNat 32 (d.raw % 1000000)]
  { d with plg := { d.plg with lastAnchor := d.raw } }

/-- Set `SYNC`, reporting a change (R53, R481). -/
def Dev.setSync (n : Nat) (d : Dev) : Dev :=
  if n = d.tbu.sync then d
  else
    let d := { d with tbu := { d.tbu with sync := n, everLock := d.tbu.everLock || n == 2 } }
    let d := (d.raise Reg.TBU_EVT 0).timeSource 2 n
    if n = 2 then d.timeAnchor else d

/-- A source's state. -/
def Dev.srcS (n : Nat) (d : Dev) : SrcS := (KMap.get? d.tbu.srcs n).getD SrcS.new

/-- Store a source's state. -/
def Dev.setSrc (n : Nat) (x : SrcS) (d : Dev) : Dev := { d with tbu := { d.tbu with srcs := KMap.put d.tbu.srcs n x } }

/-- Whether a source exists on this device: a Braze parent only on a Braze child (Table 2.7). -/
def Dev.srcPresent (n : Nat) (d : Dev) : Bool :=
  n == 1 || n == 2 || n == 3 || (n == 4 && d.rbit Reg.BRZ_UP 0)

/-- The first source of the list that is qualified; 0: none (R53). -/
def Dev.bestSrc (d : Dev) : Nat :=
  (([0, 4, 8, 12].map (fun lo => d.fld Reg.TBU_SRC_CTRL lo 4)).find?
    (fun n => d.srcPresent n && (d.srcS n).qualified)).getD 0

/-- The source R53 selects now. -/
def Dev.wantedSrc (d : Dev) : Nat :=
  if !d.rbit Reg.TBU_SRC_CTRL 16 && d.tbu.src != 0 && (d.srcS d.tbu.src).qualified then d.tbu.src else d.bestSrc

/-- Offset in 2^-16 ns as `TBU_SRC_OFFSET` shows it: whole ns, saturating. -/
def offsetWord (o : Int) : Word := BitVec.ofInt 32 (max (-2147483648) (min 2147483647 (Int.tdiv o 65536)))

/-- Change the selected source (R53); the record carries the new source's own offset (Table 2.4). -/
def Dev.changeSrc (n : Nat) (d : Dev) : Dev :=
  if n = d.tbu.src then d
  else
    let d := { d with tbu := { d.tbu with src := n, slewing := d.tbu.slewing && n != 0 } }
    let d := if n = 0 then d else d.setReg Reg.TBU_SRC_OFFSET (offsetWord (d.srcS n).lastOff)
    (d.raise Reg.TBU_EVT 2).timeSource 1 n

/-- The servo sets the rate: the frequency estimate plus a phase term within the slew limit, against the error `o` (R67). How
the estimate and the size of the phase term follow from the measurements is open: both are free values. -/
def Dev.servo (o : Int) (d : Dev) : Dev :=
  if d.rbit Reg.TBU_CTRL 0 && !d.mgmt.restart then
    let (f, d) := d.drawI 1
    let (p, d) := d.drawN 2
    let p : Int := (min p d.slewUnits.toNat : Nat)
    let p := if 0 < o then -p else if o < 0 then p else 0
    let d := { d with tbu := { d.tbu with freq := clampRate f, slewing := p != 0 } }
    d.setRate (clampRate f + p)
  else d

/-- The phase term is dropped: the rate is the frequency estimate again, and what is left of the error stays (R67). -/
def Dev.dropPhase (d : Dev) : Dev :=
  ({ d with tbu := { d.tbu with err := d.tbuErr, errRaw := d.raw, slewing := false } }).setRate d.tbu.freq

/-- A slew ends once it has removed the error it began with (R67). -/
def Dev.slewEnd (d : Dev) : Dev :=
  if d.tbu.slewing && (decide (d.tbuErr = 0) || decide (d.tbuErr < 0) != decide (d.tbu.err < 0)) then d.dropPhase else d

/-- A measurement of the selected source is used: the error, its uncertainty, the servo and `SYNC` follow. With a Braze
parent the uncertainty is the parent's plus 50 ns plus the servo's own (R327). -/
def Dev.useMeasure (o : Int) (d : Dev) : Dev :=
  let (u, d) := d.drawN 3
  let u := if d.tbu.src = 4 then d.brz.upUncert + 50 + u else u
  let d := { d with tbu := { d.tbu with err := o, errRaw := d.raw, lastAcc := d.raw, uLock := u } }
  let d := d.setReg Reg.TBU_SRC_OFFSET (offsetWord o)
  let d := d.setReg Reg.TBU_UNCERT (BitVec.ofNat 32 (min u 0xFFFFFFFF))
  let d := d.servo o
  let d := { d with tbu := { d.tbu with err := o, errRaw := d.raw } }
  d.setSync d.syncNow

/-- Disarm the automatic step (R72). -/
def Dev.disarmStep (d : Dev) : Dev :=
  { d with tbu := { d.tbu with armed := false } }.setReg Reg.TBU_CTRL ((d.reg Reg.TBU_CTRL).setBit 2 false)

/-- Two qualified sources differ by more than `DISAGREE_US` (R55). -/
def Dev.disagreeNow (d : Dev) : Bool :=
  let qs := ([1, 2, 3, 4].filter (fun n => (d.srcS n).qualified)).map (fun n => (d.srcS n).lastOff)
  qs.any (fun a => qs.any (fun b => decide (d.fld Reg.TBU_LIMITS 16 16 * 65536000 < (a - b).natAbs)))

/-- Judge agreement of the qualified sources, once per episode (R55). -/
def Dev.judgeDisagree (d : Dev) : Dev :=
  let now := d.disagreeNow
  if now && !d.tbu.disagree then
    (({ d with tbu := { d.tbu with disagree := true } }).raise Reg.TBU_EVT 4).timeSource 3 d.tbu.src
  else { d with tbu := { d.tbu with disagree := now } }

/-- A qualification has made source `n` the selected one with error `o`: a step is decided or a slew begins, and the
automatic step is disarmed (R72). -/
def Dev.newlySelected (o : Int) (d : Dev) : Dev :=
  let limit := zeroActs 1 (d.fld Reg.TBU_CTRL 8 8) * 65536000000
  if d.rbit Reg.TBU_CTRL 1 && d.tbu.armed && decide (limit ≤ o.natAbs) then
    let d := d.disarmStep
    let due := nextMs d.raw
    let d := d.useMeasure o
    let d := if d.tbu.slewing then d.dropPhase else d
    if d.tbu.stepDue.any (fun s => s.host && s.due == due) then d
    else
      let x : StepDue := { ns := -(Int.tdiv o 65536), target := none, host := false, hdr := none, due := due }
      { d with tbu := { d.tbu with stepDue := d.tbu.stepDue.filter (fun s => s.host) ++ [x] } }
  else d.disarmStep.useMeasure o

/-- The mean of the servo's rate over the 16 s before the last accepted measurement (R70). -/
def meanRate (hist : List (Nat × Int)) (hi : Nat) : Int :=
  let lo := hi - 16000000000
  let rec go : List (Nat × Int) → Nat → Int → Int
    | [], _, acc => acc
    | (t, r) :: rest, upto, acc =>
      if upto ≤ t then go rest upto acc
      else
        let from_ := max t lo
        let acc := acc + r * ((upto - from_ : Nat) : Int)
        if t ≤ lo then acc else go rest t acc
  if hi = lo then 0 else Int.tdiv (go hist hi 0) ((hi - lo : Nat) : Int)

/-- No source is left (R69, R70): after a lock the servo's rate is held at its mean, the error estimate stands still, and the
uncertainty counts from the last accepted measurement; before any lock the rate stays. -/
def Dev.enterHoldover (d : Dev) : Dev :=
  if d.tbu.everLock then
    let d := { d with tbu := { d.tbu with err := d.tbuErr, errRaw := d.raw } }
    let d :=
      if d.rbit Reg.TBU_CTRL 0 then
        let r := clampRate (meanRate d.tbu.hist d.tbu.lastAcc)
        ({ d with tbu := { d.tbu with freq := r } }).setRate r
      else d
    d.setReg Reg.TBU_UNCERT (BitVec.ofNat 32 (min d.holdoverU 0xFFFFFFFF))
  else d.setReg Reg.TBU_UNCERT 0xFFFFFFFF

/-- A source is lost (R69): the next qualified one is selected and slewed to, since no qualification selects it (R72), or
HOLDOVER or FREERUN is entered. -/
def Dev.loseSrc (n : Nat) (d : Dev) : Dev :=
  let d := d.setSrc n { d.srcS n with qualified := false, offs := [], outRun := 0 }
  if n ≠ d.tbu.src then d.judgeDisagree
  else
    let m := d.bestSrc
    if m ≠ 0 then ((d.changeSrc m).useMeasure (d.srcS m).lastOff).judgeDisagree
    else
      let d := d.enterHoldover
      ((d.setSync (if d.tbu.everLock then 3 else 0)).changeSrc 0).judgeDisagree

/-- All of `os` lie within `band` of their mean. -/
def inBand (os : List Int) (band : Nat) : Bool :=
  let n : Int := (os.length : Nat)
  let s := os.foldl (· + ·) 0
  os.all (fun o => decide ((o * n - s).natAbs ≤ band * os.length))

/-- Selection after a qualification (R53, R72). -/
def Dev.reselect (d : Dev) : Dev :=
  let w := d.wantedSrc
  if w = d.tbu.src then d else (d.changeSrc w).newlySelected (d.srcS w).lastOff

/-- One offset measurement of a source, in 2^-16 ns: qualification (R54), loss after three outside the band (R69), use
of an accepted one by the servo when the source is selected (R67). -/
def Dev.measure (n : Nat) (o : Int) (d : Dev) : Dev :=
  let s := d.srcS n
  let band := d.fld Reg.TBU_SRC_CTRL 21 11 * 65536
  let qi := max 2 (d.fld Reg.TBU_SRC_CTRL 17 4)
  if s.qualified then
    let pred := if n = d.tbu.src then d.tbuErr else s.lastOff
    if band < (o - pred).natAbs then
      if 2 ≤ s.outRun then d.loseSrc n else d.setSrc n { s with outRun := s.outRun + 1, lastRaw := d.raw }
    else
      let d := d.setSrc n { s with outRun := 0, lastOff := o, lastRaw := d.raw, offs := (o :: s.offs).take qi }
      (if n = d.tbu.src then d.useMeasure o else d).judgeDisagree
  else
    let offs := (o :: s.offs).take qi
    if offs.length = qi && inBand offs band then
      let d := d.setSrc n { s with qualified := true, outRun := 0, lastOff := o, lastRaw := d.raw, offs := offs }
      d.reselect.judgeDisagree
    else d.setSrc n { s with offs := offs, lastOff := o, lastRaw := d.raw }

/-! ### Steps (R72 to R76) -/

/-- A backward step is large (R75): `shortNs` is the shortest reporting period of the active streams, or 100 ms. -/
def largeStep (ns : Int) (shortNs : Nat) : Bool := decide (ns < 0) && decide (shortNs < ns.natAbs)

/-- The next target of a comparator's sequence (R82): `period` in 2^-16 ns, `mode` 1 or 2. -/
def TevS.advance (t : TevS) (mode : Nat) (period : Nat) : TevS :=
  let nx := t.target + (period : Int)
  if mode = 2 && decide (t.base + 65536000000000 ≤ nx) then
    { t with target := t.base + 65536000000000, base := t.base + 65536000000000 }
  else { t with target := nx }

/-- After a backward step to `now`, the first target of a periodic sequence at or after the new time (R82). -/
def TevS.rewind (t : TevS) (mode : Nat) (period : Nat) (now : Int) : TevS :=
  if period = 0 then t
  else if mode = 1 then
    let n := max 0 ((now - t.first + (period : Int) - 1) / (period : Int))
    { t with target := t.first + n * (period : Int) }
  else
    let s := max 0 ((now - t.first) / 65536000000000)
    let base := t.first + s * 65536000000000
    let n := max 0 ((now - base + (period : Int) - 1) / (period : Int))
    let tg := base + n * (period : Int)
    if base + 65536000000000 ≤ tg then { t with target := base + 65536000000000, base := base + 65536000000000 }
    else { t with target := tg, base := base }

/-- `PERIOD` of a comparator in 2^-16 ns. -/
def Dev.tevPeriod (n : Nat) (d : Dev) : Nat :=
  (d.reg (Reg.TBU_TEV_PERIOD_NS n)).toNat * 65536 + d.fld (Reg.TBU_TEV_PERIOD_FRAC n) 0 16

/-- `MODE` of a comparator as it acts: 3 acts as 0, and so does any mode with a period of 0 (R82). -/
def Dev.tevMode (n : Nat) (d : Dev) : Nat :=
  let m := d.fld (Reg.TBU_TEV_CTRL n) 1 2
  if m = 3 || d.tevPeriod n = 0 then 0 else m

/-- Comparators after a backward step. -/
def Dev.rewindTevs (d : Dev) : Dev :=
  { d with tbu := { d.tbu with tevs := d.tbu.tevs.map (fun p =>
      (p.1, if d.tevMode p.1 = 0 then p.2 else p.2.rewind (d.tevMode p.1) (d.tevPeriod p.1) d.t16)) } }

/-- Strobes start from the first slot at or after `t` (R76). -/
def Dev.restartStrobes (d : Dev) : Dev :=
  let ks := (List.range 12).map (fun rc => (rc, firstSlot (rateOf rc) d.t16))
  { d with tbu := { d.tbu with nextSlot := ks, nextPre := ks } }

/-- The TBU's part of a step: derived time jumps, the epoch counts, and the step is reported (R74). -/
def Dev.stepTbu (st : StepDue) (large : Bool) (d : Dev) : Dev :=
  let now := match st.target with | some t => t * 281474976710656 | none => d.derived + st.ns * 281474976710656
  let d := { d with tbu := { d.tbu with anchor := now, anchorRaw := d.raw, epoch := (d.tbu.epoch + 1) % 65536 } }
  let d := { d with tbu := { d.tbu with stepTimes := d.tick :: d.tbu.stepTimes.take 63 } }
  let d := d.disarmStep
  let d := d.setReg Reg.TBU_STEP_STAT (BitVec.ofNat 32 (d.tbu.epoch + (if st.ns < 0 then 65536 else 0)
    + (if large then 131072 else 0) + (if st.host then 262144 else 0)))
  let d := d.setReg Reg.TBU_STEP_LAST_LO (lo32 (twos64 st.ns))
  let d := d.setReg Reg.TBU_STEP_LAST_HI (hi32 (twos64 st.ns))
  let d := d.raise Reg.TBU_EVT 1
  let d := d.post 0x0003 [lo32 (twos64 st.ns), hi32 (twos64 st.ns), BitVec.ofNat 32 (d.tbu.epoch
    + (if large then 65536 else 0) + (if st.host then 131072 else 0)), lo32 d.raw]
  let moved := d.tbu.srcs.map (fun p => (p.1, { p.2 with offs := [], lastOff := p.2.lastOff + st.ns * 65536 }))
  let d := { d with tbu := { d.tbu with srcs := moved, err := d.tbuErr + st.ns * 65536, errRaw := d.raw } }
  let d := if d.tbu.slewing then d.dropPhase else d
  let ptp := d.tbu.ptp.map (fun (p : Nat × PtpS) => (p.1, { p.2 with offs := [], fresh := none, t2 := none, t1p := none }))
  let d := { d with tbu := { d.tbu with ptp := ptp, pps := none, ppsSec := none }, brz := { d.brz with t1 := none } }
  if st.ns < 0 then d.rewindTevs.restartStrobes else d

/-! ### Leap seconds (R77) -/

/-- The UTC second of derived time (R50). -/
def Dev.utcSecond (d : Dev) : Int := d.tick / 1000000000 - utcOffset (d.reg Reg.TBU_UTC)

/-- A leap second is pending from the host (`src` 0) or the selected source (1): at the end of the UTC day now under way. -/
def Dev.setLeap (src : Nat) (deletion : Bool) (d : Dev) : Dev :=
  let day := if d.rbit Reg.TBU_UTC 8 then d.tbu.leapDay else d.utcSecond / 86400
  let d := { d with tbu := { d.tbu with leapSrc := src, leapDay := day } }
  (d.setField Reg.TBU_UTC 8 1 1).setField Reg.TBU_UTC 9 1 (if deletion then 1 else 0)

/-- The tick at which the pending leap takes effect: the end of its UTC day, a second earlier for a deletion. -/
def Dev.leapTick (d : Dev) : Int :=
  ((d.tbu.leapDay + 1) * 86400 + utcOffset (d.reg Reg.TBU_UTC) - (if d.rbit Reg.TBU_UTC 9 then 1 else 0)) * 1000000000

end Sys2Proof.Machine
end

