-- ==== Sys2Proof/Machine/NetOps.lean ====
section
/-! DEFINITION. The operations of the ports (03_network_ingest.md): queueing a frame on a pair or a port, starting the
next transmission, preemption and PAUSE, PRP duplicate discard, admission, and the host path. -/

namespace Sys2Proof.Machine

/-- A port's state. -/
def Dev.port (n : Nat) (d : Dev) : PortS := (KMap.get? d.net.ports n).getD PortS.new

/-- Store a port's state. -/
def Dev.setPort (n : Nat) (x : PortS) (d : Dev) : Dev := { d with net := { d.net with ports := KMap.put d.net.ports n x } }

/-- A port is enabled and its link is up. -/
def Dev.portUp (n : Nat) (d : Dev) : Bool := d.rbit (Reg.NET_CTRL n) 0 && (d.port n).link

/-- A port's PTP instance. -/
def Dev.ptpS (n : Nat) (d : Dev) : PtpS := KMap.getD d.tbu.ptp n PtpS.new

/-- Store a port's PTP instance. -/
def Dev.setPtp (n : Nat) (x : PtpS) (d : Dev) : Dev := { d with tbu := { d.tbu with ptp := KMap.put d.tbu.ptp n x } }

/-- The egress timestamp of a frame that leaves a port now (R61), in 2^-16 ns. -/
def Dev.egress (n : Nat) (d : Dev) : Int := d.t16 + (d.fld (Reg.TBU_PORT_TXLAT n) 0 24 * 256 : Nat)

/-- A PTP event message is stamped as it leaves (R62): Sync carries its egress time, Pdelay_Resp the turnaround, and the
egress time of Pdelay_Req is kept. -/
def Dev.ptpStamp (n : Nat) (f : TxFrame) (d : Dev) : TxFrame × Dev :=
  match f.body with
  | .ptp 0 dom _ b tlv => ({ f with body := .ptp 0 dom (d.egress n) b tlv }, d)
  | .ptp 3 dom a _ tlv => ({ f with body := .ptp 3 dom a (d.egress n - a) tlv }, d)
  | .ptp 2 _ _ _ _ => (f, d.setPtp n { d.ptpS n with t1p := some (d.egress n) })
  | _ => (f, d)

/-- Bytes a port sends in `t` ns, by its mode. -/
def Dev.portBytes (n t : Nat) (d : Dev) : Nat := if d.rbit (Reg.NET_CTRL n) 1 then t / 8 else t * 5 / 4

/-- Bit times of one PAUSE quantum, in ns (R103: 512 bit times). -/
def Dev.quantumNs (n q : Nat) (d : Dev) : Nat := if d.rbit (Reg.NET_CTRL n) 1 then q * 512 else q * 512 / 10

/-- Line time of a frame of `b` bytes with its preamble and gap, in ns. -/
def Dev.lineNs (n b : Nat) (d : Dev) : Nat := if d.rbit (Reg.NET_CTRL n) 1 then (b + 20) * 8 else (b + 20) * 4 / 5

/-- Line time of what stands ahead of a frame of class `cls` on a port: the frame in transmission, the one preempted, and
the frames of the preemptable queue that go before it (R307). -/
def Dev.aheadNs (n cls : Nat) (d : Dev) : Nat :=
  let p := d.port n
  let one (c : TxCur) : Nat := d.lineNs n (c.frame.len - c.sent)
  (p.cur.map one).getD 0 + (p.held.map one).getD 0
    + ((p.preempt.filter (fun f => decide (f.cls ≤ cls))).map (fun f => d.lineNs n f.len)).sum

/-- A published frame that starts later than it should is counted (R307). -/
def Dev.txLatest (f : TxFrame) (d : Dev) : Dev :=
  match f.latest with
  | some t => if t < d.raw then d.bump Reg.PUB_LAT_OVER 1 else d
  | none => d

/-- Whether a queue may start a frame now (R103). -/
def Dev.mayStartTx (n : Nat) (q : TxQueue) (d : Dev) : Bool :=
  let paused := (d.port n).pauseUntil.isSome
  match q with
  | .express => !(paused && d.rbit (Reg.NET_PAUSE_CTRL n) 8)
  | .preempt => !paused

/-- Start the next frame of an idle port: express frames first, then a preempted frame, then the preemptable queue
(R100, R101). -/
def Dev.startNext (n : Nat) (d : Dev) : Dev :=
  let p := d.port n
  if p.cur.isSome || !d.portUp n then d
  else
    match p.express with
    | f :: rest =>
      if d.mayStartTx n .express then
        let (f, d) := d.ptpStamp n f
        (d.setPort n { p with express := rest, cur := some { q := .express, frame := f, start := d.raw, sent := 0 } }).emit
          (.frame n .express f)
      else d
    | [] =>
      if !d.mayStartTx n .preempt then d
      else
        match p.held with
        | some c => d.setPort n { p with held := none, cur := some { c with start := d.raw } }
        | none =>
          match p.preempt with
          | f :: rest =>
            ((d.setPort n { p with preempt := rest, cur := some { q := .preempt, frame := f, start := d.raw, sent := 0 } }).emit
              (.frame n .preempt f)).txLatest f
          | [] => d

/-- An express frame preempts the preemptable frame in transmission: verification has succeeded, the fragment reaches
the least size and at least 64 bytes remain (R100). -/
def Dev.preemptNow (n : Nat) (d : Dev) : Dev :=
  let p := d.port n
  match p.cur with
  | some c =>
    let minFrag := (1 + p.addFrag) * 64
    let sent := max (c.sent + d.portBytes n (d.raw - c.start)) (c.sent + minFrag)
    if c.q = .preempt && d.rbit (Reg.NET_PREEMPT_STATUS n) 0 && p.held.isNone && decide (sent + 64 ≤ c.frame.len)
        && d.mayStartTx n .express then
      (d.setPort n { p with cur := none, held := some { c with sent := sent } }).bump (Reg.NET_TX_PREEMPTIONS n) 1
    else d
  | none => d

/-- Place a frame in the preemptable queue: published sets ahead of supervision frames, ahead of host frames; each kind
in order. -/
def placePreempt (f : TxFrame) : List TxFrame → List TxFrame
  | [] => [f]
  | g :: t => if f.cls < g.cls then f :: g :: t else g :: placePreempt f t

/-- Whether a port sends now: up, and in SAFE no frame that MACsec would protect (R520). -/
def Dev.txAllowed (n : Nat) (d : Dev) : Bool :=
  d.portUp n && (d.op != .safe || !d.rbit (Reg.NET_MACSEC_CTRL n) 0 || d.rbit (Reg.NET_MACSEC_CTRL n) 3)

/-- Queue a frame on one port. -/
def Dev.enqueue (n : Nat) (q : TxQueue) (f : TxFrame) (d : Dev) : Dev :=
  if d.txAllowed n then
    let p := d.port n
    match q with
    | .express => ((d.setPort n { p with express := p.express ++ [f] }).preemptNow n).startNext n
    | .preempt =>
      let f := { f with latest := f.latest.map (fun t => t + d.aheadNs n f.cls) }
      (d.setPort n { p with preempt := placePreempt f p.preempt }).startNext n
  else d

/-- Queue a frame on both ports of a pair with one RCT sequence number (R95). -/
def Dev.sendBoth (pair : Nat) (q : TxQueue) (cls len : Nat) (host latest : Option Nat) (body : TxBody) (d : Dev) : Dev :=
  let seq := if pair = 0 then d.net.seqA else d.net.seqB
  let nx := (seq + 1) % 65536
  let d := { d with net := if pair = 0 then { d.net with seqA := nx } else { d.net with seqB := nx } }
  let f : TxFrame := { body := body, prp := some seq, len := len, cls := cls, host := host, latest := latest }
  (d.enqueue (2 * pair) q f).enqueue (2 * pair + 1) q f

/-- Queue a frame on both ports of a pair that no latest start is set for. -/
def Dev.sendPair (pair : Nat) (q : TxQueue) (cls len : Nat) (host : Option Nat) (body : TxBody) (d : Dev) : Dev :=
  d.sendBoth pair q cls len host none body

/-- A port stops sending host frame `id`: its command completes when no port is left (R378). -/
def Dev.hostTxLeft (n id : Nat) (d : Dev) : Dev :=
  match d.net.hostTx.find? (fun p => p.2.1 == id) with
  | none => d
  | some (h, _, ports) =>
    let left := ports.filter (fun k => k != n)
    let others := d.net.hostTx.filter (fun p => p.2.1 != id)
    if left.isEmpty then ({ d with net := { d.net with hostTx := others } }).complete h 0x08 0 []
    else { d with net := { d.net with hostTx := (h, id, left) :: others } }

/-- Host frames of a port are gone with its link (R378). -/
def Dev.dropHostTx (n : Nat) (d : Dev) : Dev :=
  (d.net.hostTx.filter (fun p => p.2.2.contains n)).foldl (fun e p => e.hostTxLeft n p.2.1) d

/-! ### PRP (R93) -/

/-- The node table of a pair. -/
def Dev.nodes (pair : Nat) (d : Dev) : KMap PrpNode := if pair = 0 then d.net.nodesA else d.net.nodesB

/-- Store the node table of a pair. -/
def Dev.setNodes (pair : Nat) (m : KMap PrpNode) (d : Dev) : Dev :=
  { d with net := if pair = 0 then { d.net with nodesA := m } else { d.net with nodesB := m } }

/-- Entries of a pair's node table. -/
def nodeCap (pair : Nat) : Nat := if pair = 0 then 8192 else 256

/-- The first number from 0 that is no key. -/
def firstFree : List Nat → Nat → Nat
  | [], n => n
  | k :: t, n => if k = n then firstFree t (n + 1) else n

/-- The entry `allocate` takes (R93): a free one, or the one seen least recently among those not seen for
`FORGET_MS`. -/
def Dev.allocNode (pair : Nat) (d : Dev) : Option Nat :=
  let m := d.nodes pair
  if m.length < nodeCap pair then some (firstFree (KMap.keys m) 0)
  else
    let old := clampNat 10 65535 (d.fld (Reg.NET_PRP_CTRL pair) 0 16) * 1000000
    let cands := m.filter (fun p => decide (old ≤ d.raw - p.2.seen))
    (cands.foldl (fun (b : Option (Nat × PrpNode)) p =>
      match b with
      | none => some p
      | some q => if p.2.seen < q.2.seen then some p else b) none).map (fun p => p.1)

/-- Duplicate discard of a frame with an RCT from source `m` (R93); answers whether it is accepted. -/
def Dev.prpAccept (port m s : Nat) (d : Dev) : Bool × Dev :=
  let pair := port / 2
  match (d.nodes pair).find? (fun p => p.2.mac == m) with
  | none =>
    match d.allocNode pair with
    | none => (true, d.bump (Reg.NET_PRP_TABLE_FULL port) 1)
    | some k =>
      (true, d.setNodes pair (KMap.put (d.nodes pair) k { mac := m, highest := s, marks := 1, seen := d.raw }))
  | some (k, e) =>
    let diff : Int := signedOf 16 ((s + 65536 - e.highest) % 65536)
    let put (x : PrpNode) (d : Dev) : Dev := d.setNodes pair (KMap.put (d.nodes pair) k x)
    if 0 < diff then
      let marks := (e.marks <<< diff.toNat ||| 1) % 18446744073709551616
      (true, put { e with highest := s, marks := marks, seen := d.raw } d)
    else if -64 < diff && e.marks.testBit (-diff).toNat then
      (false, put { e with seen := d.raw } (d.bump (Reg.NET_PRP_DUP port) 1))
    else
      let marks := if -64 < diff then e.marks ||| 2 ^ (-diff).toNat else e.marks
      (true, put { e with marks := marks, seen := d.raw } d)

/-! ### The host path (R91) -/

/-- A frame is written to the host path of its port, or dropped and counted. -/
def Dev.hostPath (n : Nat) (idx : Nat) (f : RxFrame) (secure : Bool) (d : Dev) : Dev :=
  if !d.rbit (Reg.NET_CTRL n) 3 then d.bump (Reg.NET_HOST_DROP n) 1
  else
    let sc := match f.sec with | .tagged (some s) _ _ _ => s % 16 | _ => 0
    let hdr : List Word := [BitVec.ofNat 32 (n + f.len % 65536 * 65536),
      BitVec.ofNat 32 (idx % 65536 + ((if secure then 1 else 0) + sc * 2) * 65536)] ++ tickWords d.tick
    let (ok, d) := d.spqAppend (d.fld (Reg.NET_CTRL n) 8 6) n (hdr ++ f.words)
    if ok then d else d.bump (Reg.NET_HOST_DROP n) 1

end Sys2Proof.Machine
end

