-- ==== Sys2Proof/Machine/StmOps.lean ====
section
/-! DEFINITION. The operations of the stream table (03_network_ingest.md): entries and their versions, lookup, stream
states, the checks of a data frame and its conversion. -/

namespace Sys2Proof.Machine

/-! ### Entries (Table 3.7) -/

/-- BAR0 offset of word `w` of stream entry `i`. -/
def stmOff (i w : Nat) : Nat := 0x200000 + 64 * i + 4 * w

/-- BAR0 offset of a scale pool word. -/
def poolOff (k : Nat) : Nat := 0x280000 + 4 * k

/-- Word `n` of an entry. -/
def ew (e : List Word) (n : Nat) : Word := e.getD n 0

/-- `VALID`. -/
def eValid (e : List Word) : Bool := (ew e 0).bit 0
/-- `KIND`. -/
def eKind (e : List Word) : Nat := (ew e 0).field 1 3
/-- `PAIR`. -/
def ePair (e : List Word) : Nat := (ew e 0).field 4 1
/-- `PRIO`. -/
def ePrio (e : List Word) : Nat := (ew e 0).field 8 8
/-- `TILE`. -/
def eTile (e : List Word) : Nat := (ew e 0).field 16 5
/-- `TILE_AUTO`. -/
def eAuto (e : List Word) : Bool := (ew e 0).bit 21
/-- `RATE`. -/
def eRate (e : List Word) : Nat := (ew e 0).field 22 4
/-- `IDCODE`, `APPID` or `SRC_ID`. -/
def eId (e : List Word) : Nat := (ew e 1).field 0 16
/-- `FMT`. -/
def eFmt (e : List Word) : Nat := (ew e 6).field 0 4
/-- `PHNMR`. -/
def ePh (e : List Word) : Nat := (ew e 6).field 4 7
/-- `ANNMR`. -/
def eAn (e : List Word) : Nat := (ew e 6).field 11 5
/-- `DGNMR`. -/
def eDg (e : List Word) : Nat := (ew e 6).field 16 5
/-- `SRC_ADDR` as a number (R518). -/
def eAddr (e : List Word) : Nat :=
  (ew e 2).toNat + (ew e 3).toNat * 2 ^ 32 + (ew e 4).toNat * 2 ^ 64 + (ew e 5).toNat * 2 ^ 96
/-- `SCALE_PTR`. -/
def eScale (e : List Word) : Nat := (ew e 8).field 16 15

/-- Payload size P in bytes (R136). -/
def ePayload (e : List Word) : Nat :=
  if eKind e = 2 then 16 else (8 + 8 * ePh e + 4 * eAn e + 2 * eDg e + 3) / 4 * 4

/-- FRAMESIZE computed from an entry's layout (Table 3.4 row 3). -/
def eFrameSize (e : List Word) : Nat :=
  let f := eFmt e
  16 + (if f.testBit 1 then 8 else 4) * ePh e + (if f.testBit 3 then 8 else 4) + (if f.testBit 2 then 4 else 2) * eAn e
    + 2 * eDg e + 2

/-- Configuration words of an entry in a table `t`. -/
def entryIn (t : SMap) (i : Nat) : List Word := (List.range 12).map (fun w => SMap.get zeroW t (stmOff i w))

/-- Configuration words of an entry of the active copy. -/
def Dev.entry (i : Nat) (d : Dev) : List Word := entryIn d.act i

/-- Entries of a table with `VALID` = 1, in ascending index. -/
def validIn (t : SMap) : List Nat :=
  t.filterMap (fun p =>
    if 0x200000 ≤ p.1 ∧ p.1 < 0x280000 ∧ (p.1 - 0x200000) % 64 = 0 ∧ p.2.bit 0 = true then some ((p.1 - 0x200000) / 64)
    else none)

/-- The pool words an entry's layout refers to (R121). -/
def poolIn (t : SMap) (e : List Word) : List Word :=
  if eValid e && eKind e == 0 then
    (List.range (ePh e + eAn e)).map (fun j => SMap.get zeroW t (poolOff (eScale e + j)))
  else []

/-- The version of an entry that holds at a tick (R25, R121): the pending commit's at or after its instant, the previous
one before the instant of the last commit. -/
def Dev.entryAt (i : Nat) (t : Int) (d : Dev) : List Word :=
  let now := match KMap.get? d.stm.prev i with
    | some p => if t < p.inst then p.words.getD [] else d.entry i
    | none => d.entry i
  match d.stm.pend with
  | some p => if !p.validating && decide (p.inst ≤ t) then entryIn p.snap i else now
  | none => now

/-! ### Stream states (Table 3.8, R123, R124) -/

/-- `STATE` of a stream. -/
def Dev.streamState (i : Nat) (d : Dev) : Nat := (d.actW (stmOff i 12)).field 0 4

/-- Set a stream's change bit (R124). -/
def Dev.streamChanged (i : Nat) (d : Dev) : Dev := d.raise (Reg.STM_CHG (i / 32)) (i % 32)

/-- Set a stream's `STATE`; a change sets its change bit. -/
def Dev.setStreamState (i st : Nat) (d : Dev) : Dev :=
  if d.streamState i = st then d else (d.setActField (stmOff i 12) 0 4 st).streamChanged i

/-- A frame or ASDU of a stream is accepted. -/
def Dev.streamAccept (i : Nat) (d : Dev) : Dev :=
  let d := d.setAct (stmOff i 13) (d.actW (stmOff i 13) + 1)
  let d := d.setAct (stmOff i 15) (BitVec.ofInt 32 (d.tick / 1000))
  let d := { d with stm := { d.stm with fails := KMap.del d.stm.fails i, lastRx := KMap.put d.stm.lastRx i d.raw } }
  if d.streamState i = 5 then d else d.setStreamState i 2

/-- A failure under Table 3.4 or 3.6: `ERRORS`, `LAST_ERR`, and FORMAT_ERROR after four in a row. -/
def Dev.streamFail (i err : Nat) (d : Dev) : Dev :=
  let n := KMap.getD d.stm.fails i 0 + 1
  let d := d.setActField (stmOff i 14) 0 16 (min 65535 ((d.actW (stmOff i 14)).field 0 16 + 1))
  let d := d.setActField (stmOff i 12) 4 4 err
  let d := { d with stm := { d.stm with fails := KMap.put d.stm.fails i n } }
  if 4 ≤ n && d.streamState i != 5 then d.setStreamState i 4 else d

/-- A frame is discarded by the tile as a duplicate. -/
def Dev.streamDup (i : Nat) (d : Dev) : Dev :=
  d.setActField (stmOff i 14) 16 16 (min 65535 ((d.actW (stmOff i 14)).field 16 16 + 1))

/-- STAT[10] = 1: the configuration of the source changes (R111, R124). -/
def Dev.streamCfgChange (i : Nat) (d : Dev) : Dev :=
  if (d.actW (stmOff i 12)).bit 8 then d else (d.setActField (stmOff i 12) 8 1 1).streamChanged i

/-! ### Frame time and lookup (R108, R110, R121) -/

/-- The TAI-UTC offset in force at UTC second `soc` (R50, R77, R110). -/
def Dev.offsetFor (soc : Int) (leapBit : Bool) (d : Dev) : Int × Int :=
  let now := utcOffset (d.reg Reg.TBU_UTC)
  match d.tbu.leapAt with
  | none => (soc, now)
  | some (t, old) =>
    if leapBit && soc % 86400 == 86399 && decide (old < now) then (soc + 1, old)
    else if (soc + old) * 1000000000 < t then (soc, old) else (soc, now)

/-- Frame time of a C37.118 frame under a version's `TIME_BASE`, as a fraction of seconds (R110). -/
def Dev.c37Time (c : C37Frame) (e : List Word) (d : Dev) : Nat × Nat :=
  let tb := zeroActs 1 ((ew e 7).toNat)
  let (soc, off) := d.offsetFor (c.soc : Nat) (c.fracsec.bit 29)
  ((soc + off).toNat * tb + c.fracsec.field 0 24, tb)

/-- A time fraction is earlier than an instant in ns. -/
def timeBefore (num den : Nat) (inst : Int) : Bool := decide ((num : Int) * 1000000000 < inst * (den : Int))

/-- Whether an entry is a C37.118 entry with this key (R108). -/
def c37Key (e : List Word) (pair : Nat) (u : Udp) (idcode : Nat) : Bool :=
  eValid e && eKind e == 0 && ePair e == pair && (ew e 0).bit 5 == u.v6 && eAddr e == u.srcIp &&
    (ew e 1).field 16 16 == u.dport && eId e == idcode

/-- Whether an entry is a sampled-value entry with this key (R112). -/
def svKey (e : List Word) (pair src appid : Nat) : Bool :=
  eValid e && eKind e == 1 && ePair e == pair && (eAddr e) % 2 ^ 48 == src && eId e == appid

/-- What lookup finds (R121): a version of an entry, a discarded version, or nothing. -/
inductive Found where
  | none
  | version (i : Nat) (e : List Word) (pool : List Word)
  | retired (i : Nat)
  deriving DecidableEq, Repr

/-- Lookup by a key predicate and a version's frame time (R121): current keys first, previous keys second. -/
def Dev.lookup (key : List Word → Bool) (time : List Word → Nat × Nat) (d : Dev) : Found :=
  match (validIn d.act).find? (fun i => key (d.entry i)) with
  | some i =>
    let e := d.entry i
    let cur := Found.version i e (poolIn d.act e)
    match KMap.get? d.stm.prev i with
    | none => cur
    | some p =>
      let (n, q) := time e
      if !timeBefore n q p.inst then cur
      else
        match p.words with
        | some w => if key w then (if p.gone then .retired i else .version i w p.pool) else .none
        | none => .none
  | none =>
    match d.stm.prev.find? (fun p => !p.2.gone && (match p.2.words with | some w => key w | none => false)) with
    | some (i, p) =>
      let w := p.words.getD []
      let (n, q) := time w
      if timeBefore n q p.inst then .version i w p.pool else .none
    | none => .none

/-! ### Conversion (Table 3.5, R111) -/

/-- A 16-bit integer value and its validity (0x8000: missing). -/
def intVal (w : Word) : Int × Bool := (signedOf 16 (w.field 0 16), w.field 0 16 != 0x8000)

/-- Mark a value invalid unless `good`, or when it is a NaN. -/
def mkVal (w : Word) (good : Bool) : Val := { bits := w, ok := good && !F32.isNaN w }

/-- A phasor (Table 3.5). -/
def convPh (fmt : Nat) (scale : Word) (good : Bool) (p : Word × Word) : Val × Val :=
  let (a, b) := p
  if fmt.testBit 1 then
    if fmt.testBit 0 then
      let ok := good && !F32.isNaN a && !F32.isNaN b
      (mkVal (Config.polarRe a b) ok, mkVal (Config.polarIm a b) ok)
    else (mkVal a good, mkVal b good)
  else if fmt.testBit 0 then
    let m := F32.mul (F32.ofInt (a.field 0 16 : Nat)) scale
    let th := F32.ofFrac (signedOf 16 (b.field 0 16)) 10000
    let ok := good && a.field 0 16 != 0x8000 && b.field 0 16 != 0x8000
    (mkVal (Config.polarRe m th) ok, mkVal (Config.polarIm m th) ok)
  else
    let x := intVal a
    let y := intVal b
    (mkVal (F32.mul (F32.ofInt x.1) scale) (good && x.2), mkVal (F32.mul (F32.ofInt y.1) scale) (good && y.2))

/-- An accepted data frame's values under a version (R110, R111). -/
def convC37 (e : List Word) (pool : List Word) (c : C37Frame) : Payload :=
  let fmt := eFmt e
  let good := c.stat.toNat / 16384 == 0
  let sc (i : Nat) : Word := pool.getD i 0
  let fnom : Int := if (ew e 8).bit 0 then 50 else 60
  let fr := intVal c.freq
  let df := intVal c.dfreq
  { freq := if fmt.testBit 3 then mkVal c.freq good
      else mkVal (F32.add (F32.ofInt fnom) (F32.ofFrac fr.1 1000)) (good && fr.2)
    dfreq := if fmt.testBit 3 then mkVal c.dfreq good else mkVal (F32.ofFrac df.1 100) (good && df.2)
    ph := (c.ph.take (ePh e)).zipIdx.map (fun p => convPh fmt (sc p.2) good p.1)
    an := (c.an.take (eAn e)).zipIdx.map (fun p =>
      if fmt.testBit 2 then mkVal p.1 good
      else mkVal (F32.mul (F32.ofInt (intVal p.1).1) (sc (ePh e + p.2))) (good && (intVal p.1).2))
    dg := (c.dg.take (eDg e)).map (fun w => { bits := w, ok := good }) }

/-- Check 1 of Tables 3.4 and 3.6: how the frame came in. -/
def secureEnough (e : List Word) (secure : Bool) (sc : Option Nat) : Bool :=
  (!(ew e 10).bit 0 || secure) && (!(ew e 10).bit 1 || sc == some ((ew e 10).field 2 4))

/-- The checks of Table 3.4 in order; 0: all hold. The layout of a retired version is gone, so its size is not judged. -/
def c37Check (e : List Word) (c : C37Frame) (secure : Bool) (sc : Option Nat) (retired : Bool) : Nat :=
  if !secureEnough e secure sc then 6
  else if !c.chkOk then 2
  else if !retired && c.framesize != eFrameSize e then 1
  else if c.numPmu != 1 then 4
  else if retired then 5
  else 0

/-- The raw counts that `n` reporting periods of rate `f` take. -/
def periodsNs (n f : Nat) : Nat := n * 1000000000 / zeroActs 1 f

/-- Samples per second of a kind 1 `RATE` code (Table 3.7). -/
def svRate (rc : Nat) : Nat := [4000, 4800, 12800, 14400, 96000].getD rc 4000

/-- Reporting periods a stream may miss before it is stale, in raw counts (Table 3.8). -/
def Dev.staleNs (e : List Word) (d : Dev) : Nat :=
  let n := zeroActs 1 (d.fld Reg.STM_CTRL 8 8)
  periodsNs n (if eKind e = 1 then svRate (eRate e) else rateOf (eRate e))

/-- A frame that matches no entry goes to the host path at most 100 times a second, or is dropped (R108). -/
def Dev.noMatch (n : Nat) (f : RxFrame) (secure : Bool) (d : Dev) : Dev :=
  let d := d.bump Reg.STM_NOMATCH 1
  if !d.rbit Reg.STM_CTRL 1 then d
  else
    let d := if d.stm.nmStart + 1000000000 ≤ d.raw then { d with stm := { d.stm with nmStart := d.raw, nmCount := 0 } } else d
    if 100 ≤ d.stm.nmCount then d
    else
      let d := { d with stm := { d.stm with nmCount := d.stm.nmCount + 1 } }
      d.hostPath n 0xFFFF f secure

end Sys2Proof.Machine
end

