-- ==== Sys2Proof/Machine/EasOps.lean ====
section
/-! DEFINITION. The operations of the tiles and the alignment sequencer (04_stream_alignment.md): opening sets and their
deadlines, placing a frame, forming an image, homing and admission, and the failure of a tile. -/

namespace Sys2Proof.Machine

/-! ### Sets and deadlines (R125 to R130) -/

/-- `LEAD_SLOTS` as it acts. -/
def Dev.leadSlots (d : Dev) : Nat := clampNat 1 4 (d.fld Reg.EAS_CTRL 0 3)

/-- D1 in ns (R129). -/
def Dev.d1 (d : Dev) : Nat := max 10 (d.fld Reg.EAS_ALIGN 0 16) * 10000

/-- D2(F) in ns (R129). -/
def Dev.d2 (f : Nat) (d : Dev) : Nat :=
  min (zeroActs 1 (d.fld Reg.EAS_ALIGN 16 16) * 1000000) ((63 - d.leadSlots) * 1000000000 / f)

/-- A tile of the part is in service. -/
def Dev.tileOk (n : Nat) (fz : Fuse) (d : Dev) : Bool :=
  decide (n < fz.part.tiles) && ((KMap.get? d.eas.tiles n).getD TileS.new).cause == 0

/-- A tile's state. -/
def Dev.tile (n : Nat) (d : Dev) : TileS := (KMap.get? d.eas.tiles n).getD TileS.new

/-- Store a tile's state. -/
def Dev.setTile (n : Nat) (x : TileS) (d : Dev) : Dev := { d with eas := { d.eas with tiles := KMap.put d.eas.tiles n x } }

/-- Key of the cell of a stream for a slot (R127). -/
def cellKey (i k : Nat) : Nat := i * 64 + k % 64

/-- The cell of a stream when it serves slot `k`. -/
def Dev.cell (i k : Nat) (d : Dev) : Option Cell :=
  match KMap.get? d.eas.cells (cellKey i k) with
  | some c => if c.k = k then some c else none
  | none => none

/-- Store a cell. -/
def Dev.setCell (i : Nat) (c : Cell) (d : Dev) : Dev :=
  { d with eas := { d.eas with cells := KMap.put d.eas.cells (cellKey i c.k) c } }

/-- An empty cell of slot `k` in a member state. -/
def Cell.blank (k st : Nat) : Cell :=
  { k := k, st := st, num := 0, den := 1, stat := 0, mtq := 0, arrNs := 0, arrRaw := 0, pay := none, rev := 0,
    merged := false, ue := false, spUe := false, first := none }

/-- Streams that may be members at some slot: valid now, in a previous version or in the pending commit. -/
def Dev.streamIdx (d : Dev) : List Nat :=
  let cur := validIn d.act
  let old := (d.stm.prev.filter (fun p => !p.2.gone && !cur.contains p.1)).map (fun p => p.1)
  let new := match d.stm.pend with
    | some p => if p.validating then [] else (validIn p.snap).filter (fun i => !cur.contains i && !old.contains i)
    | none => []
  sortBy (fun a b => decide (a ≤ b)) (cur ++ old ++ new)

/-- Whether a stream is UNHOMED at a tick. -/
def Dev.unhomedAt (i : Nat) (t : Int) (d : Dev) : Bool :=
  match KMap.get? d.eas.unhomed i with
  | some (u, none) => decide (u ≤ t)
  | some (u, some v) => decide (u ≤ t) && decide (t < v)
  | none => false

/-- The home of a stream at a tick (R146, R150). -/
def Dev.homeAt (i : Nat) (t : Int) (d : Dev) : Option Nat :=
  match KMap.get? d.eas.moved i with
  | some (inst, h) => if t < inst then h else KMap.get? d.eas.homes i
  | none => KMap.get? d.eas.homes i

/-- Whether stream `i` is a member of set (rate code, k) (R125). -/
def Dev.isMember (i rc k : Nat) (d : Dev) : Bool :=
  let t : Int := (slotNs (rateOf rc) k : Nat)
  let e := d.entryAt i t
  eValid e && eKind e != 1 && eRate e == rc &&
    !d.unhomedAt i t

/-- Members of a set in ascending index. -/
def Dev.members (rc k : Nat) (d : Dev) : List Nat := d.streamIdx.filter (fun i => d.isMember i rc k)

/-- The open set of a rate code and slot. -/
def Dev.openSet? (rc k : Nat) (d : Dev) : Option SetS := d.eas.sets.find? (fun s => s.rc == rc && s.k == k)

/-- Replace an open set. -/
def Dev.putSet (s : SetS) (d : Dev) : Dev :=
  { d with eas := { d.eas with sets := d.eas.sets.map (fun x => if x.rc = s.rc ∧ x.k = s.k then s else x) } }

/-- Remove a closed set. -/
def Dev.dropSet (rc k : Nat) (d : Dev) : Dev :=
  { d with eas := { d.eas with sets := d.eas.sets.filter (fun x => !(x.rc == rc && x.k == k)) } }

/-- Whether a slot time carries the step flag (R74). -/
def Dev.stepFlag (t : Nat) (d : Dev) : Bool :=
  d.tbu.stepTimes.any (fun n => decide (n ≤ (t : Int)) && decide ((t : Int) < n + 1000000000))

/-- Division of integers, rounded up. -/
def intCeilDiv (a b : Int) : Int := -((-a) / b)

/-- Whether tables use a rate: a valid member stream, an enabled rule or an enabled output set of that rate. -/
def usesRate (t : SMap) (rc : Nat) : Bool :=
  t.any (fun p =>
    p.1 % 64 == 0 && p.2.bit 0 &&
      ((decide (0x200000 ≤ p.1) && decide (p.1 < 0x280000) && p.2.field 1 3 != 1 && p.2.field 22 4 == rc) ||
       (decide (0x2C0000 ≤ p.1) && decide (p.1 < 0x300000) && p.2.field 1 4 == rc) ||
       (decide (0x360000 ≤ p.1) && decide (p.1 < 0x364000) && p.2.field 7 4 == rc)))

/-- Whether the sets of a rate are opened (R306): the rate is in use, in the active tables or in a commit whose instant is
fixed. -/
def Dev.rateInUse (rc : Nat) (d : Dev) : Bool :=
  usesRate d.act rc || [d.stm.pend, d.sfl.pend].any (fun q => match q with
    | some p => !p.validating && usesRate p.snap rc
    | none => false)

/-- Open set (F, k) now, when its rate is in use, its slot time is later than derived time and its number has not been
opened (R128), and fix its deadlines on the raw counter (R129). Members in their re-homing gap start as LOST_REHOME (R154). -/
def Dev.openSet (rc k : Nat) (d : Dev) : Dev :=
  let f := rateOf rc
  let t48 : Int := (slot16 f k : Nat) * 4294967296
  let fresh := match KMap.get? d.eas.highest rc with | some h => decide (h < k) | none => true
  if !fresh || decide (t48 ≤ d.derived) || !d.rateInUse rc then d
  else
    let rk := d.raw + (intCeilDiv (t48 - d.derived) (281474976710656 + d.tbu.rate)).toNat
    let fin := if d.d2 f ≤ d.d1 then rk + d.d1 else rk + d.d2 f
    let s : SetS := { rc := rc, k := k, first := rk + d.d1, final := fin, done := false, image := [], refv := none,
                      flag := d.stepFlag (slotNs f k) }
    let d := { d with eas := { d.eas with sets := d.eas.sets ++ [s], highest := KMap.put d.eas.highest rc k } }
    let t : Int := (slotNs f k : Nat)
    (d.eas.gap.filter (fun p => decide (p.2.1 ≤ t) && decide (t < p.2.2) && d.isMember p.1 rc k)).foldl
      (fun e p => e.setCell p.1 (Cell.blank k 4)) d

/-- Start (or restart) alignment: the sets whose opening strobe has passed are opened at once (R128). -/
def Dev.startAlign (d : Dev) : Dev :=
  (List.range 12).foldl (fun e rc =>
    let f := rateOf rc
    let k0 := firstSlot f e.t16
    (List.range (e.leadSlots + 1)).foldl (fun e j =>
      let k := k0 + j
      if (slot16 f (k - e.leadSlots) : Nat) ≤ e.t16 then e.openSet rc k else e) e) d

/-! ### Placing a frame (R132, R133, Table 4.2) -/

/-- Slot number of a frame time `num / den` at rate `f` (R132). -/
def slotOf (f num den : Nat) : Nat := (2 * num * f + den) / (2 * den)

/-- Off grid (R132): the frame time is more than `tolUs` from its slot time. -/
def offGrid (f num den tolUs : Nat) : Bool :=
  let k := slotOf f num den
  let a : Int := (num * 65536000000000 : Nat)
  let b : Int := (slot16 f k * den : Nat)
  decide (tolUs * 65536000 * den < (a - b).natAbs)

/-- Merge one value of a kind 3 member: an invalid value gives way to a valid one (R141). -/
def mergeVal (a b : Val) : Val := if a.ok then a else if b.ok then b else a

/-- Merge lists of values. -/
def mergeVals : List Val → List Val → List Val
  | a :: as, b :: bs => mergeVal a b :: mergeVals as bs
  | as, _ => as

/-- Merge lists of phasors. -/
def mergePh : List (Val × Val) → List (Val × Val) → List (Val × Val)
  | a :: as, b :: bs => (mergeVal a.1 b.1, mergeVal a.2 b.2) :: mergePh as bs
  | as, _ => as

/-- Merge lists of digital words. -/
def mergeDigs : List Dig → List Dig → List Dig
  | a :: as, b :: bs => (if a.ok || !b.ok then a else b) :: mergeDigs as bs
  | as, _ => as

/-- Merge a higher revision of a kind 3 payload. -/
def mergePayload (a b : Payload) : Payload :=
  { freq := mergeVal a.freq b.freq, dfreq := mergeVal a.dfreq b.dfreq, ph := mergePh a.ph b.ph, an := mergeVals a.an b.an,
    dg := mergeDigs a.dg b.dg }

/-- Mark the values of a payload whose byte offset (R136) meets `bad` invalid (R139). -/
def markPayload (bad : Nat → Bool) (p : Payload) : Payload :=
  let v (b : Nat) (x : Val) : Val := { x with ok := x.ok && !bad b }
  let a0 := 8 + 8 * p.ph.length
  let d0 := a0 + 4 * p.an.length
  { freq := v 0 p.freq, dfreq := v 4 p.dfreq, ph := p.ph.zipIdx.map (fun q => (v (8 + 8 * q.2) q.1.1, v (12 + 8 * q.2) q.1.2)),
    an := p.an.zipIdx.map (fun q => v (a0 + 4 * q.2) q.1),
    dg := p.dg.zipIdx.map (fun q => { q.1 with ok := q.1.ok && !bad (d0 + 2 * q.2) }) }

/-- A cell's payload as it is read: an error in tile SRAM takes the values of its first 48 bytes, one in the spill cell the
rest; a spill-only stream holds all of them in its spill cell (R137, R139). -/
def Dev.readPayload (i : Nat) (c : Cell) (p : Payload) (d : Dev) : Payload :=
  let sram := if d.eas.spill.contains i then 0 else 48
  if c.ue || c.spUe then markPayload (fun b => if b < sram then c.ue else c.spUe) p else p

/-- A frame is placed: latency figures of R135. -/
def Dev.placedLatency (tile arrRaw : Nat) (d : Dev) : Dev :=
  let t := d.raw - arrRaw
  let d := d.keepMax (Reg.EAS_LAT_MAX tile) t 65535
  if 40000 < t then d.bump (Reg.EAS_LAT_OVER tile) 1 else d

/-- The tile handles a frame by the first row of Table 4.2 that applies. Answers the set it reached, when it was placed
before first look. -/
def Dev.placeFrame (tile : Nat) (fr : TileFrame) (d : Dev) : Option (Nat × Nat) × Dev :=
  let e := d.entryAt fr.idx ((fr.num * 1000000000 / fr.den : Nat) : Int)
  let rc := eRate e
  let f := rateOf rc
  let k := slotOf f fr.num fr.den
  if offGrid f fr.num fr.den (zeroActs 1 (d.fld Reg.EAS_CTRL 8 8)) then (none, d.bump (Reg.EAS_OFFGRID tile) 1)
  else
    match d.openSet? rc k with
    | none =>
      let above := match KMap.get? d.eas.highest rc with | some h => decide (h < k) | none => true
      (none, d.bump (if above then Reg.EAS_EARLY tile else Reg.EAS_TOOLATE tile) 1)
    | some s =>
      if !d.isMember fr.idx rc k then (none, d.bump (Reg.EAS_TOOLATE tile) 1)
      else
        let c := (d.cell fr.idx k).getD (Cell.blank k 0)
        if c.st = 3 ∨ c.st = 4 then (none, d.bump Reg.EAS_REHOME_DROP 1)
        else if c.pay.isSome then
          if eKind e = 3 && decide (c.rev < fr.rev) then
            let p := mergePayload (d.readPayload fr.idx c (c.pay.getD fr.pay)) fr.pay
            (none, d.setCell fr.idx { c with pay := some p, rev := fr.rev, merged := c.merged || s.done, ue := false, spUe := false })
          else (none, d.streamDup fr.idx)
        else
          let st := if s.done then 2 else 1
          let c : Cell := { k := k, st := st, num := fr.num, den := fr.den, stat := fr.stat, mtq := fr.mtq,
                            arrNs := fr.arrNs, arrRaw := fr.arrRaw, pay := some fr.pay, rev := fr.rev, merged := false,
                            ue := false, spUe := false, first := none }
          let d := (d.setCell fr.idx c).wrapAdd (Reg.EAS_RX tile) 1
          let d := if s.done then d.bump (Reg.EAS_LATE tile) 1 else d
          (if s.done then none else some (rc, k), d.placedLatency tile fr.arrRaw)

/-! ### Images (R140, R141) -/

/-- A member's record in an image; at first look only ON_TIME members are present. -/
def Dev.imgMember (i rc k : Nat) (d : Dev) : ImgMember :=
  match d.cell i k with
  | none => { idx := i, st := 0, mask := false, mtq := 0, stat := 0, arrival := none, pay := none }
  | some c =>
    let there := (c.st == 1 || c.st == 2) && c.pay.isSome
    { idx := i, st := c.st, mask := there, mtq := c.mtq, stat := c.stat,
      arrival := if there then some (c.arrNs - (slotNs (rateOf rc) k : Nat)) else none
      pay := if there then c.pay.map (fun p => d.readPayload i c p) else none }

/-- The image of a set now. -/
def Dev.imageOf (rc k : Nat) (d : Dev) : List ImgMember := (d.members rc k).map (fun i => d.imgMember i rc k)

/-- Whether a member changed after first look (R141). -/
def Dev.memberChanged (i k : Nat) (d : Dev) : Bool :=
  match d.cell i k with
  | some c => c.st == 2 || c.merged
  | none => false

/-- The reference values of a set: those of its last strobe, or those of now (R519). -/
def SetS.ref (s : SetS) (d : Dev) : RefVals := s.refv.getD d.refVals

/-- The archived images of a set (R304). -/
def Dev.archSet? (rc k : Nat) (d : Dev) : Option ArchSet := d.eas.arch.find? (fun a => a.rc == rc && a.k == k)

/-- File a set's revision 0 image, dropping the sets whose slot time lies more than 7 s back. -/
def Dev.archive (a : ArchSet) (d : Dev) : Dev :=
  let old := d.eas.arch.filter (fun x => decide (d.tick < (slotNs (rateOf x.rc) x.k : Nat) + 7000000000))
  { d with eas := { d.eas with arch := a :: old } }

/-- File a set's final image. -/
def Dev.archiveFinal (rc k : Nat) (im : List ImgMember) (d : Dev) : Dev :=
  { d with eas := { d.eas with arch := d.eas.arch.map (fun a => if a.rc = rc ∧ a.k = k then { a with fin := some im } else a) } }

/-! ### Homing and admission (R146 to R151, Table 4.6) -/

/-- Load of a tile: streams, frames/s, phasor values/s. -/
structure TileLoad where
  n   : Nat
  fps : Nat
  phv : Nat
  deriving DecidableEq, Repr

/-- Frames per second of an entry. -/
def eFps (e : List Word) : Nat := rateOf (eRate e)

/-- Phasor values per second of an entry (kind 2 carries one phasor, R136). -/
def ePhv (e : List Word) : Nat := (if eKind e = 2 then 1 else ePh e) * rateOf (eRate e)

/-- The load of a tile under a homing. -/
def loadOf (ent : Nat → List Word) (homes : KMap Nat) (tile : Nat) : TileLoad :=
  homes.foldl (fun l p =>
    if p.2 = tile then { n := l.n + 1, fps := l.fps + eFps (ent p.1), phv := l.phv + ePhv (ent p.1) } else l)
    { n := 0, fps := 0, phv := 0 }

/-- Whether a tile admits a stream (Table 4.6); `deg` uses the DEGRADED column. -/
def admits (deg spill : Bool) (l : TileLoad) (e : List Word) : Bool :=
  decide (l.n + 1 ≤ (if deg && spill then 264 else 256)) && decide (l.fps + eFps e ≤ 16384) &&
    decide (l.phv + ePhv e ≤ 524288) && (spill || decide (ePayload e ≤ 48))

/-- Tiles in order of phasor-value load, then frame rate, then number (R147, R153). -/
def tileOrder (ent : Nat → List Word) (homes : KMap Nat) (tiles : List Nat) : List Nat :=
  let key (t : Nat) : Nat × Nat × Nat := let l := loadOf ent homes t; (l.phv, l.fps, t)
  let le (a b : Nat × Nat × Nat) : Bool :=
    decide (a.1 < b.1) || (a.1 == b.1 && (decide (a.2.1 < b.2.1) || (a.2.1 == b.2.1 && decide (a.2.2 ≤ b.2.2))))
  (sortBy (fun x y => le x.2 y.2) (tiles.map (fun t => (t, key t)))).map (fun p => p.1)

/-- The first tile in order that admits a stream. -/
def autoTile (deg spill : Bool) (ent : Nat → List Word) (homes : KMap Nat) (tiles : List Nat) (i : Nat) : Option Nat :=
  (tileOrder ent homes tiles).find? (fun t => admits deg spill (loadOf ent homes t) (ent i))

/-- Streams by decreasing `PRIO`, then increasing index. -/
def prioOrder (ent : Nat → List Word) (is : List Nat) : List Nat :=
  sortBy (fun a b => decide (ePrio (ent b) < ePrio (ent a)) || (ePrio (ent a) == ePrio (ent b) && decide (a ≤ b))) is

/-- What a homing decision gives: homes, streams left UNHOMED, and the first stream whose failure refuses the commit. -/
structure Homing where
  homes   : KMap Nat
  unhomed : List Nat
  failed  : Option Nat
  deriving DecidableEq, Repr

/-- The homing decision of R147 over tiles `tiles`: `old` are the homes before, `wasUn` the streams UNHOMED before,
`keep i` says that a stream's request has not changed, and `late` decides again after a tile failed (R151). -/
def homing (deg spill late : Bool) (ent : Nat → List Word) (valid : List Nat) (old : KMap Nat) (wasUn : List Nat)
    (keep : Nat → Bool) (tiles : List Nat) : Homing :=
  let kept := valid.foldl (fun (h : KMap Nat) i =>
    match KMap.get? old i with
    | some t => if keep i && tiles.contains t && admits deg spill (loadOf ent h t) (ent i) then KMap.put h i t else h
    | none => h) []
  let rest := valid.filter (fun i => !KMap.has kept i)
  let fixed := rest.filter (fun i => !eAuto (ent i) && !(deg && !tiles.contains (eTile (ent i))))
  let auto := prioOrder ent (rest.filter (fun i => !fixed.contains i))
  let fail (h : Homing) (i : Nat) : Homing :=
    if late || wasUn.contains i then { h with unhomed := h.unhomed ++ [i] }
    else { h with failed := h.failed <|> some i }
  let h0 : Homing := { homes := kept, unhomed := [], failed := none }
  let h1 := fixed.foldl (fun h i =>
    let t := eTile (ent i)
    if tiles.contains t && admits deg spill (loadOf ent h.homes t) (ent i) then { h with homes := KMap.put h.homes i t }
    else fail h i) h0
  auto.foldl (fun h i =>
    match autoTile deg spill ent h.homes tiles i with
    | some t => { h with homes := KMap.put h.homes i t }
    | none => fail h i) h1

/-- Tiles of the part in service. -/
def Dev.tilesOk (fz : Fuse) (d : Dev) : List Nat := (List.range fz.part.tiles).filter (fun t => d.tileOk t fz)

/-- `EAS_CTRL.SPILL_EN`. -/
def Dev.spillEn (d : Dev) : Bool := d.rbit Reg.EAS_CTRL 3

/-- Show a stream's home in its entry (`HOMED_TILE`). -/
def Dev.showHome (i t : Nat) (d : Dev) : Dev := d.setActField (stmOff i 12) 16 5 t

/-- A stream becomes UNHOMED. -/
def Dev.unhome (i : Nat) (d : Dev) : Dev :=
  ({ d with eas := { d.eas with unhomed := KMap.put d.eas.unhomed i (d.tick, none), homes := KMap.del d.eas.homes i } }).setStreamState i 5

/-! ### The failure of a tile (R152 to R157) -/

/-- What the fault does to a member's cell of one open set (R152). -/
def Dev.faultCell (s : SetS) (i : Nat) (d : Dev) : Dev :=
  match d.cell i s.k with
  | none => d.setCell i (Cell.blank s.k 3)
  | some c =>
    if !s.done then d.setCell i { Cell.blank s.k 3 with k := s.k }
    else if c.st = 1 then d.setCell i { c with pay := c.first <|> c.pay, merged := false }
    else if c.st = 0 ∨ c.st = 2 then d.setCell i (Cell.blank s.k 3)
    else d

/-- Tick of the third slot time of rate `f` later than `t` (R154). -/
def thirdSlot (f : Nat) (t : Int) : Int :=
  let k := firstSlot f ((t + 1) * 65536)
  (slotNs f (k + 2) : Nat)

/-- Re-home one stream of a failed tile, or make it UNHOMED (R153, R154); `stop` says that an earlier stream could not
be placed. Answers whether it was placed. -/
def Dev.rehomeOne (fz : Fuse) (i : Nat) (stop : Bool) (d : Dev) : Bool × Dev :=
  match (if stop then none else autoTile true d.spillEn (fun j => d.entry j) d.eas.homes (d.tilesOk fz) i) with
  | some t =>
    let full := decide (256 ≤ (loadOf (fun j => d.entry j) d.eas.homes t).n)
    let e := d.entry i
    let spill := if full then (i :: d.eas.spill) else d.eas.spill
    let d := { d with eas := { d.eas with homes := KMap.put d.eas.homes i t, spill := spill,
                                          gap := KMap.put d.eas.gap i (d.tick, thirdSlot (eFps e) d.tick) } }
    (true, (d.showHome i t).streamChanged i)
  | none => (false, d.unhome i)

/-- Re-home the streams of a failed tile in order; answers how many were placed and how many became UNHOMED. -/
def Dev.rehomeAll (fz : Fuse) : List Nat → Nat → Nat → Dev → (Nat × Nat) × Dev
  | [], a, b, d => ((a, b), d)
  | i :: t, a, b, d =>
    let (ok, d) := d.rehomeOne fz i (decide (0 < b))
    if ok then Dev.rehomeAll fz t (a + 1) b d else Dev.rehomeAll fz t a (b + 1) d

/-- A tile fails with a cause of Table 4.7: its data is lost, its streams are re-homed and the fault is reported
(R152, R153, R156). -/
def Dev.tileFault (fz : Fuse) (tile cause : Nat) (d : Dev) : Dev :=
  if !d.tileOk tile fz then d
  else
    let x := d.tile tile
    let d := d.bump (Reg.EAS_INQ_DROP tile) x.inq.length
    let d := d.setTile tile { x with cause := cause, inq := [] }
    let mine := (d.eas.homes.filter (fun p => p.2 == tile)).map (fun p => p.1)
    let d := d.eas.sets.foldl (fun e s =>
      let here (i : Nat) : Bool := e.homeAt i ((slotNs (rateOf s.rc) s.k : Nat) : Int) == some tile
      ((e.members s.rc s.k).filter here).foldl (fun e i => e.faultCell s i) e) d
    let homes := d.eas.homes.filter (fun p => p.2 != tile)
    let moved := d.eas.moved.map (fun p => (p.1, p.2.1, if p.2.2 = some tile then none else p.2.2))
    let d := { d with eas := { d.eas with homes := homes, moved := moved, spill := d.eas.spill.filter (fun i => !mine.contains i) } }
    let d := (if cause = 5 then d else d.raise Reg.EAS_FAULT_EVT tile).unitFailed 0
    let ((a, b), d) := d.rehomeAll fz (prioOrder (fun j => d.entry j) mine) 0 0
    let d := d.post 0x0010 [BitVec.ofNat 32 (tile + cause * 256), BitVec.ofNat 32 (a + b * 65536), lo32 d.raw, hi32 d.raw]
    if cause = 5 then d
    else d.notice 0xE0 [BitVec.ofNat 32 (tile + cause * 256 + a * 65536), BitVec.ofNat 32 b, lo32 d.raw, hi32 d.raw]

/-- An uncorrectable SRAM error of a tile is counted; `UE_LIMIT` of them within 1 s fail the tile (Table 4.7). -/
def Dev.tileUe (fz : Fuse) (tile : Nat) (d : Dev) : Dev :=
  let x := d.tile tile
  let ues := d.raw :: x.ues.filter (fun t => decide (d.raw < t + 1000000000))
  let d := (d.setTile tile { x with ues := ues }).bump (Reg.EAS_SRAM_UE tile) 1
  if zeroActs 1 (d.fld Reg.EAS_CTRL 16 4) ≤ ues.length then d.tileFault fz tile 1 else d

end Sys2Proof.Machine
end

