-- ==== Sys2Proof/Machine/F64.lean ====
section
/-! DEFINITION. The binary64 arithmetic of derived operands (R196, R180): a finite binary64 value is held as an integer
count of 2^-1074, every operation is rounded to nearest-even, and a result is rounded once to binary32. Values reached
from binary32 operands stay far below the largest binary64 value, so no operation overflows. -/

namespace Sys2Proof.Machine

/-- The scale of a binary64 value. -/
def F64.one : Nat := 2 ^ 1074

/-- Round the fraction `n / q`, in units of 2^-1074, to a binary64 value. -/
def F64.round (n : Int) (q : Nat) : Int :=
  let a := n.natAbs
  let whole := a / q
  let m : Nat :=
    if whole < 9007199254740992 then divRne a q
    else
      let e := Nat.log2 whole - 52
      divRne a (q * 2 ^ e) * 2 ^ e
  if n < 0 then -(m : Int) else m

/-- A finite binary32 value as binary64, exactly. -/
def F64.ofF32 (w : Word) : Int := F32.num w * (2 ^ 925 : Nat)

/-- A binary64 value rounded to binary32. -/
def F64.toF32 (a : Int) : Word := F32.round a F64.one false

/-- Sum. -/
def F64.add (a b : Int) : Int := F64.round (a + b) 1

/-- Product. -/
def F64.mul (a b : Int) : Int := F64.round (a * b) F64.one

/-- Quotient by a positive whole number. -/
def F64.divNat (a : Int) (n : Nat) : Int := F64.round a (max 1 n)

/-- The square root of `n` rounded down, one binary digit of the root at a time from digit `k - 1` down. -/
def isqrt : Nat → Nat → Nat → Nat
  | 0, _, r => r
  | k + 1, n, r =>
    let t := r + 2 ^ k
    if t * t ≤ n then isqrt k n t else isqrt k n r

/-- Square root of a value that is not negative: the exact root is rounded from 60 significant digits with a sticky
digit. -/
def F64.sqrt (a : Int) : Int :=
  let n := a.natAbs
  if n = 0 then 0
  else
    -- sqrt(n / 2^1074) in units of 2^-1074 is sqrt(n * 2^1074)
    let x := n * 2 ^ 1074 * 2 ^ 16
    let r := isqrt (Nat.log2 x / 2 + 1) x 0
    let sticky := if r * r = x then 0 else 1
    F64.round ((2 * r + sticky : Nat) : Int) 512

/-- The magnitude of a phasor: its square root in binary64, rounded once (R196). -/
def magF32 (re im : Word) : Word :=
  let x := F64.ofF32 re
  let y := F64.ofF32 im
  F64.toF32 (F64.sqrt (F64.add (F64.mul x x) (F64.mul y y)))

/-- Sum of binary32 values in binary64, in order. -/
def F64.sum (ws : List Word) : Int := ws.foldl (fun a w => F64.add a (F64.ofF32 w)) 0

/-- Mean of binary32 values in binary64, rounded once. -/
def meanF32 (ws : List Word) : Word := F64.toF32 (F64.divNat (F64.sum ws) ws.length)

end Sys2Proof.Machine
end

