-- ==== Sys2Proof/Machine/PubOps.lean ====
section
/-! DEFINITION. The operations of the Publisher (10_publishing_and_braze.md): output sets and their members, the blocks
and frames of a set, tags and hash chains, and the sending of an alarm message. -/

namespace Sys2Proof.Machine

/-! ### Output sets (Tables 10.1, 10.2) -/

/-- Word `w` of output set `s` in a table. -/
def outIn (t : SMap) (s w : Nat) : Word := SMap.get zeroW t (0x360000 + 64 * s + 4 * w)

/-- The tables that hold for a slot time in ns: those before the last commit for an earlier slot (R25). -/
def Dev.tabAt (t : Int) (d : Dev) : SMap := if t < d.stm.inst then d.stm.prevOut else d.act

/-- Word 0 fields of an output set. -/
def oEn (t : SMap) (s : Nat) : Bool := (outIn t s 0).bit 0
/-- `FORM`. -/
def oForm (t : SMap) (s : Nat) : Nat := (outIn t s 0).field 1 2
/-- `PAIR`. -/
def oPair (t : SMap) (s : Nat) : Nat := (outIn t s 0).field 3 1
/-- `AMEND`. -/
def oAmend (t : SMap) (s : Nat) : Nat := (outIn t s 0).field 5 2
/-- `RATE`. -/
def oRate (t : SMap) (s : Nat) : Nat := (outIn t s 0).field 7 4
/-- `MBR_BASE`. -/
def oBase (t : SMap) (s : Nat) : Nat := (outIn t s 7).field 0 12
/-- `MBR_COUNT`. -/
def oCount (t : SMap) (s : Nat) : Nat := (outIn t s 7).field 16 8
/-- `TAG_SLOT`. -/
def oTagSlot (t : SMap) (s : Nat) : Nat := (outIn t s 8).field 0 8
/-- `SEAL_SLOT`. -/
def oSealSlot (t : SMap) (s : Nat) : Nat := (outIn t s 8).field 8 8

/-- A member pool entry (Table 10.2). -/
structure PoolMember where
  stream : Nat
  nph    : Nat
  nan    : Nat
  ndg    : Nat
  first  : Nat
  deriving DecidableEq, Repr

/-- Member pool entry `m` of a table. -/
def poolMember (t : SMap) (m : Nat) : PoolMember :=
  let w := SMap.get zeroW t (0x364000 + 8 * m)
  { stream := w.field 0 13, nph := w.field 13 7, nan := w.field 20 5, ndg := w.field 25 5,
    first := (SMap.get zeroW t (0x364004 + 8 * m)).field 0 6 }

/-- The members of an output set in pool order. -/
def oMembers (t : SMap) (s : Nat) : List PoolMember := (List.range (oCount t s)).map (fun j => poolMember t (oBase t s + j))

/-- Enabled output sets of a table, ascending. -/
def setsIn (t : SMap) : List Nat :=
  t.filterMap (fun p =>
    if 0x360000 ≤ p.1 ∧ p.1 < 0x364000 ∧ (p.1 - 0x360000) % 64 = 0 ∧ p.2.bit 0 = true then some ((p.1 - 0x360000) / 64)
    else none)

/-! ### Blocks (R304, R309, Table 10.4) -/

/-- Which image of a set is read: revision 0 or the final one. -/
inductive Look where
  | first | final
  deriving DecidableEq, Repr

/-- The image of set (rc, k) at a look: the frozen one, or the cells as they stand when the look is due now. -/
def Dev.imageAt (look : Look) (rc k : Nat) (d : Dev) : Option (List ImgMember) :=
  match d.openSet? rc k, d.archSet? rc k, look with
  | _, some a, .first => some a.rev0
  | _, some a, .final => some (a.fin.getD (d.imageOf rc k))
  | some _, none, _ => some (d.imageOf rc k)
  | none, none, _ => none

/-- A member's record at slot `k` of rate `rc`: read from its own rate's set with the same slot time (R304). -/
def Dev.memberAt (look : Look) (rc k i : Nat) (d : Dev) : Option ImgMember :=
  let e := d.entryAt i ((slotNs (rateOf rc) k : Nat) : Int)
  let km := k * rateOf (eRate e) / zeroActs 1 (rateOf rc)
  match d.imageAt look (eRate e) km with
  | some im => im.find? (fun m => m.idx == i)
  | none => none

/-- A quiet NaN stands for an invalid value. -/
def wireVal (v : Val) : Word := if v.ok then v.bits else F32.nan

/-- A member's block (Table 10.4). A digital word of a member without values is a free value (log entry 13). -/
def Dev.block (look : Look) (t : SMap) (s rc k : Nat) (m : PoolMember) (d : Dev) : PubBlock :=
  let chg := if (outIn t s 0).bit 16 then 1024 else 0
  let none_ (st : Nat) : PubBlock :=
    { stat := st ||| chg, ph := List.replicate m.nph (F32.nan, F32.nan), freq := F32.nan, dfreq := F32.nan,
      an := List.replicate m.nan F32.nan
      dg := (List.range m.ndg).map (fun j =>
        BitVec.ofNat 16 (Config.fn 40 [BitVec.ofNat 32 m.stream, lo32 k, BitVec.ofNat 32 j]).toNat) }
  match d.memberAt look rc k m.stream with
  | none => none_ (if d.unhomedAt m.stream ((slotNs (rateOf rc) k : Nat) : Int) then 0x800E else 0x800D)
  | some im =>
    match im.mask, im.pay with
    | true, some p =>
      { stat := im.stat.toNat ||| chg, ph := ((p.ph.drop m.first).take m.nph).map (fun q => (wireVal q.1, wireVal q.2)),
        freq := wireVal p.freq, dfreq := wireVal p.dfreq, an := (p.an.take m.nan).map wireVal, 
        dg := (p.dg.take m.ndg).map (fun w => w.bits) }
    | _, _ => none_ (if im.st = 3 ∨ im.st = 4 then 0x800E else 0x800D)

/-- Polar form of a phasor: magnitude and angle in radians (R311). The angle is a free function (log entry 12). -/
def polarOf (p : Word × Word) : Word × Word :=
  if F32.isNaN p.1 || F32.isNaN p.2 then (F32.nan, F32.nan) else (magF32 p.1 p.2, Config.fn 41 [p.1, p.2])

/-- A binary64 value rounded to the nearest integer, halves away from zero. -/
def roundAway (a : Int) : Int :=
  let n := (2 * a.natAbs + F64.one) / (2 * F64.one)
  if a < 0 then -(n : Int) else n

/-- A 16-bit integer FREQ or DFREQ (R311): saturating, 0x8000 when missing. -/
def freqInt (w : Word) (offset : Int) (scale : Nat) : Nat :=
  if F32.isNaN w then 0x8000
  else
    let x := F64.mul (F64.add (F64.ofF32 w) (-(offset * (F64.one : Int)))) ((scale * F64.one : Nat) : Int)
    let n := if F32.isInf w then (if F32.neg? w then -32767 else 32767) else max (-32767) (min 32767 (roundAway x))
    (n % 65536).toNat

/-- Octets of a block in a form 0 frame (R311). -/
def blockBytes (t : SMap) (s : Nat) (b : PubBlock) : List Byte :=
  let w0 := outIn t s 0
  let ph := b.ph.flatMap (fun p => let q := if w0.bit 11 then polarOf p else p; beBytes 4 q.1.toNat ++ beBytes 4 q.2.toNat)
  let fr :=
    if w0.bit 12 then
      beBytes 2 (freqInt b.freq (if w0.bit 13 then 50 else 60) 1000) ++ beBytes 2 (freqInt b.dfreq 0 100)
    else beBytes 4 b.freq.toNat ++ beBytes 4 b.dfreq.toNat
  beBytes 2 b.stat ++ ph ++ fr ++ b.an.flatMap (fun a => beBytes 4 a.toNat) ++ b.dg.flatMap (fun g => beBytes 2 g.toNat)

/-! ### Frames (R311, R312, R316) -/

/-- UTC second of a slot time (R50, R78). -/
def utcSec (tick : Int) (utc : Word) : Int := tick / 1000000000 - utcOffset utc

/-- The leap bits FRACSEC[30:28] (R78): direction, occurred, pending in the last 60 s before the leap. -/
def leapBits (tick : Int) (utc : Word) : Nat :=
  let s := (utcSec tick utc % 86400).toNat
  let pend := utc.bit 8 && decide ((if utc.bit 9 then 86339 else 86340) ≤ s)
  (if utc.bit 9 then 4 else 0) + (if utc.bit 10 then 2 else 0) + (if pend then 1 else 0)

/-- FRACSEC of a slot time. -/
def Dev.fracsec (tick : Int) (r : RefVals) (flag : Bool) (d : Dev) : Word :=
  BitVec.ofNat 32 ((tick % 1000000000).toNat / 1000 + r.msgTq % 16 * 16777216 + leapBits tick r.utc * 268435456
    + (if flag && d.rbit Reg.PUB_CTRL 0 then 2147483648 else 0))

/-- The octets of a C37.118.2 data frame (R311). -/
def Dev.c37Bytes (look : Look) (t : SMap) (s rc k : Nat) (r : RefVals) (flag : Bool) (d : Dev) : List Byte :=
  let tick : Int := (slotNs (rateOf rc) k : Nat)
  let body := (oMembers t s).flatMap (fun m => blockBytes t s (d.block look t s rc k m))
  let hdr := beBytes 2 0xAA02 ++ beBytes 2 (16 + body.length) ++ beBytes 2 ((outIn t s 1).field 0 16)
    ++ beBytes 4 (utcSec tick r.utc % 4294967296).toNat ++ beBytes 4 (d.fracsec tick r flag).toNat
  let f := hdr ++ body
  f ++ beBytes 2 (crcCcitt f)

/-- The key of a slot for a usage bit of Table 13.2 (R402). -/
def Dev.keyFor (usage slot : Nat) (d : Dev) : Option KeyRec :=
  match KMap.get? d.key.plate slot with
  | some r => if r.usage = 2 ^ usage then some r else none
  | none => none

/-- The key material of a slot for a usage; 0 where the slot holds none. -/
def Dev.keyOf (usage slot : Nat) (d : Dev) : Nat :=
  match d.keyFor usage slot with
  | some r => r.key
  | none => 0

/-- HMAC-SHA256 cut to 128 bits under a slot's key. -/
def Dev.tagOf (slot : Nat) (bs : List Byte) (d : Dev) : Nat := Config.mac (d.keyOf 2 slot) bs % 2 ^ 128

/-- Octets that stand for an R-SV's fields where a digest or a tag is taken over it; the SPDU's own encoding is that of
IEC 61850-90-5. -/
def rsvBytes (s : Nat) (spdu smpCnt smpSynch : Nat) (tick : Int) (epoch flags tq rev : Nat) (bs : List PubBlock) :
    List Byte :=
  beBytes 2 s ++ beBytes 4 spdu ++ beBytes 4 smpCnt ++ beBytes 1 smpSynch ++ beBytes 8 (twos64 tick) ++ beBytes 1 rev
    ++ beBytes 2 epoch ++ beBytes 1 flags ++ beBytes 1 tq
    ++ bs.flatMap (fun b => beBytes 2 b.stat ++ beBytes 4 b.freq.toNat ++ beBytes 4 b.dfreq.toNat
      ++ b.ph.flatMap (fun p => beBytes 4 p.1.toNat ++ beBytes 4 p.2.toNat) ++ b.an.flatMap (fun a => beBytes 4 a.toNat)
      ++ b.dg.flatMap (fun g => beBytes 2 g.toNat))

/-- Bytes on the wire around a UDP payload: Ethernet, IP and UDP headers, one 802.1Q tag, PRP trailer and FCS. -/
def wireLen (t : SMap) (s payload : Nat) : Nat :=
  payload + 52 + (if (outIn t s 0).bit 4 then 20 else 0) + (if (outIn t s 8).bit 25 then 4 else 0)

/-- A hash chain takes a frame of the current second (R317). -/
def Dev.chainFrame (s dig : Nat) (d : Dev) : Dev :=
  let sec := (d.tick / 1000000000).toNat
  let c := KMap.getD d.pub.chains s { h := 0, sec := sec, epoch := d.tbu.epoch, frames := [], next := [] }
  let c := if sec ≤ c.sec then { c with frames := c.frames ++ [dig] } else { c with next := c.next ++ [dig] }
  { d with pub := { d.pub with chains := KMap.put d.pub.chains s c } }

/-- A chain starts again (R317): at `DEV_START` and after a commit that changes the set. -/
def Dev.chainReset (s : Nat) (d : Dev) : Dev :=
  let c : SealS := { h := 0, sec := (d.tick / 1000000000).toNat, epoch := d.tbu.epoch, frames := [], next := [] }
  { d with pub := { d.pub with chains := KMap.put d.pub.chains s c } }

/-- Send the frames of one published set now: both ports of the pair, the companion directly after its frame, the
counter of its revision and the hash chain. -/
def Dev.sendSet (x : Delayed) (d : Dev) : Dev :=
  let d := x.fs.foldl (fun e f => e.sendBoth x.pair .preempt 0 f.2 none (some x.latest) f.1) d
  let d := d.wrapAdd (if x.rev = 0 then Reg.PUB_TX_SETS else Reg.PUB_TX_AMENDS) 1
  match x.dig with
  | some h => d.chainFrame x.set h
  | none => d

/-- The frames of one output set at a look (R311, R312, R316). -/
def Dev.setFrames (look : Look) (t : SMap) (s rc k : Nat) (r : RefVals) (flag : Bool) (d : Dev) : Delayed :=
  let rev := match look with | .first => 0 | .final => 1
  let tick : Int := (slotNs (rateOf rc) k : Nat)
  let udp := if rev = 1 && oAmend t s == 2 then (outIn t s 6).field 0 16 else (outIn t s 1).field 16 16
  let sealed := (outIn t s 0).bit 15
  let delay := if d.brz.role = 2 then d.fld Reg.BRZ_TWIN_TIMING 0 16 * 1000 else 0
  let due := d.raw + delay
  let deadline := match d.openSet? rc k, look with | some x, .first => x.first | some x, .final => x.final | none, _ => d.raw
  if oForm t s = 0 then
    let bs := d.c37Bytes look t s rc k r flag
    let comp : List (TxBody × Nat) :=
      if (outIn t s 0).bit 14 then
        let slot := oTagSlot t s
        let soc := (utcSec tick r.utc % 4294967296).toNat
        let fs := d.fracsec tick r flag
        let dev := d.fld Reg.BRZ_DEV 0 9
        let idc := (outIn t s 1).field 0 16
        let hdr := beBytes 2 1 ++ beBytes 1 s ++ beBytes 1 rev ++ beBytes 2 dev ++ beBytes 2 r.epoch ++ beBytes 4 soc
          ++ beBytes 4 fs.toNat ++ beBytes 2 idc ++ beBytes 1 slot ++ beBytes 1 0
        [(.companion s rev ((outIn t s 6).field 16 16) dev r.epoch soc fs idc slot (d.tagOf slot (hdr ++ bs)),
          wireLen t s 36)]
      else []
    { due := due, latest := deadline + delay + 100000, rev := rev, set := s, pair := oPair t s,
      fs := (TxBody.c37 s rev udp bs, wireLen t s bs.length) :: comp,
      dig := if sealed then some (Config.sha256 bs) else none }
  else
    let f := rateOf rc
    let blocks := (oMembers t s).map (fun m => d.block look t s rc k m)
    let spdu := (2 * k + rev) % 4294967296
    let synch := if r.sync = 2 then 2 else 0
    let flags := (if flag then 1 else 0) + (if r.sync = 2 then 0 else 2)
    let bs := rsvBytes s spdu (k % f) synch tick r.epoch flags r.msgTq rev blocks
    let tag := if (outIn t s 0).bit 14 then some (d.tagOf (oTagSlot t s) bs) else none
    { due := due, latest := deadline + delay + 100000, rev := rev, set := s, pair := oPair t s,
      fs := [(.rsv s rev udp spdu (k % f) synch tick r.epoch flags r.msgTq blocks tag, wireLen t s (bs.length + Config.rsvOverhead))],
      dig := if sealed then some (Config.sha256 bs) else none }

/-- A set frame leaves now, or later on a STANDBY twin (R308). -/
def Dev.sendOrDelay (x : Delayed) (d : Dev) : Dev :=
  if x.due ≤ d.raw then d.sendSet x else { d with pub := { d.pub with delayed := d.pub.delayed ++ [x] } }

/-- Whether a member's state or values differ from revision 0 under R141 (R306): placed LATE, or merged. -/
def Dev.memberDiffers (rc k i : Nat) (d : Dev) : Bool :=
  match d.memberAt .first rc k i, d.memberAt .final rc k i with
  | some a, some b => b.mask && (b.st == 2 || a.pay != b.pay)
  | _, _ => false

/-- Publish the sets of a rate at a look of slot `k` (R306): revision 0 always; revision 1 when amendments are sent and
a member differs. -/
def Dev.publish (look : Look) (rc k : Nat) (r : RefVals) (flag : Bool) (d : Dev) : Dev :=
  if d.pub.withdrawn then d
  else
    let t := d.tabAt ((slotNs (rateOf rc) k : Nat) : Int)
    ((setsIn t).filter (fun s => oRate t s == rc && oForm t s != 2)).foldl (fun e s =>
      let send := match look with
        | .first => true
        | .final => oAmend t s != 0 && (oMembers t s).any (fun m => e.memberDiffers rc k m.stream)
      if send then e.sendOrDelay (e.setFrames look t s rc k r flag) else e) d

/-- Send the seal of a set's second (R317): H chains on, and a seal that cannot be signed is counted and not sent. -/
def Dev.sealSecond (s : Nat) (d : Dev) : Dev :=
  match KMap.get? d.pub.chains s with
  | none => d
  | some c =>
    if d.tick < ((c.sec + 1) * 1000000000 : Nat) then d
    else
      let h := Config.sha256 (beBytes 32 c.h ++ c.frames.flatMap (fun x => beBytes 32 x))
      let slot := oSealSlot d.act s
      let dev := d.fld Reg.BRZ_DEV 0 9
      let count := min 65535 c.frames.length
      let body := beBytes 2 2 ++ beBytes 1 s ++ beBytes 1 0 ++ beBytes 2 dev ++ beBytes 2 c.epoch
        ++ beBytes 4 (c.sec % 4294967296) ++ beBytes 4 (c.sec / 4294967296) ++ beBytes 2 count ++ beBytes 1 slot
        ++ beBytes 1 0 ++ beBytes 32 h
      let c' : SealS := { h := h, sec := c.sec + 1, epoch := d.tbu.epoch, frames := c.next, next := [] }
      let d := { d with pub := { d.pub with chains := KMap.put d.pub.chains s c' } }
      match d.keyFor 3 slot with
      | some r =>
        (d.sendPair (oPair d.act s) .preempt 0 (wireLen d.act s 116) none
          (.seal s ((outIn d.act s 6).field 16 16) dev c.epoch c.sec count slot h (Config.sign r.key body))).wrapAdd
            Reg.PUB_SEALS 1
      | none => (d.bump Reg.PUB_SEAL_FAIL 1).raise Reg.PUB_EVT 0

/-! ### Alarm messages (R313 to R315) -/

/-- What the header of an alarm message holds beside its dataset (R313, R314): the destination, APPID and VLAN of the layer-2
form or the destination and the control word of the routed one, confRev, and the three strings. -/
def Dev.gooseHdr (routed : Bool) (d : Dev) : List Word :=
  (if routed then [0, 1, 2, 3].map (fun i => d.reg (Reg.PUB_RG_DST i)) ++ [d.reg Reg.PUB_RG_CTRL]
   else [d.reg Reg.PUB_ALM_MAC_LO, d.reg Reg.PUB_ALM_MAC_HI, d.reg Reg.PUB_ALM_APPID, d.reg Reg.PUB_ALM_CTRL])
    ++ d.reg Reg.PUB_ALM_CONFREV :: (List.range 48).map (fun i => d.reg (Reg.PUB_ALM_STR i))

/-- Octets that stand for an alarm message's fields where a tag is taken over it. -/
def alarmBytes (hdr : List Word) (st sq : Word) (stamp : Int) (m : AlarmMsg) : List Byte :=
  hdr.flatMap (fun w => beBytes 4 w.toNat) ++ beBytes 4 st.toNat ++ beBytes 4 sq.toNat ++ beBytes 8 (twos64 stamp) ++ beBytes 8 (twos64 m.slotTick) ++ beBytes 1 m.rateCode
    ++ beBytes 2 m.epoch ++ beBytes 1 m.flags ++ beBytes 2 m.primary ++ beBytes 4 m.primaryVal.toNat
    ++ beBytes 2 m.indetCount ++ beBytes 2 m.indetFirst ++ m.raised.flatMap (fun i => beBytes 2 i)
    ++ m.asserted.flatMap (fun i => beBytes 2 i)

/-- Send an alarm message, or its retransmission: the layer-2 frame first, then the routed form, each on the express
queue of every pair that `SFL_GOOSE` selects. -/
def Dev.sendAlarm (st sq : Word) (tal : Nat) (stamp : Int) (m : AlarmMsg) (d : Dev) : Dev :=
  let pairs := (if d.rbit Reg.SFL_GOOSE 0 then [0] else []) ++ (if d.rbit Reg.SFL_GOOSE 1 then [1] else [])
  let hdr (r : Bool) := d.gooseHdr r
  let tag (r : Bool) := if d.rbit Reg.PUB_ALM_CTRL 2 then
    some (d.tagOf (d.fld Reg.PUB_ALM_CTRL 8 8) (alarmBytes (hdr r) st sq stamp m)) else none
  let sim := d.rbit Reg.PUB_ALM_CTRL 3
  let d := if d.rbit Reg.PUB_ALM_CTRL 0 then
    pairs.foldl (fun e p => e.sendPair p .express 0 1400 none (.goose false (hdr false) 0 st sq tal stamp sim m (tag false))) d else d
  if d.rbit Reg.PUB_ALM_CTRL 1 then
    pairs.foldl (fun e p =>
      let n := e.pub.rgCount
      let e := { e with pub := { e.pub with rgCount := n + 1 } }
      e.sendPair p .express 0 1400 none (.goose true (hdr true) n st sq tal stamp sim m (tag true))) d
  else d

end Sys2Proof.Machine
end

