-- ==== Sys2Proof/Machine/BrzOps.lean ====
section
/-! DEFINITION. The operations of the Braze cascade and of twin operation (10_publishing_and_braze.md): sending a frame
on a link, peers and their state, condensed sets, alarm propagation, and roles. -/

namespace Sys2Proof.Machine

/-- Key of a destination or source device on a port. -/
def brzKey (port dev : Nat) : Nat := port * 1024 + dev

/-- This device's own number. -/
def Dev.brzOwn (d : Dev) : Nat := d.fld Reg.BRZ_DEV 0 9

/-- The pair number. -/
def Dev.brzPair (d : Dev) : Nat := d.fld Reg.BRZ_DEV 16 9

/-- Whether the device is one of a twin pair. -/
def Dev.isTwin (d : Dev) : Bool := d.rbit Reg.BRZ_TWIN 0

/-- The number the device speaks under on the up and down segments (R330). -/
def Dev.brzSrc (d : Dev) : Nat := if d.isTwin then d.brzPair else d.brzOwn

/-- Whether a Braze port carries frames. -/
def Dev.brzPortOn (port : Nat) (d : Dev) : Bool := d.rbit Reg.BRZ_CTRL 0 && d.rbit (Reg.BRZ_PORT_CTRL port) 0

/-- Whether the device sends under its (pair) number: it is no STANDBY twin (R330). -/
def Dev.brzActive (d : Dev) : Bool := !d.isTwin || d.brz.role == 1

/-- Whether the device sends uplink (R321, R330). -/
def Dev.uplink (d : Dev) : Bool := d.rbit Reg.BRZ_UP 0 && d.brzActive && d.op != .safe

/-- The parent's number. -/
def Dev.brzParent (d : Dev) : Nat := d.fld Reg.BRZ_UP 8 9

/-- The partner's number. -/
def Dev.brzPartner (d : Dev) : Nat := d.fld Reg.BRZ_TWIN 8 9

/-- The (session, sequence) of the next frame to a destination (R319). -/
def Dev.brzNext (port dst : Nat) (d : Dev) : Word × Word :=
  KMap.getD d.brz.tx (brzKey port dst) (BitVec.ofNat 32 (d.fld Reg.PWR_PCC 0 24 * 256), 1)

/-- The (session, sequence) after one (R319): at 2^32 - 1 the sequence returns to 1 and the session increases. -/
def brzSucc (x : Word × Word) : Word × Word := if x.2 = Word.ones then (x.1 + 1, 1) else (x.1, x.2 + 1)

/-- The segment group address of a port (R318). -/
def Dev.brzGroup (port : Nat) (d : Dev) : Nat :=
  (d.reg (Reg.BRZ_PORT_GROUP_LO port)).toNat + d.fld (Reg.BRZ_PORT_GROUP_HI port) 0 16 * 4294967296

/-- Send a frame with the next sequence. -/
def Dev.brzSend (port src dst slot : Nat) (p : BrzPayload) (d : Dev) : Dev :=
  if !d.brzPortOn port then d
  else
    let x := d.brzNext port dst
    let d := { d with brz := { d.brz with tx := KMap.put d.brz.tx (brzKey port dst) (brzSucc x) } }
    (d.emit (.braze port (d.brzGroup port) src dst x.1 x.2 slot false p)).wrapAdd (Reg.BRZ_PORT_TXFRAMES port) 1

/-- Send a frame again under the sequence it had. -/
def Dev.brzResend (port src dst slot : Nat) (x : Word × Word) (p : BrzPayload) (d : Dev) : Dev :=
  if !d.brzPortOn port then d
  else (d.emit (.braze port (d.brzGroup port) src dst x.1 x.2 slot true p)).wrapAdd (Reg.BRZ_PORT_TXFRAMES port) 1

/-- Send to the parent on the up segment. -/
def Dev.brzUp (p : BrzPayload) (d : Dev) : Dev := d.brzSend 0 d.brzSrc d.brzParent (d.fld Reg.BRZ_UP 24 8) p

/-- Send to the partner, on both ports (each with its own sequence). -/
def Dev.brzTwin (p : BrzPayload) (d : Dev) : Dev :=
  let slot := d.fld Reg.BRZ_TWIN 24 8
  (d.brzSend 0 d.brzOwn d.brzPartner slot p).brzSend 1 d.brzOwn d.brzPartner slot p

/-- Valid kind 3 entries: index and device number. -/
def Dev.children (d : Dev) : List (Nat × Nat) :=
  (validIn d.act).filterMap (fun i => let e := d.entry i; if eKind e = 3 then some (i, eId e) else none)

/-- `KEY_SLOT` of an entry. -/
def eKeySlot (e : List Word) : Nat := (ew e 10).field 8 8

/-- A peer's state. -/
def Dev.peer (port dev : Nat) (d : Dev) : BrzPeer := KMap.getD d.brz.peers (brzKey port dev) BrzPeer.new

/-- Store a peer's state. -/
def Dev.setPeer (port dev : Nat) (x : BrzPeer) (d : Dev) : Dev :=
  { d with brz := { d.brz with peers := KMap.put d.brz.peers (brzKey port dev) x } }

/-- Whether the twin link is UP on either port. -/
def Dev.twinUp (d : Dev) : Bool := (d.peer 0 d.brzPartner).up || (d.peer 1 d.brzPartner).up

/-- The `CHILD` operand of a device (R325). -/
def Dev.childHeld (dev : Nat) (d : Dev) : Bool :=
  if !(d.children.any (fun c => c.2 == dev)) then false
  else
    let p := d.peer 1 dev
    if !p.up && d.rbit Reg.BRZ_CTRL 1 then true else p.held

/-- HEARTBEAT period in raw counts. -/
def Dev.hbNs (d : Dev) : Nat := zeroActs 1 (d.fld Reg.BRZ_CTRL 8 8) * 1000000

/-- RTO in raw counts (R324). -/
def Dev.rtoNs (d : Dev) : Nat := clampNat 50 1000 (d.fld Reg.BRZ_ACK 0 10) * 1000

/-- The condensed set of a form 2 output set at a look (R321). -/
def Dev.condensed (look : Look) (t : SMap) (s rc k : Nat) (d : Dev) : Payload :=
  let dead : Val := { bits := F32.nan, ok := false }
  let parts := (oMembers t s).map (fun m =>
    let none_ : Payload :=
      { freq := dead, dfreq := dead, ph := List.replicate m.nph (dead, dead), an := List.replicate m.nan dead,
        dg := (List.range m.ndg).map (fun j =>
          { bits := BitVec.ofNat 16 (Config.fn 40 [BitVec.ofNat 32 m.stream, lo32 k, BitVec.ofNat 32 j]).toNat, ok := false }) }
    match d.memberAt look rc k m.stream with
    | some im =>
      match im.mask, im.pay with
      | true, some p =>
        ({ p with ph := (p.ph.drop m.first).take m.nph, an := p.an.take m.nan, dg := p.dg.take m.ndg } : Payload)
      | _, _ => none_
    | none => none_)
  match parts with
  | [] => { freq := dead, dfreq := dead, ph := [], an := [], dg := [] }
  | p :: _ => { freq := p.freq, dfreq := p.dfreq, ph := parts.flatMap (fun q => q.ph), an := parts.flatMap (fun q => q.an),
                dg := parts.flatMap (fun q => q.dg) }

/-- Send the condensed set of a rate at a look (R321). -/
def Dev.sendCondensed (look : Look) (rc k : Nat) (r : RefVals) (d : Dev) : Dev :=
  if !d.uplink || d.pub.withdrawn then d
  else
    let tick := slotNs (rateOf rc) k
    let t := d.tabAt (tick : Int)
    ((setsIn t).filter (fun s => oRate t s == rc && oForm t s == 2)).foldl (fun e s =>
      let send := match look with
        | .first => true
        | .final => (oMembers t s).any (fun m => e.memberDiffers rc k m.stream)
      if !send then e
      else
        let stat := (if r.sync = 2 then 0 else 8192) + r.statTq * 64 + r.unlock * 16
        e.brzUp (.set tick rc (match look with | .first => 0 | .final => 1) (BitVec.ofNat 16 stat) r.epoch
          (e.condensed look t s rc k))) d

/-- A lane is out of service. -/
def Dev.laneOut (d : Dev) : Bool := !(d.sfl.laneA && d.sfl.laneB)

/-- The flags that hold for every message: FALLBACK, and SUPPLY_LOST in HOLDUP. -/
def Dev.baseFlags (d : Dev) : Nat := (if d.laneOut then 2 else 0) + (if d.sfl.supply then 16 else 0)

/-- Rules with `ACT_BRZ` that are ASSERTED, in ascending index. -/
def Dev.brzRules (d : Dev) : List Nat :=
  (d.sfl.rules.filter (fun p => p.2.st == 1 && (SMap.get zeroW d.act (0x2C0004 + 64 * p.1)).bit 3)).map (fun p => p.1)

/-- Send the ALARM frame of the state in force (R323): the latest replaces one not acknowledged. -/
def Dev.sendAlarmUp (p : BrzPayload) (d : Dev) : Dev :=
  let x := d.brzNext 0 d.brzParent
  let d := d.brzUp p
  { d with brz := { d.brz with pending := some p, alarmSeq := x, nextRto := d.raw + d.rtoNs } }

/-- The propagated alarm after a pass (R323): rules with `ACT_BRZ` that are ASSERTED, in ascending index. -/
def Dev.propagate (asserted : List Nat) (flags : Nat) (d : Dev) : Dev :=
  let now := (!asserted.isEmpty, asserted.headD 0xFFFF)
  if now = d.brz.last then d
  else
    let d := { d with brz := { d.brz with last := now } }
    if !d.uplink then d
    else
      let v := d.reg Reg.BRZ_ALM_VER + 1
      (d.setReg Reg.BRZ_ALM_VER v).sendAlarmUp (.alarm v now.1 flags now.2 asserted.length d.raw)

/-- Whether an offset is a configuration word of the tables that twins share (R328): streams and scale pool, rules and groups,
Densitometer, output sets. -/
def twinWord (off : Nat) : Bool :=
  [(0x200000, 0x280000, 16, 12), (0x280000, 0x2A0000, 1, 1), (0x2C0000, 0x300000, 16, 16), (0x300000, 0x302000, 8, 4),
   (0x302000, 0x314000, 1, 1), (0x320000, 0x328000, 2, 2), (0x328000, 0x328800, 8, 6), (0x32A000, 0x32E000, 8, 5),
   (0x360000, 0x36C000, 1, 1)].any (fun (r : Nat × Nat × Nat × Nat) =>
    decide (r.1 ≤ off) && decide (off < r.2.1) && decide ((off - r.1) / 4 % r.2.2.1 < r.2.2.2))

/-- The digest of the active tables (R328). -/
def Dev.tableDigest (d : Dev) : Nat :=
  Config.sha256 (d.act.flatMap (fun p => if twinWord p.1 then beBytes 4 p.1 ++ beBytes 4 p.2.toNat else []))

/-- What the TWIN_STATE frame says (R328, Table 10.9). -/
def Dev.twinState (d : Dev) : BrzPayload :=
  let own := d.brzPartner
  .twinState { role := d.brz.role, swaps := d.fld Reg.BRZ_TWIN_STATUS 16 16, prefer := d.rbit Reg.BRZ_TWIN 1, op := d.op.code,
               deg := d.deg, fallback := d.laneOut, locked := decide (d.tbu.sync = 2), digest := d.tableDigest,
               links := d.brz.tx.filter (fun p => p.1 != brzKey 0 own && p.1 != brzKey 1 own), v := d.reg Reg.BRZ_ALM_VER }

/-- Whether the partner's tables match (R328). -/
def Dev.cfgMatch (d : Dev) : Bool :=
  match d.brz.partner with
  | some p => p.digest == d.tableDigest
  | none => false

/-- Tables that differ from the partner's show in `BRZ_EVT` (R328). -/
def Dev.noteMismatch (d : Dev) : Dev :=
  if d.isTwin && d.brz.partner.isSome && !d.cfgMatch then d.raise Reg.BRZ_EVT 4 else d

/-- `PARTNER_READY` (R332): the last TWIN_STATE reports RUN, `CFG_MATCH` and a LOCKED TBU. -/
def Dev.partnerReady (d : Dev) : Bool :=
  match d.brz.partner with
  | some p => p.op == 4 && d.cfgMatch && p.locked
  | none => false

/-- Whether the device is the preferred twin (R330). The partner's `PREFER` comes with its TWIN_STATE (log entry 14). -/
def Dev.preferred (d : Dev) : Bool :=
  let own := d.rbit Reg.BRZ_TWIN 1
  let other := match d.brz.partner with
    | some p => p.prefer
    | none => false
  if own != other then own else decide (d.brzOwn < d.brzPartner)

/-- The cause recorded when several hold (R332): 3, 2, 4, 5. -/
def firstCause (cs : List Nat) : Nat := ([3, 2, 4, 5].find? (fun c => cs.contains c)).getD 0

/-- A role change (Table 10.10): the record, the event bit and the counts. -/
def Dev.setRole (role cause : Nat) (d : Dev) : Dev :=
  let swaps := if d.brz.role = 0 then d.fld Reg.BRZ_TWIN_STATUS 16 16 else d.fld Reg.BRZ_TWIN_STATUS 16 16 + 1
  let d := { d with brz := { d.brz with role := role, cause := cause } }
  let d := d.setField Reg.BRZ_TWIN_STATUS 16 16 swaps
  let recent := (d.brz.trans.filter (fun t => decide (d.raw < t + 60000000000))).length
  (d.raise Reg.BRZ_EVT 1).post 0x0027 [BitVec.ofNat 32 cause, BitVec.ofNat 32 role, BitVec.ofNat 32 recent, 0]

/-- The takeover of the ACTIVE role (R333): the session of every link under the pair number continues from the mirrored one, and
the device's own alarm state goes up. -/
def Dev.takeover (cause : Nat) (d : Dev) : Dev :=
  let was := d.brz.role
  let d := if was = 1 then d else d.setRole 1 cause
  let d := { d with brz := { d.brz with since := none } }
  match d.brz.mirror with
  | none => d
  | some (links, v) =>
    let own := brzKey 0 d.brzPartner
    let own1 := brzKey 1 d.brzPartner
    let keep := d.brz.tx.filter (fun p => p.1 == own || p.1 == own1)
    let dests := (0, d.brzParent) :: d.children.map (fun c => (1, c.2))
    let tx := dests.foldl (fun m k => match KMap.get? links (brzKey k.1 k.2) with
      | some x => KMap.put m (brzKey k.1 k.2) (x.1 + 16, 1)
      | none => m) keep
    let d := { d with brz := { d.brz with tx := tx } }
    let v := v + 1024
    if d.uplink then
      let l := d.brzRules
      (d.setReg Reg.BRZ_ALM_VER v).sendAlarmUp
        (.alarm v (!l.isEmpty) (d.baseFlags + (if d.tbu.sync = 2 then 0 else 8)) (l.headD 0xFFFF) l.length d.raw)
    else d

/-- The ACTIVE device offers its role (R332): only to a partner that is ready. -/
def Dev.offerRole (cause : Nat) (d : Dev) : Dev :=
  if !d.isTwin || d.brz.role != 1 then d
  else
    let cs := if d.brz.causes.contains cause then d.brz.causes else cause :: d.brz.causes
    if !d.partnerReady then d
    else
      let d := { d with brz := { d.brz with causes := cs, giveUp := true } }
      d.brzTwin (.giveUp (firstCause cs))

/-- A unit of the part fails, and an ACTIVE twin that enters DEGRADED with it offers its role (R332, cause 2). -/
def Dev.unitDown (bit : Nat) (d : Dev) : Dev :=
  let e := d.unitFailed bit
  if d.op = .run then e.offerRole 2 else e

/-- Whether Braze runs: keys are installed and frames are taken and sent. -/
def Dev.brzRun (d : Dev) : Bool := d.op == .config || d.op.alarm

/-- The condition of R330 under which a STANDBY twin becomes ACTIVE, as a cause of Table 10.10; 0: none holds. -/
def Dev.twinCause (d : Dev) : Nat :=
  if !d.isTwin || d.brz.role != 2 || !d.op.running then 0
  else if !d.twinUp then 4
  else
    let other := match d.brz.partner with | some p => p.role == 1 | none => false
    if !other && d.preferred then 1 else 0

/-- Note since when the condition holds. -/
def Dev.twinWatch (d : Dev) : Dev :=
  let c := d.twinCause
  let since := match d.brz.since with
    | some (c', t) => if c = 0 then none else if c' = c then some (c, t) else some (c, d.raw)
    | none => if c = 0 then none else some (c, d.raw)
  { d with brz := { d.brz with since := since } }

/-! ### Masks and digests of a twin pair (R331) -/

/-- The masks and digests of a set under comparison. -/
def Dev.twinCmp (set k : Nat) (d : Dev) : TwinCmp :=
  (d.brz.cmps.find? (fun c => c.set == set && c.k == k)).getD
    { set := set, k := k, mine := none, other := none, myDig := none, oDig := none }

/-- Store them; the oldest of more than 4,096 are forgotten. -/
def Dev.putTwinCmp (c : TwinCmp) (d : Dev) : Dev :=
  let rest := d.brz.cmps.filter (fun x => !(x.set == c.set && x.k == c.k))
  { d with brz := { d.brz with cmps := (c :: rest).take 4096 } }

/-- Forget them. -/
def Dev.dropTwinCmp (set k : Nat) (d : Dev) : Dev :=
  { d with brz := { d.brz with cmps := d.brz.cmps.filter (fun x => !(x.set == set && x.k == k)) } }

/-- Bytes of a member's block in a digest: STAT and values, NaN values as 0x7FC0_0000. -/
def twinBytes (j : Nat) (b : PubBlock) : List Byte :=
  let v (w : Word) : List Byte := beBytes 4 (if F32.isNaN w then F32.nan.toNat else w.toNat)
  beBytes 2 j ++ beBytes 2 b.stat ++ v b.freq ++ v b.dfreq ++ b.ph.flatMap (fun p => v p.1 ++ v p.2) ++ b.an.flatMap v
    ++ b.dg.flatMap (fun g => beBytes 2 g.toNat)

/-- The final mask of an output set at slot `k`. -/
def Dev.setMask (t : SMap) (s k : Nat) (d : Dev) : List Bool :=
  (oMembers t s).map (fun m => match d.memberAt .final (oRate t s) k m.stream with | some x => x.mask | none => false)

/-- The digest over the members present in both masks: the first 8 bytes of SHA-256. -/
def Dev.setDigest (t : SMap) (s k : Nat) (mine other : List Bool) (d : Dev) : Nat :=
  let ms := (oMembers t s).zipIdx.filter (fun p => mine.getD p.2 false && other.getD p.2 false)
  Config.sha256 (ms.flatMap (fun p => twinBytes p.2 (d.block .final t s (oRate t s) k p.1))) % 2 ^ 256 / 2 ^ 192

/-- Two digests of a set are at hand: a difference is a disagreement, and the checks of both devices are due. -/
def Dev.twinJudge (set k : Nat) (d : Dev) : Dev :=
  let c := d.twinCmp set k
  match c.myDig, c.oDig with
  | some a, some b =>
    let d := d.dropTwinCmp set k
    if !d.cfgMatch then d
    else if a = b then d.wrapAdd Reg.BRZ_TWIN_COMPARED 1
    else
      let d := ((d.wrapAdd Reg.BRZ_TWIN_COMPARED 1).wrapAdd Reg.BRZ_TWIN_MISMATCH 1).raise Reg.BRZ_EVT 2
      match d.brz.checkDue with
      | some _ => d
      | none => { d with brz := { d.brz with checkDue := some (set, d.raw) } }
  | _, _ => d

/-- Both masks of a set are at hand: the digest is sent. -/
def Dev.twinDigest (set k : Nat) (d : Dev) : Dev :=
  let c := d.twinCmp set k
  match c.mine, c.other, c.myDig with
  | some m, some o, none =>
    if !d.cfgMatch then d
    else
      let t := d.tabAt ((slotNs (rateOf (oRate d.act set)) k : Nat) : Int)
      let dig := d.setDigest t set k m o
      ((d.brzTwin (.twinDigest set k dig)).putTwinCmp { c with myDig := some dig }).twinJudge set k
  | _, _, _ => d

/-- At the final look of a rate's slot, the mask of each set of form 0 or 1 goes to the partner (R331). -/
def Dev.twinLook (rc k : Nat) (d : Dev) : Dev :=
  if !d.isTwin then d
  else
    let t := d.tabAt ((slotNs (rateOf rc) k : Nat) : Int)
    ((setsIn t).filter (fun s => oRate t s == rc && oForm t s != 2)).foldl (fun e s =>
      let m := e.setMask t s k
      ((e.brzTwin (.twinMask s k m)).putTwinCmp { e.twinCmp s k with mine := some m }).twinDigest s k) d

end Sys2Proof.Machine
end

