-- ==== Sys2Proof/Machine/SwgOps.lean ====
section
/-! DEFINITION. Swage (09_swage_compression.md): the block codes, the SV encoder and its choice, flag runs, the phasor
codes, the block header, and the coding of one block with its self-verification. -/

namespace Sys2Proof.Machine

/-! ### Codes and sizes (R285, R286) -/

/-- Bits per SV sample of a code. -/
def svBits (code : Nat) : Nat := [0, 16, 12, 10, 8, 6, 4].getD code 4

/-- Mantissa bits of a phasor value of a code. -/
def phMant (code : Nat) : Nat := if code ≤ 2 then 15 else 7

/-- Float width of a code. -/
def phWidth (code : Nat) : Nat := phMant code + 9

/-! ### SV blocks (R287 to R290) -/

/-- The prediction of sample `i` from the reconstruction before it, newest first. -/
def predict (o : Nat) : List Int → Int
  | a :: b :: _ => if o = 0 then 0 else if o = 1 then a else 2 * a - b
  | [a] => if o = 0 then 0 else a
  | [] => 0

/-- `d` divided by 2^s, rounded as R287 gives. -/
def quant (s : Nat) (d : Int) : Int := if s = 0 then d else (d + (2 ^ (s - 1) : Nat)) / ((2 ^ s : Nat) : Int)

/-- The reconstruction held to 24 bits. -/
def clamp24 (x : Int) : Int := max (-8388608) (min 8388607 x)

/-- One candidate (o, s): the codes, the reconstruction and the largest error, or failure. `rh` holds the
reconstruction, newest first. -/
def svTry (b o s : Nat) : List Int → List Int → List Int → Int → Option (List Int × List Int × Int)
  | [], qs, rh, e => some (qs.reverse, rh.reverse, e)
  | x :: t, qs, rh, e =>
    let p := predict o rh
    let q := quant s (x - p)
    if q < -((2 ^ (b - 1) : Nat) : Int) ∨ ((2 ^ (b - 1) : Nat) : Int) - 1 < q then none
    else
      let r := clamp24 (p + q * (2 ^ s : Nat))
      svTry b o s t (q :: qs) (r :: rh) (max e ((x - r).natAbs : Nat))

/-- The best order at a shift: the lowest largest error, then the lowest order. -/
def svBest (b s : Nat) (x0 : Int) (xs : List Int) : Option (Nat × List Int × List Int × Int) :=
  [0, 1, 2].foldl (fun (best : Option (Nat × List Int × List Int × Int)) o =>
    match svTry b o s xs [0] [x0] 0 with
    | none => best
    | some (q, r, e) =>
      match best with
      | none => some (o, q, r, e)
      | some (_, _, _, e') => if e < e' then some (o, q, r, e) else best) none

/-- The encoder's choice: the lowest shift at which some order does not fail (R287). -/
def svChoose (b : Nat) (x0 : Int) (xs : List Int) : List Nat → Option (Nat × Nat × List Int × List Int × Int)
  | [] => none
  | s :: t =>
    match svBest b s x0 xs with
    | some (o, q, r, e) => some (o, s, q, r, e)
    | none => svChoose b x0 xs t

/-- A flag run: first index, length, flags. -/
abbrev FlagRun := Nat × Nat × Nat

/-- Maximal runs of one non-zero flag value (R289), newest first. -/
def flagRuns : List Nat → Nat → List FlagRun → List FlagRun
  | [], _, acc => acc
  | f :: t, i, acc =>
    if f = 0 then flagRuns t (i + 1) acc
    else
      match acc with
      | (a, l, g) :: rest =>
        if a + l = i ∧ g = f then flagRuns t (i + 1) ((a, l + 1, g) :: rest) else flagRuns t (i + 1) ((i, 1, f) :: acc)
      | [] => flagRuns t (i + 1) [(i, 1, f)]

/-- The smallest gap between consecutive runs. -/
def minGap : List FlagRun → Option Nat
  | (a, l, _) :: (b, m, g) :: t =>
    let here := b - (a + l)
    match minGap ((b, m, g) :: t) with
    | some x => some (min here x)
    | none => some here
  | _ => none

/-- Merge the first pair of runs that lie `gap` apart. -/
def mergeAt (gap : Nat) : List FlagRun → List FlagRun
  | (a, l, f) :: (b, m, g) :: t =>
    if b - (a + l) = gap then (a, b + m - a, f ||| g) :: t else (a, l, f) :: mergeAt gap ((b, m, g) :: t)
  | rs => rs

/-- Merge down to four runs (R289); answers whether a merge occurred. -/
def mergeRuns : Nat → List FlagRun → Bool → List FlagRun × Bool
  | 0, rs, m => (rs, m)
  | n + 1, rs, m =>
    if rs.length ≤ 4 then (rs, m)
    else
      match minGap rs with
      | some g => mergeRuns n (mergeAt g rs) true
      | none => (rs, m)

/-- Fields of `b` bits packed from bit 0 upward. -/
def packBits (b : Nat) : List Nat → Nat
  | [] => 0
  | q :: t => q % 2 ^ b + 2 ^ b * packBits b t

/-- Flags of a decoded sample. -/
def decFlags (rs : List FlagRun) (i : Nat) : Nat :=
  rs.foldl (fun f r => if r.1 ≤ i ∧ i < r.1 + r.2.1 then f ||| r.2.2 else f) 0

/-- A decoded SV sample in its stored format. -/
def decWord (rs : List FlagRun) (p : Int × Nat) : Nat :=
  let f := decFlags rs p.2
  (if f.testBit 3 then 0 else (p.1 % 16777216).toNat) + f * 16777216

/-- Whether every decoded value of an SV block lies within E of the input (R288, R293): a value that a merged run decodes as
`MISSING` reads 0. -/
def svVerified (s : Nat) (rs : List FlagRun) (xs rec_ : List Int) : Bool :=
  let e := if s = 0 then 0 else 2 ^ (s - 1)
  (xs.zip rec_.zipIdx).all (fun p =>
    let v := if (decFlags rs p.2.2).testBit 3 then 0 else p.2.1
    decide ((v - p.1).natAbs ≤ e))

/-- Bytes of a coded block with its header (R286). -/
def codedBytes (kind code n : Nat) : Nat :=
  if kind = 0 then 64 + 4 * ceilDiv (n * svBits code) 32 else 48 + 4 * ceilDiv (n * (4 * phWidth code + 20)) 32

/-- Coded data of an SV block (Table 9.2), whether runs were merged, and whether it decodes within its error. -/
def encodeSv (code : Nat) (ws : List Word) : List Byte × Bool × Bool :=
  let b := svBits code
  let xs := ws.map (fun w => signedOf 24 (w.field 0 24))
  let fl := ws.map (fun w => w.field 24 5)
  let (rs, merged) := mergeRuns 256 (flagRuns fl 0 []).reverse false
  match xs with
  | [] => ([], false, true)
  | x0 :: rest =>
    match svChoose b x0 rest (List.range (26 - b)) with
    | none => ([], merged, true)
    | some (o, s, qs, rec_, e) =>
      let dec := rec_.zipIdx.flatMap (fun p => leBytes 4 (decWord rs p))
      let padded : List FlagRun := rs ++ List.replicate (4 - rs.length) (0, 0, 0)
      let runs := padded.flatMap (fun (r : FlagRun) =>
        if r.2.1 = 0 then leBytes 4 0 else leBytes 4 (r.1 + (r.2.1 - 1) * 256 + r.2.2 * 65536))
      let n := ws.length
      ([BitVec.ofNat 8 o, BitVec.ofNat 8 s, BitVec.ofNat 8 rs.length, if merged then 1 else 0]
        ++ leBytes 4 (x0 % 16777216).toNat ++ leBytes 4 e.toNat ++ leBytes 4 (crc32 dec) ++ runs
        ++ leBytes (4 * ceilDiv (n * b) 32) (packBits b (qs.map (fun (q : Int) => (q % ((2 ^ b : Nat) : Int)).toNat))), merged, svVerified s rs xs rec_)

/-! ### Phasor blocks (R291, R292) -/

/-- A binary32 value as a code of `m` fraction bits, and whether it saturated (R291). -/
def phCode (m : Nat) (w : Word) : Nat × Bool :=
  let s := if F32.neg? w then 2 ^ (m + 8) else 0
  let e := F32.expo w
  let f := F32.frac w
  if F32.isNaN w then (s + 255 * 2 ^ m + 2 ^ (m - 1), false)
  else if F32.isInf w then (s + 255 * 2 ^ m, false)
  else
    let r := divRne (e * 8388608 + f) (2 ^ (23 - m))
    if 255 * 2 ^ m ≤ r then (s + 255 * 2 ^ m - 1, true) else (s + r, false)

/-- The binary32 value a code stands for. -/
def phDecode (m : Nat) (c : Nat) : Nat := (c / 2 ^ (m + 8)) * 2147483648 + c % 2 ^ (m + 8) * 2 ^ (23 - m)

/-- Coded data of a phasor block (Table 9.3), and how many values saturated. -/
def encodePh (code : Nat) (samples : List (List Word)) : List Byte × Nat :=
  let m := phMant code
  let w := phWidth code
  let cs := samples.map (fun ws => ((ws.take 4).map (phCode m), (ws.getD 4 0).field 0 20))
  let sat := (cs.map (fun c => (c.1.filter (fun x => x.2)).length)).sum
  let one (c : List (Nat × Bool) × Nat) : Nat := packBits w (c.1.map (fun x => x.1)) + c.2 * 2 ^ (4 * w)
  let dec := cs.flatMap (fun c => c.1.flatMap (fun x => leBytes 4 (phDecode m x.1)) ++ leBytes 4 c.2)
  let n := samples.length
  ([BitVec.ofNat 8 m, 0, 0, 0] ++ leBytes 4 sat ++ leBytes 4 0 ++ leBytes 4 (crc32 dec)
    ++ leBytes (4 * ceilDiv (n * (4 * w + 20)) 32) (packBits (4 * w + 20) (cs.map one)), sat)

/-! ### Host job contexts (R296 to R301) -/

/-- A host job context. -/
def Dev.swgCtx (n : Nat) (d : Dev) : SwgCtx := KMap.getD d.swg.ctxs n SwgCtx.new

/-- Store a context. -/
def Dev.putSwgCtx (n : Nat) (x : SwgCtx) (d : Dev) : Dev := { d with swg := { d.swg with ctxs := KMap.put d.swg.ctxs n x } }

/-- The code and header of a context command. -/
def SwgCmd.hdr : SwgCmd → Nat × CmdHdr
  | .openCtx h _ _ _ => (0x70, h)
  | .feed h _ _ _ _ => (0x72, h)
  | .flush h => (0x73, h)
  | .close h => (0x74, h)

/-- A context command ends with a status; a feed tells the blocks it wrote and the samples it consumed. -/
def Dev.swgEndErr (status : Nat) (memErr : Bool) (c : SwgCmd) (d : Dev) : Dev :=
  d.completeErr c.hdr.2 c.hdr.1 status memErr (match c with
    | .feed _ left total written _ => [0, 0, BitVec.ofNat 32 written, if status = 0 then 0 else BitVec.ofNat 32 (total - left.length)]
    | _ => [])

/-- A context command ends without a transfer error. -/
def Dev.swgEnd (status : Nat) (c : SwgCmd) (d : Dev) : Dev := d.swgEndErr status false c

/-- A buffer is retired with a status: bytes used and blocks. -/
def Dev.swgRetire (status : Nat) (b : SwgBuf) (d : Dev) : Dev :=
  d.complete b.hdr 0x71 status [0, 0, BitVec.ofNat 32 b.used, BitVec.ofNat 32 b.blocks]

/-- A context is closed and everything it held is discarded (R301): the command in progress and those that wait end with
`ABORTED`, and its buffers are retired with `status`. -/
def Dev.swgAbort (status n : Nat) (d : Dev) : Dev :=
  let x := d.swgCtx n
  let d := d.putSwgCtx n SwgCtx.new
  let d := (x.cur.toList ++ x.wait).foldl (fun (e : Dev) c => e.swgEnd 7 c) d
  x.bufs.foldl (fun (e : Dev) b => e.swgRetire status b) d

/-! ### One block (Table 8.10, R293 to R295) -/

/-- A block header (Table 8.10). -/
def blockHeader (ch kind code first n : Nat) (gap : Bool) (bytes : Nat) : List Byte :=
  leBytes 2 ch ++ [BitVec.ofNat 8 kind, BitVec.ofNat 8 code] ++ leBytes 4 first ++ leBytes 2 n
    ++ leBytes 2 (if gap then 1 else 0) ++ leBytes 4 bytes ++ leBytes 16 0

/-- Samples in their stored format. -/
def rawBlock (samples : List (List Word)) : List Byte := samples.flatMap (fun ws => ws.flatMap (fun w => leBytes 4 w.toNat))

/-- Add to a 64-bit counter held in two registers. -/
def Dev.add64 (lo n : Nat) (d : Dev) : Dev :=
  let v := (d.reg lo).toNat + (d.reg (lo + 4)).toNat * 4294967296 + n
  (d.setReg lo (lo32 v)).setReg (lo + 4) (hi32 v)

/-- Swage fails permanently (R295). -/
def Dev.swgFault (d : Dev) : Dev :=
  let n := d.swg.count
  let d := (d.setField Reg.SWG_STATUS 1 1 1).raise Reg.SWG_EVT 1
  let d := d.unitDown 3
  let d := d.post 0x0014 [BitVec.ofNat 32 n, 0, 0, 0]
  d.notice 0xE4 [BitVec.ofNat 32 n]

/-- Swage codes one block of a client, checks it and answers the block with its header. `fails` says how many of the
two checks of R294 fail; both do where the block cannot be decoded within its error. -/
def Dev.codeBlock (client ch kind code first : Nat) (gap : Bool) (fails : Nat) (samples : List (List Word)) (d : Dev) :
    List Byte × Dev :=
  let raw := rawBlock samples
  let n := samples.length
  let bypass := d.rbit Reg.SWG_STATUS 1
  let (svData, merged, good) := encodeSv code (samples.map (fun ws => ws.headD 0))
  let fails := if bypass then 0 else if kind = 0 && !good then 2 else min 2 fails
  let d := d.add64 Reg.SWG_IN_BYTES_LO raw.length
  let d := if fails = 0 then d else d.bump Reg.SWG_VERIFY_FAIL fails
  if bypass || fails == 2 then
    let bs := blockHeader ch kind 0 first n gap raw.length ++ raw
    let d := (d.bump Reg.SWG_UNCODED 1).add64 Reg.SWG_OUT_BYTES_LO bs.length
    let d := { d with swg := { d.swg with count := d.swg.count + 1 } }
    if bypass then (bs, d)
    else
      let d := (d.raise Reg.SWG_EVT 0).post 0x0015 [BitVec.ofNat 32 client, BitVec.ofNat 32 ch,
        BitVec.ofNat 32 (kind + code * 256), 0]
      let recent := d.raw :: d.swg.fails.filter (fun t => decide (d.raw < t + 1000000000))
      let d := { d with swg := { d.swg with fails := recent } }
      (bs, if 3 ≤ recent.length then d.swgFault else d)
  else
    let (data, d) :=
      if kind = 0 then
        (svData, if merged then d.bump Reg.SWG_MERGED 1 else d)
      else
        let (x, sat) := encodePh code samples
        (x, if sat = 0 then d else d.bump Reg.SWG_SATURATED sat)
    let bs := blockHeader ch kind code first n gap data.length ++ data
    (bs, (d.wrapAdd Reg.SWG_BLOCKS 1).add64 Reg.SWG_OUT_BYTES_LO bs.length)

end Sys2Proof.Machine
end

