-- ==== Sys2Proof/Machine/ShtOps.lean ====
section
/-! DEFINITION. The operations of Shutter (08_shutter_capture.md): the definition of a group, its history in the raw
ring, table triggers and the mask test, what a trigger does to a group, closing a capture, and the capture header. -/

namespace Sys2Proof.Machine

/-! ### Definitions (Tables 8.1, 8.2, 8.5) -/

/-- Word `w` of capture group `g`. -/
def gW (t : SMap) (g w : Nat) : Word := SMap.get zeroW t (0x340000 + 64 * g + 4 * w)
/-- Word `w` of table trigger `n`. -/
def tW (t : SMap) (n w : Nat) : Word := SMap.get zeroW t (0x340400 + 32 * n + 4 * w)
/-- `EN` of a group. -/
def gEn (t : SMap) (g : Nat) : Bool := (gW t g 0).bit 0

/-- The Shutter words of the active tables. -/
def Dev.shtTab (d : Dev) : SMap := d.act.filter (fun p => decide (0x340000 ≤ p.1) && decide (p.1 < 0x350000))

/-- SV channels of a group, ascending. -/
def svOf (t : SMap) (g : Nat) : List Nat :=
  t.filterMap (fun p => if 0x341000 ≤ p.1 ∧ p.1 < 0x341800 ∧ p.2.bit g = true then some ((p.1 - 0x341000) / 4) else none)

/-- Phasor channels of a group, ascending. -/
def phOf (t : SMap) (g : Nat) : List Nat :=
  t.filterMap (fun p =>
    if 0x342000 ≤ p.1 ∧ p.1 < 0x346000 ∧ (p.1 - 0x342000) % 8 = 4 ∧ p.2.bit g = true ∧
        (SMap.get zeroW t (p.1 - 4)).bit 0 = true
    then some ((p.1 - 0x342000) / 8) else none)

/-- Stream and phasor of a phasor channel. -/
def phChan (t : SMap) (p : Nat) : Nat × Nat :=
  let w := SMap.get zeroW t (0x342000 + 8 * p)
  (w.field 1 13, w.field 14 6)

/-- What defines a group: its entry, triggers and mask, its SV channels, and its phasor channels with what they name
(R261). -/
def groupDef (t : SMap) (g : Nat) : SMap × List Nat × List (Nat × Nat × Nat) :=
  (t.filter (fun p =>
    let o := p.1
    if o < 0x340000 then false
    else if o < 0x340400 then decide ((o - 0x340000) / 64 = g)
    else if o < 0x340C00 then (tW t ((o - 0x340400) / 32) 0).field 3 4 == g && (tW t ((o - 0x340400) / 32) 0).bit 0
    else decide (0x348000 ≤ o) && decide ((o - 0x348000) / 2048 = g)),
   svOf t g, (phOf t g).map (fun p => (p, phChan t p)))

/-- The kind 1 entry that feeds an SV channel (R114). -/
def Dev.feeder (c : Nat) (d : Dev) : Option Nat :=
  (validIn d.act).find? (fun i =>
    let e := d.entry i
    eKind e == 1 && decide ((ew e 6).field 21 9 ≤ c) && decide (c < (ew e 6).field 21 9 + ePh e))

/-- Native rate of an SV channel; 0 when nothing feeds it. -/
def Dev.svChanRate (c : Nat) (d : Dev) : Nat :=
  match d.feeder c with
  | some i => svRate (eRate (d.entry i))
  | none => 0

/-- Rate of a phasor channel. -/
def Dev.phChanRate (t : SMap) (p : Nat) (d : Dev) : Nat := rateOf (eRate (d.entry (phChan t p).1))

/-- The base rate of a group (R259). -/
def Dev.baseRate (t : SMap) (g : Nat) (d : Dev) : Nat :=
  let sv := svOf t g
  if sv.isEmpty then ((phOf t g).map (fun p => d.phChanRate t p)).foldl max 0
  else (sv.map (fun c => d.svChanRate c)).foldl max 0

/-- Base sample of an instant in 2^-16 ns: floor(t x R + 1/2). -/
def baseSample (r : Nat) (t : Int) : Nat := ((2 * t * (r : Int) + 65536000000000) / 131072000000000).toNat

/-- A group's state. -/
def Dev.grp (g : Nat) (d : Dev) : ShtGroup := KMap.getD d.sht.groups g ShtGroup.new

/-- Store a group's state. -/
def Dev.setGrp (g : Nat) (x : ShtGroup) (d : Dev) : Dev := { d with sht := { d.sht with groups := KMap.put d.sht.groups g x } }

/-- Groups that are not IDLE, ascending. -/
def Dev.liveGroups (d : Dev) : List Nat := (d.sht.groups.filter (fun p => p.2.st != 0)).map (fun p => p.1)

/-! ### The raw ring (R277, R278) -/

/-- Stored samples of a channel. -/
def ShtChan.count (c : ShtChan) : Nat := (c.smp.map (fun s => if s.ws.isEmpty then 0 else s.run)).sum

/-- Bytes a channel takes in the ring (R277). -/
def ShtChan.bytes (c : ShtChan) : Nat := c.count * (if c.kind = 0 then 4 else 20) + 32 * ceilDiv c.count 256

/-- Bytes of the ring in use. -/
def ShtGroup.used (x : ShtGroup) : Nat := (x.chans.map ShtChan.bytes).sum + (x.held.map (fun p => p.2.bytes)).sum

/-- Whether a capture keeps a sample of a channel frozen (R278). -/
def Capture.freezes (c : Capture) (kind ch n : Nat) : Bool :=
  (c.st == 1 || c.st == 2) && c.chans.any (fun x => x.kind == kind && x.ch == ch && decide (x.first ≤ n)
    && decide (x.next ≤ n) && (match x.endN with | some e => decide (n < e) | none => true))

/-- Whether any capture of a group keeps a sample of its history `gen` frozen. -/
def Dev.frozenIn (g gen kind ch n : Nat) (d : Dev) : Bool :=
  d.sht.caps.any (fun c => c.g == g && c.gen == gen && c.freezes kind ch n)

/-- Whether a sample of a group's present history is frozen. -/
def Dev.frozen (g kind ch n : Nat) (d : Dev) : Bool := d.frozenIn g (d.grp g).gen kind ch n

/-- What captures keep frozen of a channel of a history. -/
def Dev.frozenPart (g gen : Nat) (c : ShtChan) (d : Dev) : ShtChan :=
  { c with smp := c.smp.filter (fun s => d.frozenIn g gen c.kind c.ch s.n || d.frozenIn g gen c.kind c.ch (s.n + s.run - 1)) }

/-- The samples of ended histories that are still frozen. -/
def Dev.trimHeld (g : Nat) (d : Dev) : Dev :=
  let x := d.grp g
  let held := (x.held.map (fun p => (p.1, d.frozenPart g p.1 p.2))).filter (fun p => !p.2.smp.isEmpty)
  d.setGrp g { x with held := held }

/-- Start or restart a group's history under its definition (R261, R267); frozen samples of the one that ends are kept. -/
def Dev.startHistory (g : Nat) (d : Dev) : Dev :=
  let x := d.grp g
  let chans : List ShtChan :=
    (svOf x.tab g).map (fun c => { kind := 0, ch := c, rate := d.svChanRate c, smp := [] })
      ++ (phOf x.tab g).map (fun p => { kind := 1, ch := p, rate := d.phChanRate x.tab p, smp := [] })
  let y : ShtGroup := { x with chans := chans, gen := x.gen + 1, held := x.held ++ x.chans.map (fun c => (x.gen, c)), trigs := []
                               viol := 0, violIdle := false }
  (d.setGrp g y).trimHeld g

/-- The time of a sample number at a rate, in 2^-16 ns. -/
def smpTime (rate n : Nat) : Nat := n * 65536000000000 / zeroActs 1 rate

/-- The oldest unfrozen samples of a channel, as the time they begin. -/
def Dev.oldestFree (g : Nat) (c : ShtChan) (d : Dev) : Option Nat :=
  match c.smp.getLast? with
  | some s => if d.frozen g c.kind c.ch (s.n + s.run - 1) || d.frozen g c.kind c.ch s.n then none else some (smpTime c.rate s.n)
  | none => none

/-- Drop the oldest unfrozen samples of the ring. -/
def Dev.dropOldest (g : Nat) (x : ShtGroup) (d : Dev) : Option ShtGroup :=
  let best := x.chans.foldl (fun (b : Option (Nat × Nat × Nat)) c =>
    match d.oldestFree g c with
    | none => b
    | some t =>
      match b with
      | none => some (t, c.kind, c.ch)
      | some (t', _, _) => if t < t' then some (t, c.kind, c.ch) else b) none
  match best with
  | none => none
  | some (_, k, ch) =>
    some { x with chans := x.chans.map (fun c => if c.kind = k ∧ c.ch = ch then { c with smp := c.smp.dropLast } else c) }

/-- Make room for `need` bytes, dropping at most `n` entries. -/
def Dev.makeRoom (g need : Nat) : Nat → ShtGroup → Dev → Option ShtGroup
  | 0, x, _ => if x.used + need ≤ (gW x.tab g 5).field 16 14 * 1048576 then some x else none
  | n + 1, x, d =>
    if x.used + need ≤ (gW x.tab g 5).field 16 14 * 1048576 then some x
    else
      match d.dropOldest g x with
      | some y => Dev.makeRoom g need n y d
      | none => none

/-! ### Marks and captures (R270 to R274, R282) -/

/-- Replace a capture. -/
def Dev.putCap (c : Capture) (d : Dev) : Dev :=
  { d with sht := { d.sht with caps := d.sht.caps.map (fun x => if x.id = c.id ∧ x.g = c.g then c else x) } }

/-- The capture a group records. -/
def Dev.recording (g : Nat) (d : Dev) : Option Capture := d.sht.caps.find? (fun c => c.g == g && c.st == 1)

/-- Write a mark; with all 64 in use an overflow run extends its channel's last, any other is dropped (R282). -/
def Capture.mark (c : Capture) (m : CapMark) : Capture :=
  if c.marks.length < 64 then { c with marks := c.marks ++ [m] }
  else
    let c := { c with flags := c.flags ||| 4 }
    if m.typ = 1 then
      match (c.marks.reverse.find? (fun x => x.typ == 1 && x.chan == m.chan)) with
      | some l => { c with marks := c.marks.map (fun x => if x = l then { x with val := x.val + m.val } else x) }
      | none => c
    else c

/-- Base sample index of an instant relative to the capture's start. -/
def Capture.index (c : Capture) (t : Int) : Int := (baseSample c.rg t : Int) - (baseSample c.rg c.start : Int)

/-- A run of lost samples goes on or begins. -/
def lostRun (n run : Nat) (l : List (Nat × Nat)) : List (Nat × Nat) :=
  match l.getLast? with
  | some (m, r) => if m + r = n then l.dropLast ++ [(m, r + run)] else l ++ [(n, run)]
  | none => [(n, run)]

/-- The overflow mark of a run of lost samples: one for each channel and run (R278, R282). -/
def Capture.lostMark (kind ch n run rate : Nat) (c : Capture) : Capture :=
  let goesOn := c.chans.any (fun x => x.kind == kind && x.ch == ch && (match x.lost.getLast? with
    | some (m, r) => m + r == n
    | none => false))
  match goesOn, c.marks.reverse.find? (fun m => m.typ == 1 && m.chan == ch) with
  | true, some l => { c with marks := c.marks.map (fun m => if m = l then { m with val := m.val + run } else m) }
  | _, _ => c.mark { typ := 1, chan := ch, idx := c.index (smpTime rate n : Nat), val := run }

/-- Samples are lost; those of a recording capture are marked in it (R278). -/
def Dev.sampleLost (g kind ch n run : Nat) (rate : Nat) (d : Dev) : Dev :=
  let d := (d.bump (Reg.SHT_GRP_OVF g) run).raise Reg.SHT_EVT 2
  let x := d.grp g
  let d := d.setGrp g { x with chans := x.chans.map (fun (c : ShtChan) =>
    if c.kind = kind ∧ c.ch = ch then { c with smp := { n := n, run := run, ws := [] } :: c.smp } else c) }
  match d.recording g with
  | none => d
  | some c =>
    let c := c.lostMark kind ch n run rate
    d.putCap { c with flags := c.flags ||| 2, chans := c.chans.map (fun (x : CapChan) =>
      if x.ch = ch ∧ x.kind = kind then { x with lost := lostRun n run x.lost } else x) }

/-- Append samples to a channel of a group, or lose them. -/
def Dev.appendSmp (g kind ch : Nat) (s : ShtSmp) (d : Dev) : Dev :=
  let x := d.grp g
  match x.chans.find? (fun c => c.kind == kind && c.ch == ch) with
  | none => d
  | some c =>
    let need := s.run * (if kind = 0 then 4 else 20) + 32
    match d.makeRoom g need (x.chans.map (fun c => c.smp.length)).sum x with
    | some y =>
      d.setGrp g { y with chans := y.chans.map (fun c => if c.kind = kind ∧ c.ch = ch then { c with smp := s :: c.smp } else c) }
    | none => d.sampleLost g kind ch s.n s.run c.rate

/-- A sample that never arrived, in its stored format (Table 8.9). -/
def missingSmp (kind : Nat) : List Word :=
  if kind = 0 then [0x08000000] else [F32.nan, F32.nan, F32.nan, F32.nan, 0]

/-- Store a sample of a channel in a group: those before it that never arrived are stored as missing (R277). -/
def Dev.storeSmp (g kind ch n : Nat) (ws : List Word) (d : Dev) : Dev :=
  let x := d.grp g
  match x.chans.find? (fun c => c.kind == kind && c.ch == ch) with
  | none => d
  | some c =>
    match c.smp.head? with
    | none => d.appendSmp g kind ch { n := n, run := 1, ws := ws }
    | some l =>
      let nx := l.n + l.run
      if n < nx then d
      else
        let d := if nx < n then d.appendSmp g kind ch { n := nx, run := n - nx, ws := missingSmp kind } else d
        d.appendSmp g kind ch { n := n, run := 1, ws := ws }

/-- Raw count at an instant of derived time (2^-16 ns), as the rate in force runs. -/
def Dev.rawAt (t : Int) (d : Dev) : Nat :=
  ((d.raw : Int) - (d.derived - t * 4294967296) / (281474976710656 + d.tbu.rate)).toNat

/-- First sample number of a rate at or after an instant. -/
def firstSmp (rate : Nat) (t : Int) : Nat := ((t * (rate : Int) + 65535999999999) / 65536000000000).toNat

/-- A channel descriptor at the start of a capture (R273). -/
def Dev.capChan (t0 : Int) (preMs : Nat) (c : ShtChan) (d : Dev) : CapChan :=
  let want := firstSmp c.rate (t0 - (preMs * 65536000000 : Nat))
  let held := match c.smp.reverse.find? (fun s => !s.ws.isEmpty) with | some s => s.n | none => firstSmp c.rate t0
  let first := max want held
  let scale := if c.kind = 0 then d.actW (0x2A0000 + 32 * c.ch + 4) else 0x3F800000
  { kind := c.kind, ch := c.ch, rate := c.rate, first := first, next := first, endN := none,
    pre := firstSmp c.rate t0 - first, short := decide (want < held), scale := scale, lost := [] }

/-- The free record slot of a group, lowest first (R267). -/
def Dev.freeSlot (g : Nat) (d : Dev) : Option Nat :=
  (List.range 64).find? (fun s => !(d.sht.caps.any (fun c => c.g == g && c.slot == s && !c.released)))

/-- Queue a trigger for a group. -/
def Dev.queueTrig (e : ShtEv) (d : Dev) : Dev := { d with sht := { d.sht with evs := d.sht.evs ++ [e] } }

/-- Start a capture (R270, R273). -/
def Dev.startCapture (e : ShtEv) (slot : Nat) (d : Dev) : Dev :=
  let g := e.g
  let x := d.grp g
  let t := x.tab
  let rg := d.baseRate t g
  let chans := x.chans.map (fun c => d.capChan e.inst ((gW t g 1).field 0 17) c)
  let start := (chans.map (fun c => (smpTime c.rate c.first : Int))).foldl min e.inst
  let id := (d.reg Reg.SHT_NEXT_ID).toNat
  let flags := (if chans.any (fun c => c.short) then 1 else 0) + (if d.tbu.sync = 2 then 0 else 128)
    + (if d.rbit Reg.TBU_UTC 8 then 256 else 0) + (if d.rbit Reg.TBU_UTC 10 then 512 else 0)
  let fnom := match svOf t g with
    | c :: _ => if (d.actW (0x2A0000 + 32 * c)).bit 1 then 50 else 60
    | [] => 0
  let c : Capture :=
    { id := id, g := g, slot := slot, st := 1, reason := 0, flags := flags, srcs := [e.src], primary := e.src,
      details := [(e.src, e.detail)], t0 := e.inst, i0 := baseSample rg e.inst, rg := rg, epoch := d.tbu.epoch,
      tq := d.msgTq, utc := d.reg Reg.TBU_UTC, raw0 := d.rawAt e.inst, fnom := fnom,
      endT := e.inst + ((gW t g 2).field 0 20 * 65536000000 : Nat), start := start, exts := 0, marks := [],
      chans := chans, code := (gW t g 0).field 8 4, off := none, rawLen := 0, data := [], released := false,
      gen := x.gen }
  let d := (d.setGrp g { x with st := 2 }).wrapAdd Reg.SHT_NEXT_ID 1
  let d := d.setReg (Reg.SHT_GRP_LAST_ID g) (BitVec.ofNat 32 id)
  let d := { d with sht := { d.sht with caps := d.sht.caps ++ [c] } }
  if e.src = 76 then d
  else
    ((List.range 16).filter (fun h => (gW t g 3).bit (16 + h) && (gW (d.grp h).tab h 3).bit 12)).foldl (fun d h =>
      d.queueTrig { g := h, src := 76, inst := e.inst, detail := 0xFFFF, mark := none }) d

/-- A trigger is missed (R269). -/
def Dev.missTrigger (e : ShtEv) (d : Dev) : Dev :=
  let x := d.grp e.g
  let d := d.setGrp e.g { x with holdCnt := x.holdCnt + 1 }
  let d := (d.bump (Reg.SHT_GRP_MISSED e.g) 1).raise Reg.SHT_EVT 1
  d.post 0x0020 ([BitVec.ofNat 32 (e.g + e.src * 256)] ++ tickWords (e.inst / 65536) ++ [0])

/-- What a trigger does to its group (R269 to R272, Table 8.7). Answers 0 started, 1 joined the source set, 2 extended,
3 secondary, 4 missed, 5 ignored. -/
def Dev.triggerGroup (e : ShtEv) (d : Dev) : Nat × Dev :=
  let x := d.grp e.g
  if x.st = 0 ∨ x.st = 6 then (5, d)
  else if x.st = 1 then
    match d.freeSlot e.g with
    | some s => (0, d.startCapture e s)
    | none => (4, d.missTrigger e)
  else if x.st = 2 ∨ x.st = 3 then
    match d.recording e.g with
    | none => (4, d.missTrigger e)
    | some c =>
      if baseSample c.rg e.inst = c.i0 then
        let srcs := if c.srcs.contains e.src then c.srcs else c.srcs ++ [e.src]
        let det := if KMap.has c.details e.src then c.details else KMap.put c.details e.src e.detail
        (1, d.putCap { c with srcs := srcs, primary := min c.primary e.src, details := det })
      else if x.st = 3 then (4, d.missTrigger e)
      else
        let post : Int := ((gW x.tab e.g 2).field 0 20 * 65536000000 : Nat)
        let newEnd := min (e.inst + post) (c.t0 + 39321600000000000)
        let inWin := decide (c.endT - post / 10 ≤ e.inst) && decide (e.inst < c.endT)
        if (gW x.tab e.g 0).bit 2 && inWin && decide (c.endT < newEnd) then
          let c := c.mark { typ := 5, chan := e.src, idx := c.index e.inst, val := twos64 (e.inst / 65536) }
          (2, d.putCap { c with endT := newEnd, exts := c.exts + 1, flags := c.flags ||| 16 })
        else
          (3, d.putCap (c.mark { typ := 3, chan := e.src, idx := c.index e.inst, val := twos64 (e.inst / 65536) }))
  else (4, d.missTrigger e)

/-- A mask violation with its first sample at `first` is marked in the capture of its group that holds the sample (R276). -/
def Dev.markViolation (g val : Nat) (first : Int) (d : Dev) : Dev :=
  match d.recording g with
  | some c =>
    if c.start ≤ first ∧ first < c.endT then
      let m := c.mark { typ := 4, chan := (gW (d.grp g).tab g 7).field 8 11, idx := c.index first, val := val }
      d.putCap { m with flags := m.flags ||| 64 }
    else d
  | none => d

/-- A trigger reaches its group; a mask violation that started a capture, or that a capture begun meanwhile holds, is marked
in it (R276). -/
def Dev.trigger (e : ShtEv) (d : Dev) : Nat × Dev :=
  let (r, d) := d.triggerGroup e
  match e.mark with
  | some v => (r, if r < 4 then d.markViolation e.g v e.inst else d)
  | none => (r, d)

/-- A recording capture closes (R274, Table 8.7): the header's fields are final, and its group goes on. A definition
that a commit changed meanwhile takes over (R261). `at_` is the end of a capture that closes early. -/
def Dev.closeCapture (g reason : Nat) (at_ : Option Int) (d : Dev) : Dev :=
  match d.recording g with
  | none => d
  | some c =>
    let endT := at_.getD c.endT
    let chans := c.chans.map (fun x => { x with endN := some (max x.first (firstSmp x.rate endT)) })
    let c := { c with st := 2, reason := reason, endT := endT, chans := chans }
    let d := (d.putCap c).wrapAdd (Reg.SHT_GRP_CAPTURES g) 1
    let x := d.grp g
    let w := gW x.tab g 0
    let hold := w.field 16 16
    let st := if w.bit 1 || (w.bit 3 && c.flags.testBit 6) then 6 else if hold = 0 then 5 else 4
    let x := { x with st := st, holdEnd := d.raw + (if w.bit 4 then 0 else hold * 1000000), holdCnt := 0 }
    let d := d.setGrp g x
    let fresh := d.shtTab
    if groupDef fresh g = groupDef x.tab g then d
    else if !gEn fresh g then d.setGrp g { x with st := 0, tab := fresh }
    else (d.setGrp g { x with tab := fresh }).startHistory g

/-! ### Table triggers (R263, R264) -/

/-- Evaluate an edge on a sample; answers the trigger instant when it fires. -/
def edgeStep (w0 level hyst x : Word) (inst : Int) (s : ShtTrig) : Option Int × ShtTrig :=
  let dir := w0.field 8 2
  let lo := F32.sub level hyst
  let hi := F32.add level hyst
  let rise := dir != 1
  let fall := dir != 0
  let s := if rise && F32.lt x lo then { s with armed := true } else s
  let s := if fall && F32.lt hi x then { s with fell := true } else s
  let up := rise && s.armed && F32.lt level x
  let dn := fall && s.fell && F32.lt x level
  if up || dn then
    let cont := decide (0 < s.run) && s.truth == up
    let run := if cont then s.run + 1 else 1
    let first := if cont then s.inst else inst
    if zeroActs 1 (w0.field 16 8) ≤ run then (some first, { s with armed := false, fell := false, run := 0 })
    else (none, { s with run := run, inst := first, truth := up })
  else (none, { s with run := 0 })

/-- Evaluate a level term. -/
def levelStep (w0 level hyst x : Word) (s : ShtTrig) : ShtTrig :=
  let t := if w0.field 8 2 = 0 then F32.lt level x || (s.truth && F32.lt (F32.sub level hyst) x)
    else F32.lt x level || (s.truth && F32.lt x (F32.add level hyst))
  { s with truth := t, valid := true }

/-- A trigger's state in a group. -/
def ShtGroup.trig (x : ShtGroup) (n : Nat) : ShtTrig := KMap.getD x.trigs n ShtTrig.new

/-- The terms of a pattern: trigger and `WANT` (R264). -/
def patTerms (t : SMap) (n : Nat) : List (Nat × Nat) :=
  (List.range 8).filterMap (fun k =>
    let b := (tW t n (4 + k / 4)).field (8 * (k % 4)) 8
    if b / 64 = 1 ∨ b / 64 = 2 then some (b % 64, b / 64) else none)

/-- Evaluate a pattern; answers the trigger instant when it fires. -/
def patStep (t : SMap) (n : Nat) (x : ShtGroup) (inst : Int) : Option Int × ShtGroup :=
  let s := x.trig n
  let terms := patTerms t n
  if terms.isEmpty || terms.any (fun p => !(x.trig p.1).valid) then (none, x)
  else
    let truth := terms.all (fun p => (x.trig p.1).truth == (p.2 == 1))
    let (f, s) :=
      if !truth then (none, { s with run := 0, fell := true, truth := false })
      else if !s.fell then (none, { s with truth := true })
      else
        let first := if s.run = 0 then inst else s.inst
        if zeroActs 1 ((tW t n 0).field 16 8) ≤ s.run + 1 then (some first, { s with run := 0, fell := false, truth := true })
        else (none, { s with run := s.run + 1, inst := first, truth := true })
    (f, { x with trigs := KMap.put x.trigs n s })

/-- Table triggers of a group: enabled, in ascending number. -/
def groupTrigs (t : SMap) (g : Nat) : List Nat :=
  (List.range 64).filter (fun n => (tW t n 0).bit 0 && (tW t n 0).field 3 4 == g)

/-- The term channel whose samples time a pattern (Table 8.6): of the fastest, the one delivered last. -/
def Dev.patClock (t : SMap) (n : Nat) (d : Dev) : Option Nat :=
  (patTerms t n).foldl (fun (b : Option Nat) p =>
    let ch := (tW t p.1 1).field 0 11
    match b with
    | none => some ch
    | some c =>
      let r := if (tW t p.1 0).bit 7 then d.phChanRate t ch else d.svChanRate ch
      let rb := if (tW t p.1 0).bit 7 then d.phChanRate t c else d.svChanRate c
      if rb < r ∨ (rb = r ∧ c < ch) then some ch else some c) none

/-- A pattern of a group is evaluated at an instant. -/
def Dev.evalPattern (g n : Nat) (inst : Int) (d : Dev) : Dev :=
  let (f, x) := patStep (d.grp g).tab n (d.grp g) inst
  let d := d.setGrp g x
  match f with
  | some i => d.queueTrig { g := g, src := n, inst := i, detail := 0xFFFF, mark := none }
  | none => d

/-- The patterns of a group whose terms are of a kind. -/
def kindPats (t : SMap) (g kind : Nat) : List Nat :=
  (groupTrigs t g).filter (fun n => (tW t n 0).field 1 2 == 1 && (match patTerms t n with
    | p :: _ => (tW t p.1 0).bit 7 == (kind == 1)
    | [] => false))

/-- Evaluate the triggers of a group on a channel: `val n` is the value a trigger reads there, none when it is not
valid. `inst` is the instant; `round` says that patterns are evaluated by the caller (Table 8.6). -/
def Dev.evalChannel (g kind ch : Nat) (inst : Int) (val : Nat → Option Word) (round : Bool) (d : Dev) : Dev :=
  let t := (d.grp g).tab
  let mine := (groupTrigs t g).filter (fun n =>
    (tW t n 0).field 1 2 != 1 && ((tW t n 0).bit 7 == (kind == 1)) && (tW t n 1).field 0 11 == ch)
  let d := mine.foldl (fun d n =>
    let x := d.grp g
    let s := x.trig n
    let w0 := tW t n 0
    match val n with
    | none =>
      if w0.field 1 2 = 2 then d.setGrp g { x with trigs := KMap.put x.trigs n { s with valid := false } } else d
    | some v =>
      if w0.field 1 2 = 2 then
        d.setGrp g { x with trigs := KMap.put x.trigs n (levelStep w0 (tW t n 2) (tW t n 3) v s) }
      else
        let (f, s) := edgeStep w0 (tW t n 2) (tW t n 3) v inst s
        let d := d.setGrp g { x with trigs := KMap.put x.trigs n s }
        match f with
        | some i => d.queueTrig { g := g, src := n, inst := i, detail := 0xFFFF, mark := none }
        | none => d) d
  if round then d
  else ((kindPats t g kind).filter (fun n => d.patClock t n == some ch)).foldl (fun d n => d.evalPattern g n inst) d

/-! ### The mask test (R275, R276) -/

/-- The grid phase of a channel at an instant, in 2^-48 cycle (R169). -/
def PhxCh.phase (c : PhxCh) (t : Int) : Int :=
  match (c.segs.find? (fun s => decide (s.t0 ≤ t))).or c.segs.getLast? with
  | some s => s.phi + F32.num s.ft * (t - s.t0) * 281474976710656 / (65536000000000 * (F32.one149 : Int))
  | none => 0

/-- A sample under the mask test of a group: inside the bounds or not. -/
def Dev.maskSample (g : Nat) (inst : Int) (outside : Bool) (shown : Word) (pt : Nat) (d : Dev) : Dev :=
  let x := d.grp g
  let min_ := zeroActs 1 ((gW x.tab g 7).field 24 8)
  if !outside then d.setGrp g { x with viol := 0, violIdle := false }
  else if x.violIdle then d
  else
    let first := if x.viol = 0 then inst else x.violAt
    if x.viol + 1 < min_ then d.setGrp g { x with viol := x.viol + 1, violAt := first }
    else
      let d := d.setGrp g { x with viol := 0, violAt := first, violIdle := true }
      let d := (d.bump (Reg.SHT_GRP_MASK_VIOL g) 1).raise Reg.SHT_EVT 3
      let val := shown.toNat + pt * 4294967296
      let holds := match d.recording g with
        | some c => decide (c.start ≤ first) && decide (first < c.endT)
        | none => false
      let d := d.markViolation g val first
      if (gW x.tab g 3).bit 13 then
        d.queueTrig { g := g, src := 77, inst := first, detail := 0xFFFF, mark := if holds then none else some val }
      else d

/-- A bound of the mask (R275). -/
def maskWord (t : SMap) (g q hi : Nat) : Word := SMap.get zeroW t (0x348000 + 2048 * g + 8 * q + 4 * hi)

/-- The mask test of a group on a valid SV sample. -/
def Dev.maskSv (g ch : Nat) (inst : Int) (v : Int) (d : Dev) : Dev :=
  let x := d.grp g
  let w7 := gW x.tab g 7
  let c := KMap.getD d.phx.chans ch PhxCh.new
  if !(gW x.tab g 0).bit 5 || w7.bit 0 || w7.field 8 11 != ch || decide (d.t16 < max c.endP c.endM) then d
  else
    let q := ((c.phase inst) % 281474976710656 / 1099511627776).toNat
    let lo := signedOf 32 (maskWord x.tab g q 0).toNat
    let hi := signedOf 32 (maskWord x.tab g q 1).toNat
    d.maskSample g inst (decide (v < lo) || decide (hi < v)) (F32.ofInt v) q

/-- A quantity of a phasor channel (Tables 8.1, 8.5): 0 magnitude, 1 angle in degrees, 2 FREQ, 3 DFREQ, 4 digital bit. -/
def phQty (qty ph bit : Nat) (p : Payload) : Option Word :=
  let ok (v : Val) : Option Word := if v.ok then some v.bits else none
  match qty with
  | 0 => match p.ph[ph]? with
    | some q => if q.1.ok && q.2.ok then some (magF32 q.1.bits q.2.bits) else none
    | none => none
  | 1 => match p.ph[ph]? with
    | some q =>
      if q.1.ok && q.2.ok && !(F32.eq q.1.bits 0 && F32.eq q.2.bits 0) then some (Config.fn 42 [q.1.bits, q.2.bits])
      else none
    | none => none
  | 2 => ok p.freq
  | 3 => ok p.dfreq
  | 4 => match p.dg[bit / 16]? with
    | some w => if w.ok then some (if w.bits.toNat.testBit (bit % 16) then 0x3F800000 else 0) else none
    | none => none
  | _ => none

/-- The mask test of a group on a phasor channel at first look: its QTY codes are 0 magnitude, 1 FREQ, 2 DFREQ. -/
def Dev.maskPh (g ch : Nat) (inst : Int) (pay : Option Payload) (d : Dev) : Dev :=
  let x := d.grp g
  let w7 := gW x.tab g 7
  if !(gW x.tab g 0).bit 5 || !w7.bit 0 || w7.field 8 11 != ch then d
  else
    let qty := [0, 2, 3].getD (w7.field 1 3) 0
    match pay with
    | none => d
    | some p =>
      match phQty qty (phChan x.tab ch).2 0 p with
      | none => d
      | some v =>
        let out := F32.lt v (maskWord x.tab g 0 0) || F32.lt (maskWord x.tab g 0 1) v
        d.maskSample g inst out v 0

/-! ### Samples into Shutter -/

/-- Whether the part places triggers to the sample (`ID_CAP2.SHT_TRIG_SAMPLE`, Table 0.1). -/
def Part.trigSample : Part → Bool
  | .aq9124 => true | _ => false

/-- The number of the next sample of a group's channel. -/
def Dev.nextSmp (g kind ch : Nat) (d : Dev) : Nat :=
  match (d.grp g).chans.find? (fun c => c.kind == kind && c.ch == ch) with
  | some c => match c.smp.head? with | some l => l.n + l.run | none => 0
  | none => 0

/-- A native sample reaches Shutter, while P1 runs: `w` is its stored format, and `valid` says whether a trigger may read it. -/
def Dev.shtSv (fz : Fuse) (ch n rate : Nat) (w : Word) (v : Int) (valid : Bool) (d : Dev) : Dev :=
  let t := smpTime rate n
  let dl := (d.t16 - (t : Int))
  let old := (KMap.getD d.sht.delays ch []).filter (fun p => decide (d.raw < p.1 + 1000000000))
  let d := { d with sht := { d.sht with delays := KMap.put d.sht.delays ch ((d.raw, dl) :: old),
                                        fresh := KMap.put d.sht.fresh ch (if valid then some v else none) } }
  if !d.op.running then d
  else
    (d.liveGroups.filter (fun g => (d.grp g).chans.any (fun c => c.kind == 0 && c.ch == ch))).foldl (fun d g =>
      if n < d.nextSmp g 0 ch then d
      else
        let d := d.storeSmp g 0 ch n [w]
        let d := if fz.part.trigSample then
          d.evalChannel g 0 ch (t : Int) (fun _ => if valid then some (F32.ofInt v) else none) false else d
        if valid then d.maskSv g ch (t : Int) v else d) d

/-- Where a trigger on an SV channel is placed at the round that began last, on a part without placement to the sample: by the
delivery delay of the channel, at its nearest sample (Table 8.6). -/
def Dev.roundInst (ch : Nat) (d : Dev) : Int :=
  let ds := KMap.getD d.sht.delays ch []
  let mean : Int := if ds.isEmpty then 0 else (ds.map (fun p => p.2)).foldl (· + ·) 0 / (ds.length : Int)
  let begun : Int := Int.tdiv (d.derived - ((d.raw - d.phx.round : Nat) : Int) * (281474976710656 + d.tbu.rate)) 4294967296
  let rate := d.svChanRate ch
  (smpTime rate (baseSample rate (begun - ((d.reg Reg.SHT_SKEW_CAL).toNat * 65536 : Nat) - mean)) : Nat)

/-- Each round of the Phasor chain on a part without placement to the sample: the latest sample of every SV channel delivered
before it is evaluated, and then every pattern, placed by its term channel of lowest index (Table 8.6). -/
def Dev.shtRound (d : Dev) : Dev :=
  let got := d.sht.fresh
  let d := { d with sht := { d.sht with fresh := [] } }
  d.liveGroups.foldl (fun d g =>
    let t := (d.grp g).tab
    let d := (got.filter (fun p => (svOf t g).contains p.1)).foldl (fun d p =>
      d.evalChannel g 0 p.1 (d.roundInst p.1) (fun _ => p.2.map F32.ofInt) true) d
    (kindPats t g 0).foldl (fun d n =>
      let ch := ((patTerms t n).map (fun p => (tW t p.1 1).field 0 11)).foldl min 2047
      d.evalPattern g n (d.roundInst ch)) d) d

/-- The first look of a set reaches Shutter: triggers and masks on phasor channels (R265). -/
def Dev.shtFirstLook (rc k : Nat) (im : List ImgMember) (d : Dev) : Dev :=
  let inst : Int := (slot16 (rateOf rc) k : Nat)
  d.liveGroups.foldl (fun d g =>
    let t := (d.grp g).tab
    (phOf t g).foldl (fun d p =>
      let (s, ph) := phChan t p
      match im.find? (fun m => m.idx == s) with
      | none => d
      | some m =>
        let pay := if m.mask then m.pay else none
        let val (n : Nat) : Option Word := match pay with
          | some y => phQty ((tW t n 0).field 10 3) ph ((tW t n 1).field 16 8) y
          | none => none
        (d.evalChannel g 1 p inst val false).maskPh g p inst pay) d) d

/-- The final look of a set reaches Shutter: phasor samples are written (R277). -/
def Dev.shtFinalLook (k : Nat) (im : List ImgMember) (d : Dev) : Dev :=
  d.liveGroups.foldl (fun d g =>
    let t := (d.grp g).tab
    (phOf t g).foldl (fun d p =>
      let (s, ph) := phChan t p
      match im.find? (fun m => m.idx == s) with
      | none => d
      | some m =>
        let (re, im_) := match m.pay with
          | some y => match y.ph[ph]? with
            | some q => (wireVal q.1, wireVal q.2)
            | none => (F32.nan, F32.nan)
          | none => (F32.nan, F32.nan)
        let (f, df) := match m.pay with | some y => (wireVal y.freq, wireVal y.dfreq) | none => (F32.nan, F32.nan)
        let st := BitVec.ofNat 32 (m.stat.toNat + m.st % 8 * 65536 + (if m.mask then 524288 else 0))
        d.storeSmp g 1 p k [re, im_, f, df, st]) d) d

/-- A fixed source reaches, while P1 runs, every group that enables it (R262, Table 8.4); `chan` limits it to the groups with an SV
channel, `rule` to those whose rule range holds it. -/
def Dev.fixedTrigger (src : Nat) (inst : Int) (detail : Nat) (chan rule : Option Nat) (d : Dev) : Dev :=
  (d.liveGroups.filter (fun g =>
    let t := (d.grp g).tab
    d.op.running && (gW t g 3).bit (src - 64)
      && (match chan with | some c => (svOf t g).contains c | none => true)
      && (match rule with
        | some r => decide ((gW t g 4).field 0 12 ≤ r) && decide (r ≤ (gW t g 4).field 16 12)
        | none => true))).foldl (fun d g => d.queueTrig { g := g, src := src, inst := inst, detail := detail, mark := none }) d

/-- Shutter's part of a time step (R279). -/
def Dev.shtStep (large : Bool) (ns : Int) (d : Dev) : Dev :=
  d.liveGroups.foldl (fun d g =>
    if large then (d.closeCapture g 4 (some (d.t16 - ns * 65536))).startHistory g
    else
      match d.recording g with
      | some c =>
        let m := c.mark { typ := 2, chan := d.tbu.epoch, idx := c.index (d.t16 - ns * 65536), val := twos64 ns }
        d.putCap { m with flags := m.flags ||| 8 }
      | none => d) d

/-! ### Records in the store (R281, Table 8.11) -/

/-- Bytes of the header region of a record. -/
def Capture.headerLen (c : Capture) : Nat := ceilDiv (128 + 32 * c.chans.length + 1024) 4096 * 4096

/-- Bytes of a record. -/
def Capture.bytes (c : Capture) : Nat := c.headerLen + c.data.length

/-- Size of a record in units of 4 KiB. -/
def Capture.units (c : Capture) : Nat := ceilDiv c.bytes 4096

/-- Samples of a capture's channel. -/
def CapChan.samples (x : CapChan) : Nat := match x.endN with | some e => e - x.first | none => x.next - x.first

/-- The header region of a record. -/
def Capture.header (trigExact : Bool) (c : Capture) : List Byte :=
  let flags := c.flags + (if trigExact then 32 else 0)
  let srcs := c.srcs.foldl (fun a s => a ||| 2 ^ s) 0
  let sv := (c.chans.filter (fun x => x.kind == 0)).length
  let h := leBytes 4 0x00010000 ++ leBytes 4 c.id ++ [BitVec.ofNat 8 c.g, BitVec.ofNat 8 c.reason] ++ leBytes 2 flags
    ++ leBytes 2 sv ++ leBytes 2 (c.chans.length - sv) ++ leBytes 16 srcs ++ leBytes 2 c.primary
    ++ leBytes 2 (KMap.getD c.details c.primary 0xFFFF) ++ leBytes 2 c.exts ++ leBytes 2 c.marks.length
    ++ leBytes 2 c.epoch ++ [BitVec.ofNat 8 c.tq, BitVec.ofNat 8 (c.utc.field 0 8)] ++ leBytes 4 c.rg
    ++ leBytes 8 (twos64 (c.t0 / 65536)) ++ leBytes 2 (c.t0 % 65536).toNat
    ++ [BitVec.ofNat 8 c.fnom, BitVec.ofNat 8 c.code] ++ leBytes 4 (c.i0 - baseSample c.rg c.start)
    ++ leBytes 8 c.raw0 ++ leBytes 8 (twos64 (c.start / 65536)) ++ leBytes 8 (twos64 (c.endT / 65536))
    ++ leBytes 8 c.rawLen ++ leBytes 8 c.data.length ++ leBytes 4 c.headerLen ++ leBytes 20 0
  let ds := c.chans.flatMap (fun x => leBytes 2 x.ch ++ [BitVec.ofNat 8 x.kind, if x.short then 1 else 0]
    ++ leBytes 4 x.rate ++ leBytes 4 x.scale.toNat ++ leBytes 4 x.pre ++ leBytes 4 x.samples
    ++ leBytes 8 (smpTime x.rate x.first / 65536) ++ leBytes 4 0)
  let ms := c.marks.flatMap (fun m => [BitVec.ofNat 8 m.typ, 0] ++ leBytes 2 m.chan
    ++ leBytes 4 (m.idx % 4294967296).toNat ++ leBytes 8 m.val)
  let all := h ++ ds ++ ms
  all ++ List.replicate (c.headerLen - all.length) 0

/-- Units of a group's store in use: records allocated and not yet reclaimed. -/
def Dev.storeUsed (g : Nat) (d : Dev) : Nat := ((d.sht.caps.filter (fun c => c.g == g && c.off.isSome)).map Capture.units).sum

/-- Units of a group's store. -/
def storeUnits (t : SMap) (g : Nat) : Nat := (gW t g 6).field 16 14 * 256

/-- Reclaim the released records that have no older record of their group before them (R281). -/
def reclaim (g : Nat) : List Capture → List Capture
  | [] => []
  | c :: t => if c.g ≠ g then c :: reclaim g t else if c.released then reclaim g t else c :: t

end Sys2Proof.Machine
end

