-- ==== Sys2Proof/Machine/SflOps.lean ====
section
/-! DEFINITION. The operations of Safelight (06_safelight_alarms.md): rules, terms and groups, operand values, the
three-valued decision, rule states, passes and their release, alarm messages, host records and alarm outputs. -/

namespace Sys2Proof.Machine

/-! ### Tables (Tables 6.1, 6.3, 6.5) -/

/-- Word `w` of rule `i`. -/
def rW (t : SMap) (i w : Nat) : Word := SMap.get zeroW t (0x2C0000 + 64 * i + 4 * w)
/-- `EN` of a rule. -/
def rEn (t : SMap) (i : Nat) : Bool := (rW t i 0).bit 0
/-- `RATE`. -/
def rRate (t : SMap) (i : Nat) : Nat := (rW t i 0).field 1 4
/-- `COMBINE`. -/
def rCombine (t : SMap) (i : Nat) : Nat := (rW t i 0).field 5 2
/-- `MISSING`. -/
def rMissing (t : SMap) (i : Nat) : Nat := (rW t i 0).field 7 2
/-- `LATCH`. -/
def rLatch (t : SMap) (i : Nat) : Bool := (rW t i 0).bit 9
/-- `PERSIST`. -/
def rPersist (t : SMap) (i : Nat) : Nat := zeroActs 1 ((rW t i 0).field 16 8)
/-- `DROPOUT`. -/
def rDropout (t : SMap) (i : Nat) : Nat := zeroActs 1 ((rW t i 0).field 24 8)
/-- `ACT_GOOSE`. -/
def rGoose (t : SMap) (i : Nat) : Bool := (rW t i 1).bit 0
/-- `ACT_HOST`. -/
def rHost (t : SMap) (i : Nat) : Bool := (rW t i 1).bit 1
/-- `ACT_SHT`. -/
def rSht (t : SMap) (i : Nat) : Bool := (rW t i 1).bit 2
/-- `ACT_BRZ`. -/
def rBrz (t : SMap) (i : Nat) : Bool := (rW t i 1).bit 3
/-- `ALM_MASK` names an output. -/
def rAlm (t : SMap) (i n : Nat) : Bool := (rW t i 1).bit (8 + n)

/-- A term (Table 6.3). -/
structure Term where
  op     : Nat
  cmp    : Nat
  selA   : Nat
  idxA   : Nat
  selB   : Nat
  idxB   : Nat
  thresh : Word
  hyst   : Word
  deriving DecidableEq, Repr

/-- Term `n` of rule `i`. -/
def termOf (t : SMap) (i n : Nat) : Term :=
  let a := rW t i (3 + 4 * n)
  let b := rW t i (4 + 4 * n)
  { op := a.field 0 4, cmp := a.field 4 3, selA := a.field 8 8, idxA := a.field 16 13, selB := b.field 0 8,
    idxB := b.field 16 13, thresh := rW t i (5 + 4 * n), hyst := rW t i (6 + 4 * n) }

/-- The used terms of a rule, with their places (R195). -/
def usedTerms (t : SMap) (i : Nat) : List (Nat × Term) :=
  ([0, 1, 2].map (fun n => (n, termOf t i n))).filter (fun p => p.2.op != 0)

/-- Enabled rules of a table, ascending. -/
def rulesIn (t : SMap) : List Nat :=
  t.filterMap (fun p =>
    if 0x2C0000 ≤ p.1 ∧ p.1 < 0x300000 ∧ (p.1 - 0x2C0000) % 64 = 0 ∧ p.2.bit 0 = true then some ((p.1 - 0x2C0000) / 64)
    else none)

/-- Whether a rule is local (R189); a `RULE` operand names a rule of lower index. -/
def isLocal (t : SMap) : Nat → Nat → Bool
  | 0, _ => false
  | n + 1, i => (usedTerms t i).all (fun p =>
      p.2.op == 7 || p.2.op == 8 || p.2.op == 9 || p.2.op == 11 || (p.2.op == 10 && isLocal t n p.2.idxA))

/-- Whether rule `i` is a local rule. -/
def localRule (t : SMap) (i : Nat) : Bool := isLocal t (i + 1) i

/-- The tables that hold for a set's slot time in ns (R203). -/
def Dev.sflTab (t : Int) (d : Dev) : SMap := if t < d.sfl.inst then d.sfl.prevTab else d.act

/-- A rule's state. -/
def Dev.rule (i : Nat) (d : Dev) : RuleS := KMap.getD d.sfl.rules i RuleS.new

/-- Show the bitmaps of a rule's state (`SFL_ASSERTn`, `SFL_INDETn`) and the count of `SFL_STATUS`. -/
def Dev.showRule (i st : Nat) (d : Dev) : Dev :=
  let a := Reg.SFL_ASSERT (i / 32)
  let b := Reg.SFL_INDET (i / 32)
  let was := d.rbit a (i % 32)
  let d := d.setReg a ((d.reg a).setBit (i % 32) (st == 1))
  let d := d.setReg b ((d.reg b).setBit (i % 32) (st == 2))
  if was == (st == 1) then d
  else
    let n := d.fld Reg.SFL_STATUS 16 13
    d.setField Reg.SFL_STATUS 16 13 (if st = 1 then n + 1 else n - 1)

/-- Store a rule's state. -/
def Dev.setRule (i : Nat) (x : RuleS) (d : Dev) : Dev :=
  ({ d with sfl := { d.sfl with rules := KMap.put d.sfl.rules i x } }).showRule i x.st

/-! ### Members as Safelight sees them (R190, R193) -/

/-- Latest slot of rate code `rc'` whose slot time is no later than that of slot `k` of rate code `rc` (R193). -/
def slotAt (rc' rc k : Nat) : Nat :=
  let t := slotNs (rateOf rc) k
  let f := rateOf rc'
  let k0 := t * f / 1000000000
  if slotNs f (k0 + 1) ≤ t then k0 + 1 else if slotNs f k0 ≤ t then k0 else k0 - 1

/-- A stream's entry when the stream is a member of its own rate's set at the slot (R190). -/
def Dev.sflEntry (i rc k : Nat) (d : Dev) : Option (List Word) :=
  let e := d.entryAt i ((slotNs (rateOf rc) k : Nat) : Int)
  if eValid e && eKind e != 1 && d.isMember i (eRate e) (slotAt (eRate e) rc k) then some e else none

/-- The payload of a stream present for a rule's set (R140, R193): ON_TIME, at first look or before it. -/
def Dev.sflPay (i rc k : Nat) (d : Dev) : Option Payload :=
  match d.sflEntry i rc k with
  | none => none
  | some e =>
    let rc' := eRate e
    let k' := slotAt rc' rc k
    let m : Option ImgMember := match d.archSet? rc' k' with
      | some a => a.rev0.find? (fun (x : ImgMember) => x.idx == i)
      | none => match d.openSet? rc' k' with
        | some s => if s.done then s.image.find? (fun (x : ImgMember) => x.idx == i) else some (d.imgMember i rc' k')
        | none => none
    match m with
    | some m => if m.mask && m.st == 1 then m.pay else none
    | none => none

/-- Whether a stream's input is complete for a rule's set (R190). -/
def Dev.streamComplete (i rc k : Nat) (d : Dev) : Bool :=
  match d.sflEntry i rc k with
  | none => true
  | some e =>
    let rc' := eRate e
    let k' := slotAt rc' rc k
    match d.openSet? rc' k' with
    | some s => s.done || (match d.cell i k' with | some c => c.st != 0 | none => false)
    | none => true

/-! ### Groups (R198 to R201) -/

/-- Word `w` of group header `g`. -/
def grpW (t : SMap) (g w : Nat) : Word := SMap.get zeroW t (0x300000 + 32 * g + 4 * w)

/-- Vector entry of coherency signal `i`. -/
def vecEntry (t : SMap) (i : Nat) : Nat := (SMap.get zeroW t (0x302000 + i / 2 * 4)).field (16 * (i % 2)) 16

/-- Assigned coherency signals of a table: signal and group. -/
def assigned (t : SMap) : List (Nat × Nat) :=
  t.flatMap (fun p =>
    if 0x302000 ≤ p.1 ∧ p.1 < 0x304000 then
      let i := (p.1 - 0x302000) / 2
      (if p.2.bit 8 then [(i, p.2.field 0 8)] else []) ++ (if p.2.bit 24 then [(i + 1, p.2.field 16 8)] else [])
    else [])

/-- Stream and phasor of coherency signal `i` (Table 7.1). -/
def dnsSignal (t : SMap) (i : Nat) : Nat × Nat :=
  let w := SMap.get zeroW t (0x320000 + 8 * i)
  (w.field 15 13, w.field 6 9)

/-- Members of a group as (stream, phasor) pairs (R198, R201). `dt` holds the Densitometer's signal table. -/
def groupMembers (t dt : SMap) (g : Nat) : List (Nat × Nat) :=
  if (grpW t g 0).bit 1 then
    (((assigned t).filter (fun p => p.2 == g)).take 1024).map (fun p => dnsSignal dt p.1)
  else
    (List.range ((grpW t g 1).field 16 11)).map (fun j =>
      let w := SMap.get zeroW t (0x304000 + 4 * ((grpW t g 1).field 0 14 + j))
      (w.field 0 13, w.field 13 6))

/-- Quiet value of a list of options. -/
def somes {α : Type} (xs : List (Option α)) : List α := xs.filterMap id

/-- A valid value. -/
def okVal (v : Val) : Option Word := if v.ok then some v.bits else none

/-- A valid phasor. -/
def okPh (p : Payload) (ph : Nat) : Option (Word × Word) :=
  match p.ph[ph]? with
  | some q => if q.1.ok && q.2.ok then some (q.1.bits, q.2.bits) else none
  | none => none

/-- A phasor of magnitude 0. -/
def zeroPh (q : Word × Word) : Bool := F32.eq q.1 0 && F32.eq q.2 0

/-- A valid phasor with an angle. -/
def anglePh (p : Payload) (ph : Nat) : Option (Word × Word) :=
  match okPh p ph with
  | some q => if zeroPh q then none else some q
  | none => none

/-- Phasors as a list of operands. -/
def phOps (qs : List (Word × Word)) : List Word := qs.flatMap (fun q => [q.1, q.2])

/-- The reference of a group: the phasors whose angle it is, and whether it is the pilot's alone (R199). -/
def Dev.groupRef (t : SMap) (g rc k : Nat) (present : List (Word × Word)) (d : Dev) : Option (List Word) :=
  if (grpW t g 0).bit 2 then
    let w := grpW t g 2
    match d.sflPay (w.field 0 13) rc k with
    | some p => (anglePh p (w.field 13 6)).map (fun q => [q.1, q.2])
    | none => none
  else
    let ops := phOps present
    if F32.eq (Config.fn 22 ops) 0 then none else some ops

/-- An aggregate of a group: members present, and its value as operands of a free function or a word (R200). -/
structure GrpAgg where
  present : Nat
  value   : Option Word
  freqs   : List Word
  ref     : Option (List Word)
  deriving DecidableEq, Repr

/-- The reference angle in degrees from its operands (R199; a free function, log entry 12). -/
def refAngle (ops : List Word) : Word := Config.fn 21 ops

/-- Evaluate an aggregate (Table 6.5, R199, R200). -/
def Dev.groupAgg (t : SMap) (g sel rc k : Nat) (d : Dev) : GrpAgg :=
  let ms := groupMembers t d.act g
  let pays := ms.map (fun m => (d.sflPay m.1 rc k, m.2))
  let enough (n : Nat) : Bool := decide (max 1 (ceilDiv (min 100 ((grpW t g 0).field 8 7) * ms.length) 100) ≤ n)
  match sel with
  | 0 =>
    let fs := somes (pays.map (fun p => p.1.bind (fun y => okVal y.freq)))
    { present := fs.length, value := if enough fs.length then some (meanF32 fs) else none, freqs := fs, ref := none }
  | 1 =>
    let fs := somes (pays.map (fun p => p.1.bind (fun y => okVal y.dfreq)))
    let m := fs.foldl (fun a w => if F32.lt a (F32.abs w) then F32.abs w else a) 0
    { present := fs.length, value := if enough fs.length then some m else none, freqs := [], ref := none }
  | 3 =>
    let n := (somes (pays.map (fun p => p.1.bind (fun y => okPh y p.2)))).length
    { present := n, value := some (F32.ofInt n), freqs := [], ref := none }
  | 5 => { present := ms.length, value := some (F32.ofInt ms.length), freqs := [], ref := none }
  | _ =>
    let qs := somes (pays.map (fun p => p.1.bind (fun y => anglePh y p.2)))
    let ref := if enough qs.length then d.groupRef t g rc k qs else none
    { present := qs.length,
      value := ref.map (fun r => if sel = 4 then Config.fn 23 (r ++ phOps qs) else refAngle r), freqs := [], ref := ref }

/-- Show the results of an evaluation in a group's header (Table 6.5, words 4 to 6). -/
def Dev.noteGroup (t : SMap) (g sel : Nat) (a : GrpAgg) (d : Dev) : Dev :=
  let off := 0x300000 + 32 * g
  let d := d.setAct (off + 16) (BitVec.ofNat 32 ((groupMembers t d.act g).length + a.present * 65536))
  if sel = 0 then (match a.value with | some v => d.setAct (off + 20) v | none => d)
  else if sel = 2 ∨ sel = 4 then (match a.ref with | some r => d.setAct (off + 24) (refAngle r) | none => d)
  else d

/-! ### Operands (Table 6.2, R196) -/

/-- 1.0 or 0.0. -/
def boolF32 (b : Bool) : Word := if b then 0x3F800000 else 0

/-- A held detector's value, or 0.0 (R182). -/
def detVal (x : DetS) (raw : Nat) : Option Word :=
  match x.till with
  | some t => if raw < t then some x.val else none
  | none => none

/-- The value of an operand at its evaluation; none when it is missing (R196). Groups show their results. `ruleSt`
gives the state of a rule. -/
def Dev.operand (t : SMap) (rc k : Nat) (ruleSt : Nat → Nat) (x : Term) (d : Dev) : Option Word × Dev :=
  match x.op with
  | 1 =>
    (match d.sflPay x.idxA rc k with
      | some p => if x.selA = 0 then okVal p.freq else if x.selA = 1 then okVal p.dfreq
          else (p.an[x.selA - 2]?).bind okVal
      | none => none, d)
  | 2 => ((d.sflPay x.idxA rc k).bind (fun p => (okPh p x.selA).map (fun q => magF32 q.1 q.2)), d)
  | 3 =>
    (match (d.sflPay x.idxA rc k).bind (fun p => anglePh p x.selA), (d.sflPay x.idxB rc k).bind (fun p => anglePh p x.selB) with
      | some a, some b => some (Config.fn 20 [a.1, a.2, b.1, b.2])
      | _, _ => none, d)
  | 4 => ((d.sflPay x.idxA rc k).bind (fun p => (p.dg[x.selA / 16]?).bind (fun w =>
      if w.ok then some (boolF32 (w.bits.toNat.testBit (x.selA % 16))) else none)), d)
  | 5 =>
    let a := d.groupAgg t x.idxA x.selA rc k
    (a.value, d.noteGroup t x.idxA x.selA a)
  | 6 =>
    let sel := if x.selA = 0 then 2 else 0
    let a := d.groupAgg t x.idxA sel rc k
    let b := d.groupAgg t x.idxB sel rc k
    let v :=
      if x.selA = 0 then
        match a.ref, b.ref with
        | some r, some q => some (Config.fn 25 (BitVec.ofNat 32 r.length :: r ++ q))
        | _, _ => none
      else
        match a.value, b.value with
        | some _, some _ =>
          some (F64.toF32 (F64.add (F64.divNat (F64.sum a.freqs) a.freqs.length)
            (-(F64.divNat (F64.sum b.freqs) b.freqs.length))))
        | _, _ => none
    (v, (d.noteGroup t x.idxA sel a).noteGroup t x.idxB sel b)
  | 7 =>
    let c := KMap.getD d.phx.chans x.idxA PhxCh.new
    let det := if x.selA % 2 = 0 then c.aj else c.rf
    (some (if x.selA < 2 then boolF32 (detVal det d.raw).isSome else (detVal det d.raw).getD 0), d)
  | 8 => (some (boolF32 (match KMap.get? d.sfl.tevHold x.idxA with | some e => decide (d.raw < e) | none => false)), d)
  | 9 => (some (boolF32 (d.rbit (if x.idxA < 32 then Reg.DNS_FLAGS_LO else Reg.DNS_FLAGS_HI) (x.idxA % 32))), d)
  | 10 => (match ruleSt x.idxA with | 0 => some 0 | 1 => some 0x3F800000 | _ => none, d)
  | 11 => (some (boolF32 (d.childHeld x.idxA)), d)
  | _ => (none, d)

/-! ### Terms and decisions (R197, R205, R206) -/

/-- The release level (R197). -/
def releaseLevel (x : Term) : Word :=
  if x.cmp = 2 ∨ x.cmp = 3 ∨ x.cmp = 5 then F32.add x.thresh x.hyst else F32.sub x.thresh x.hyst

/-- A comparison (Table 6.4) against a level. -/
def compare (cmp : Nat) (v level : Word) : Bool :=
  match cmp with
  | 0 => F32.lt level v
  | 1 => F32.le level v
  | 2 => F32.lt v level
  | 3 => F32.le v level
  | 4 => F32.lt level (F32.abs v)
  | 5 => F32.lt (F32.abs v) level
  | 6 => !F32.eq v 0
  | _ => false

/-- A term's result: true, false or indeterminate (none), its new memory, and whether it was missing and held. -/
structure TermOut where
  res     : Option Bool
  mem     : TermS
  missing : Bool
  held    : Bool
  deriving DecidableEq, Repr

/-- Evaluate a term (R197, Table 6.6). -/
def termStep (missing holdMax : Nat) (x : Term) (v : Option Word) (m : TermS) : TermOut :=
  match v with
  | some w =>
    let r := compare x.cmp w (if m.hyst then releaseLevel x else x.thresh)
    { res := some r, mem := { hyst := r, res := r, held := 0 }, missing := false, held := false }
  | none =>
    match missing with
    | 0 => { res := some false, mem := { hyst := false, res := false, held := 0 }, missing := true, held := false }
    | 1 =>
      let n := m.held + 1
      if holdMax = 0 ∨ n ≤ holdMax then
        { res := some m.res, mem := { m with held := n }, missing := true, held := true }
      else { res := some false, mem := { m with res := false, held := n }, missing := true, held := false }
    | _ => { res := none, mem := m, missing := true, held := false }

/-- Combine term results (R195, Table 6.6). -/
def combine (c : Nat) (rs : List (Option Bool)) : Option Bool :=
  let n (b : Bool) : Nat := (rs.filter (fun r => r == some b)).length
  match c with
  | 0 => if rs.contains (some false) then some false else if rs.contains none then none else some true
  | 1 => if rs.contains (some true) then some true else if rs.contains none then none else some false
  | _ =>
    if rs.length ≤ 1 then rs.headD none
    else if 2 ≤ n true then some true else if 2 ≤ n false then some false else none

/-- A rule's state after a decision (Table 6.7). -/
def ruleStep (persist dropout : Nat) (latch : Bool) (res : Option Bool) (x : RuleS) : RuleS :=
  let assert_ : RuleS :=
    let a := x.acount + 1
    if persist ≤ a then { x with st := 1, acount := 0, dcount := 0, raises := (x.raises + 1) % 65536 }
    else { x with acount := min 255 a }
  let y := match x.st, res with
    | 1, some true => { x with dcount := 0 }
    | 1, some false =>
      let n := min 255 (x.dcount + 1)
      if dropout ≤ n && !latch then { x with st := 0, dcount := 0 } else { x with dcount := n }
    | 1, none => x
    | _, some true => assert_
    | _, some false => { x with st := 0, acount := 0 }
    | _, none => { x with st := 2, acount := 0 }
  { y with indet := res.isNone }

/-- What one lane makes of a rule: the operand of term 0, the term outputs and the result. -/
structure LaneOut where
  first : Option Word
  outs  : List (Nat × TermOut)
  res   : Option Bool
  deriving DecidableEq, Repr

/-- Evaluate the terms of a rule in order. -/
def Dev.evalTerms (t : SMap) (rc k i : Nat) (x : RuleS) (ruleSt : Nat → Nat) :
    List (Nat × Term) → Dev → List (Nat × Option Word × TermOut) × Dev
  | [], d => ([], d)
  | (n, tm) :: rest, d =>
    let (v, d) := d.operand t rc k ruleSt tm
    let o := termStep (rMissing t i) ((rW t i 1).field 16 8) tm v (x.terms.getD n TermS.new)
    let (os, d) := Dev.evalTerms t rc k i x ruleSt rest d
    ((n, v, o) :: os, d)

/-- Evaluate a rule for a set. -/
def Dev.evalRule (t : SMap) (rc k i : Nat) (x : RuleS) (ruleSt : Nat → Nat) (d : Dev) : LaneOut × Dev :=
  let (os, d) := Dev.evalTerms t rc k i x ruleSt (usedTerms t i) d
  ({ first := match os.head? with | some (0, v, _) => v | _ => none
     outs := os.map (fun o => (o.1, o.2.2)), res := combine (rCombine t i) (os.map (fun o => o.2.2.res)) }, d)

/-- A rule's whole state after a decision for slot time `slotUs` (R205 to R207, Table 6.9). -/
def decided (t : SMap) (i : Nat) (slotUs : Word) (o : LaneOut) (res : Option Bool) (x : RuleS) : RuleS :=
  let terms := [0, 1, 2].map (fun n => match o.outs.find? (fun p => p.1 == n) with
    | some p => p.2.mem
    | none => x.terms.getD n TermS.new)
  let missed := o.outs.any (fun p => p.2.missing)
  let y := ruleStep (rPersist t i) (rDropout t i) (rLatch t i) res x
  { y with terms := terms, held := o.outs.any (fun p => p.2.held), slotUs := slotUs,
           miss := if missed then min 65535 (y.miss + 1) else y.miss, value := o.first.getD F32.nan }

/-! ### Alarm outputs (R215, R216, Table 6.11) -/

/-- An output's driver. -/
def Dev.alm (n : Nat) (d : Dev) : AlmS := KMap.getD d.sfl.alms n AlmS.new

/-- Store an output's driver. -/
def Dev.setAlm (n : Nat) (x : AlmS) (d : Dev) : Dev := { d with sfl := { d.sfl with alms := KMap.put d.sfl.alms n x } }

/-- Whether a rule's state makes an output active in follow mode. -/
def Dev.followed (n : Nat) (d : Dev) : Bool :=
  d.sfl.rules.any (fun p => rAlm d.act p.1 n && rEn d.act p.1 && (p.2.st == 1 || (p.2.st == 2 && d.rbit (Reg.SFL_ALM_CTRL n) 3)))

/-- Whether an output is active (R215, Table 6.11). -/
def Dev.almActive (n : Nat) (d : Dev) : Bool :=
  let x := d.alm n
  let test := d.rbit (Reg.SFL_ALM_CTRL n) 4
  if d.op.alarm then
    test || (match d.fld (Reg.SFL_ALM_CTRL n) 0 2 with
      | 1 => d.followed n
      | 2 => (match x.pulseEnd with | some e => decide (d.raw < e) | none => false)
      | 3 => x.latched
      | _ => false)
      || (d.sfl.supply && d.rbit Reg.SFL_SYSALM n) || (d.laneOut && d.rbit Reg.SFL_SYSALM (8 + n))
  else d.op == .config && test

/-- The pad begins to conduct (R216). -/
def Dev.turnOn (n : Nat) (d : Dev) : Dev :=
  (d.setAlm n { d.alm n with turnOn := some d.raw, retryAt := none }).emit (.alarmPad n true)

/-- The pad is released. -/
def Dev.turnOff (n : Nat) (d : Dev) : Dev :=
  let x := d.alm n
  let was := x.turnOn.isSome || d.rbit (Reg.SFL_ALM_STATUS n) 1
  let d := (d.setAlm n { x with turnOn := none, retryAt := none }).setField (Reg.SFL_ALM_STATUS n) 1 1 0
  if was then d.emit (.alarmPad n false) else d

/-- Bring an output's pad in line with its logic: OFF to SAFE are released, otherwise active conducts when `POL` = 0. -/
def Dev.refreshAlm (n : Nat) (d : Dev) : Dev :=
  let act := d.almActive n
  let driven := d.op.alarm || d.op == .config
  let drive := driven && (act != d.rbit (Reg.SFL_ALM_CTRL n) 2)
  let x := d.alm n
  let d := d.setField (Reg.SFL_ALM_STATUS n) 0 1 (if act then 1 else 0)
  let d := d.setField (Reg.SFL_ALM_STATUS n) 2 1 (if x.latched then 1 else 0)
  if drive == x.drive then d
  else
    let d := d.setAlm n { x with drive := drive }
    if !drive then d.turnOff n
    else if d.rbit (Reg.SFL_ALM_STATUS n) 4 then d
    else d.turnOn n

/-- Every output. -/
def Dev.refreshAlms (d : Dev) : Dev := (List.range 8).foldl (fun e n => e.refreshAlm n) d

/-- A raise reaches the outputs its rule names: a pulse starts again, a latch holds (R215). -/
def Dev.almRaise (t : SMap) (i : Nat) (d : Dev) : Dev :=
  ((List.range 8).filter (fun n => rAlm t i n)).foldl (fun e n =>
    match e.fld (Reg.SFL_ALM_CTRL n) 0 2 with
    | 2 => e.setAlm n { e.alm n with
        pulseEnd := some (e.raw + zeroActs 1 (e.fld (Reg.SFL_ALM_CTRL n) 8 8) * 10000000) }
    | 3 => e.setAlm n { e.alm n with latched := true }
    | _ => e) d

/-- An energy episode ends and posts its record (R216). -/
def Dev.endEpisode (n : Nat) (d : Dev) : Dev :=
  let x := d.alm n
  let d := d.setAlm n { x with episode := false, fails := 0 }
  if x.episode then
    d.post 0x0016 [BitVec.ofNat 32 n, BitVec.ofNat 32 (d.fld (Reg.SFL_ALM_STATUS n) 8 8),
      BitVec.ofNat 32 (d.fld (Reg.SFL_ALM_STATUS n) 4 1), 0]
  else d

/-! ### Messages and records (R212, R213, R217) -/

/-- Rules with `ACT_GOOSE` in a state, ascending. -/
def Dev.gooseRules (st : Nat) (d : Dev) : List Nat :=
  (d.sfl.rules.filter (fun p => p.2.st == st && rGoose d.act p.1)).map (fun p => p.1)

/-- Send a new alarm message (R212, R213): stNum + 1, sqNum 0, retransmissions start again. -/
def Dev.newAlarm (m : AlarmMsg) (d : Dev) : Dev :=
  let st := d.reg Reg.SFL_GOOSE_STNUM + 1
  let t0 := clampNat 100 60000 (d.fld Reg.SFL_GOOSE 16 16) * 1000000
  let t1 := min (zeroActs 1 (d.fld Reg.SFL_GOOSE 8 8) * 1000000) t0
  let d := (d.setReg Reg.SFL_GOOSE_STNUM st).setReg Reg.SFL_GOOSE_SQNUM 0
  let d := { d with sfl := { d.sfl with msg := some m, msgAt := (d.tick).toNat, nextTx := d.raw + t1, interval := t1 } }
  d.sendAlarm st 0 (2 * t1 / 1000000) d.tick m

/-- The message of the state in force, with what its event gives (Table 6.10). -/
def Dev.alarmMsg (slot : Int) (tq rate epoch flags : Nat) (raised : List Nat) (d : Dev) : AlarmMsg :=
  let ind := d.gooseRules 2
  let prim := raised.headD 0xFFFF
  { slotTick := slot, msgTq := tq, rateCode := rate, epoch := epoch, flags := flags, primary := prim,
    primaryVal := if raised.isEmpty then F32.nan else (d.rule prim).value, indetCount := ind.length,
    indetFirst := ind.headD 0xFFFF, raised := raised, asserted := d.gooseRules 1 }

/-- A host alarm record (R217, Table 6.12), written or dropped. -/
def Dev.hostAlarm (primary changed rate flags : Nat) (slot : Int) (epoch : Nat) (d : Dev) : Dev :=
  if !d.rbit Reg.SFL_HOST 0 then d
  else
    let drops := d.sfl.hostDrop
    let w0 := (if drops = 0 then 0 else 8) + 0xE8 * 256 + primary * 65536
    let ws := [BitVec.ofNat 32 w0, BitVec.ofNat 32 (changed % 65536 + rate * 65536 + flags * 16777216)] ++ tickWords slot
      ++ [lo32 d.raw, hi32 d.raw, d.reg Reg.SFL_GOOSE_STNUM, BitVec.ofNat 32 (epoch + min 65535 drops * 65536)]
    let (ok, d) := d.record (d.fld Reg.SFL_HOST 8 7) 0xE8 ws
    if ok then ({ d with sfl := { d.sfl with hostDrop := 0 } }).msix 2
    else
      (({ d with sfl := { d.sfl with hostDrop := min 65535 (drops + 1) } }).bump Reg.SFL_HOST_DROP 1).raise Reg.SFL_EVT 3

/-- A message not tied to a set, with a host record (R211, R214). -/
def Dev.systemAlarm (flags changed : Nat) (d : Dev) : Dev :=
  let f := d.baseFlags ||| flags ||| (if d.tbu.sync = 2 then 0 else 8)
  let d := d.newAlarm (d.alarmMsg d.tick d.msgTq 0xFF d.tbu.epoch f [])
  d.hostAlarm 0xFFFF changed 0xFF f d.tick d.tbu.epoch

/-! ### Passes (R190, R191, R208) -/

/-- What Safelight holds of a set. -/
def Dev.sflSet (loc : Bool) (rc k : Nat) (d : Dev) : SflSet :=
  (d.sfl.sets.find? (fun s => s.rc == rc && s.k == k && s.loc == loc)).getD
    { rc := rc, k := k, loc := loc, decided := [], queued := [], raised := [], refv := none }

/-- Store it. -/
def Dev.putSflSet (x : SflSet) (d : Dev) : Dev :=
  let others := d.sfl.sets.filter (fun s => !(s.rc == x.rc && s.k == x.k && s.loc == x.loc))
  { d with sfl := { d.sfl with sets := others ++ [x] } }

/-- Forget a set whose last pass has run. -/
def Dev.dropSflSet (loc : Bool) (rc k : Nat) (d : Dev) : Dev :=
  { d with sfl := { d.sfl with sets := d.sfl.sets.filter (fun s => !(s.rc == rc && s.k == k && s.loc == loc)) } }

/-- Order of passes: trigger, slot time, rate code (R208). -/
def passLe (a b : SflPass) : Bool :=
  decide (a.trig < b.trig) || (a.trig == b.trig &&
    (decide (slotNs (rateOf a.rc) a.k < slotNs (rateOf b.rc) b.k) ||
      (slotNs (rateOf a.rc) a.k == slotNs (rateOf b.rc) b.k && decide (a.rc ≤ b.rc))))

/-- Queue a pass; its rules count as queued for the set. -/
def Dev.queuePass (p : SflPass) (d : Dev) : Dev :=
  let s := d.sflSet p.loc p.rc p.k
  let d := d.putSflSet { s with queued := s.queued ++ p.rules }
  { d with sfl := { d.sfl with passes := sortBy passLe (d.sfl.passes ++ [p]) } }

/-- Whether the members and the pilot of a group are complete for a rule's set (R190). -/
def Dev.groupComplete (t : SMap) (rc k g : Nat) (d : Dev) : Bool :=
  (groupMembers t d.act g).all (fun m => d.streamComplete m.1 rc k) &&
    (!(grpW t g 0).bit 2 || d.streamComplete ((grpW t g 2).field 0 13) rc k)

/-- Whether an input is complete for a rule of a set (R190); `batch` are rules about to be decided in one pass. -/
def Dev.termComplete (t : SMap) (rc k : Nat) (s : SflSet) (batch : List Nat) (x : Term) (d : Dev) : Bool :=
  match x.op with
  | 1 => d.streamComplete x.idxA rc k
  | 2 => d.streamComplete x.idxA rc k
  | 3 => d.streamComplete x.idxA rc k && d.streamComplete x.idxB rc k
  | 4 => d.streamComplete x.idxA rc k
  | 5 => d.groupComplete t rc k x.idxA
  | 6 => d.groupComplete t rc k x.idxA && d.groupComplete t rc k x.idxB
  | 10 => localRule t x.idxA || s.decided.contains x.idxA || s.queued.contains x.idxA || batch.contains x.idxA
  | _ => true

/-- Stream rules of a rate at a slot; a rule that a commit has ended is decided no more (R203). -/
def Dev.streamRules (rc k : Nat) (d : Dev) : List Nat :=
  let t := d.sflTab ((slotNs (rateOf rc) k : Nat) : Int)
  (rulesIn t).filter (fun i => rRate t i == rc && !localRule t i && rEn d.act i)

/-- Local rules of a rate at a slot. -/
def Dev.localRules (rc k : Nat) (d : Dev) : List Nat :=
  let t := d.sflTab ((slotNs (rateOf rc) k : Nat) : Int)
  (rulesIn t).filter (fun i => rRate t i == rc && localRule t i && rEn d.act i)

/-- Queue the stream rules of one set whose inputs are complete (R190). -/
def Dev.queueComplete (rc k : Nat) (d : Dev) : Dev :=
  let t := d.sflTab ((slotNs (rateOf rc) k : Nat) : Int)
  let s := d.sflSet false rc k
  let open_ := (d.streamRules rc k).filter (fun i => !s.decided.contains i && !s.queued.contains i)
  let ready := open_.foldl (fun (acc : List Nat) i =>
    if (usedTerms t i).all (fun p => d.termComplete t rc k s acc p.2) then acc ++ [i] else acc) []
  if ready.isEmpty then d
  else d.queuePass { rc := rc, k := k, loc := false, rules := ready, trig := d.raw, last := false, flush := false }

/-- An input of some set has become complete: every set before its first look is looked at. -/
def Dev.inputsChanged (d : Dev) : Dev :=
  if d.op.alarm then (d.eas.sets.filter (fun s => !s.done)).foldl (fun e s => e.queueComplete s.rc s.k) d else d

/-- The first-look pass of a set: every rule not yet decided for it (R190). -/
def Dev.queueFirstLook (rc k : Nat) (d : Dev) : Dev :=
  let s := d.sflSet false rc k
  let rest := (d.streamRules rc k).filter (fun i => !s.decided.contains i && !s.queued.contains i)
  d.queuePass { rc := rc, k := k, loc := false, rules := rest, trig := d.raw, last := true, flush := false }

/-- Rules of a local slot whose state a decision now would change (R191), in ascending index: a rule that names a
changed one is judged with its new state. -/
def Dev.localWould (t : SMap) (rc k : Nat) : List Nat → KMap Nat → Dev → List Nat
  | [], _, _ => []
  | i :: rest, st, d =>
    let x := d.rule i
    let ruleSt (j : Nat) : Nat := match KMap.get? st j with | some s => s | none => (d.rule j).st
    let (o, _) := d.evalRule t rc k i x ruleSt
    let y := decided t i 0 o o.res x
    if y.st = x.st then Dev.localWould t rc k rest st d else i :: Dev.localWould t rc k rest (KMap.put st i y.st) d

/-- A local operand has changed (R191): local rules whose state would change are queued for the slot under way. -/
def Dev.localChange (d : Dev) : Dev :=
  if !d.op.alarm then d
  else
    (List.range 12).foldl (fun e rc =>
      match (e.sfl.sets.filter (fun s => s.loc && s.rc == rc)).getLast? with
      | none => e
      | some s =>
        let t := e.sflTab ((slotNs (rateOf rc) s.k : Nat) : Int)
        let open_ := (e.localRules rc s.k).filter (fun i => !s.decided.contains i && !s.queued.contains i)
        let hit := Dev.localWould t rc s.k open_ [] e
        if hit.isEmpty then e
        else e.queuePass { rc := rc, k := s.k, loc := true, rules := hit, trig := e.raw, last := false, flush := false }) d

/-- Whether the last pass of a local slot is queued. -/
def Dev.localEnding (rc k : Nat) (d : Dev) : Bool := d.sfl.passes.any (fun p => p.loc && p.rc == rc && p.k == k && p.last)

/-- The slot of a rate ends: the local rules not yet decided for it are queued (R191). -/
def Dev.localSlotEnd (rc k : Nat) (d : Dev) : Dev :=
  if d.localEnding rc k then d
  else
    let s := d.sflSet true rc k
    let rest := (d.localRules rc k).filter (fun i => !s.decided.contains i && !s.queued.contains i)
    d.queuePass { rc := rc, k := k, loc := true, rules := rest, trig := d.raw, last := true, flush := false }

/-- A strobe of a rate for local rules (R191, R210): the slot before it ends, any other that a step has left behind yields no
decision, and the slot begins with the time-base values of its strobe, unless its time has been skipped. -/
def Dev.localSlot (rc k : Nat) (d : Dev) : Dev :=
  let before (s : SflSet) : Bool := s.loc && s.rc == rc && s.k + 1 == k
  let d := if d.sfl.sets.any before then d.localSlotEnd rc (k - 1) else d
  let left (s : SflSet) : Bool := s.loc && s.rc == rc && !before s && !d.localEnding rc s.k
  let d := { d with sfl := { d.sfl with sets := d.sfl.sets.filter (fun s => !left s) } }
  if ((slotNs (rateOf rc) (k + 1) : Nat) : Int) ≤ d.tick then d else d.putSflSet { d.sflSet true rc k with refv := some d.refVals }

/-! ### Running a pass (R206, R208, R212, R218, R219) -/

/-- What a pass has done so far. -/
structure PassRun where
  changed  : List Nat
  raised   : List Nat
  commit   : Bool
  mismatch : Bool
  first    : Bool
  lanes    : List (Nat × Nat × Nat)
  deriving DecidableEq, Repr

/-- A result inverted (log entry 15: an indeterminate result inverts to true). -/
def invertRes : Option Bool → Option Bool
  | some b => some (!b)
  | none => some true

/-- A result from its number: 0 false, 1 true, otherwise indeterminate. -/
def resOf (n : Nat) : Option Bool := if n = 0 then some false else if n = 1 then some true else none

/-- Decide one rule of a pass. `faults` gives the results in which lane B departs from lane A. A rule that a commit clears before
this decision (R203) counts as having changed: no state equals the 3 that then stands for what it was. -/
def Dev.decideRule (t : SMap) (rc k i : Nat) (us : Word) (faults : List (Nat × Nat)) (run : PassRun) (d : Dev) :
    PassRun × Dev :=
  let fresh := d.sfl.changed.contains i && decide (d.sfl.inst ≤ ((slotNs (rateOf rc) k : Nat) : Int))
  let was := if fresh && (d.rule i).st != 0 then 3 else (d.rule i).st
  let d := if fresh then { d with sfl := { d.sfl with changed := d.sfl.changed.filter (fun j => j != i) } } else d
  let x0 := d.rule i
  let x := if fresh then { RuleS.new with raises := x0.raises, miss := x0.miss, value := x0.value } else x0
  let (o, d) := d.evalRule t rc k i x (fun j => (d.rule j).st)
  let a := decided t i us o o.res x
  let both := d.sfl.laneA && d.sfl.laneB && d.sfl.testing.isEmpty
  let resB := if both && run.first && d.sfl.invert then invertRes o.res
    else match faults.find? (fun f => f.1 == i) with
      | some f => if both then resOf f.2 else o.res
      | none => o.res
  let b := decided t i us o resB x
  let d := d.setRule i a
  ({ run with changed := if a.st = was then run.changed else run.changed ++ [i],
              raised := if a.st = 1 ∧ x.st ≠ 1 then run.raised ++ [i] else run.raised,
              commit := run.commit || was == 3, mismatch := run.mismatch || resB != o.res || b.st != a.st,
              first := false, lanes := run.lanes ++ [(i, was, b.st)] }, d)

/-- Decide the rules of a pass in ascending index (R208). -/
def Dev.decideAll (t : SMap) (rc k : Nat) (us : Word) (faults : List (Nat × Nat)) : List Nat → PassRun → Dev → PassRun × Dev
  | [], run, d => (run, d)
  | i :: rest, run, d =>
    let (run, d) := d.decideRule t rc k i us faults run
    Dev.decideAll t rc k us faults rest run d

/-- The released state of a rule on which the lanes may disagree (R219). -/
def released (strict : Bool) (a b : Nat) : Nat :=
  if strict then (if a = 1 ∧ b = 1 then 1 else 0)
  else if a = 1 ∨ b = 1 then 1 else if a = 2 ∨ b = 2 then 2 else 0

/-- Release a pass on which the lanes disagree: every rule takes its released state (R219). -/
def Dev.releaseDisagree (run : PassRun) (d : Dev) : PassRun × Dev :=
  let strict := d.rbit Reg.SFL_CTRL 1
  let d := ((d.wrapAdd Reg.SFL_MISMATCH 1).raise Reg.SFL_EVT 1)
  let d := { d with sfl := { d.sfl with disagree := some d.raw, invert := false } }
  run.lanes.foldl (fun (acc : PassRun × Dev) l =>
    let (run, d) := acc
    let (i, was, b) := l
    let x := d.rule i
    let st := released strict x.st b
    let d := if st = x.st then d else d.setRule i { x with st := st, acount := 0, dcount := 0 }
    let chg := (run.changed.filter (fun j => j != i)) ++ (if st = was then [] else [i])
    let rs := (run.raised.filter (fun j => j != i)) ++ (if st = 1 ∧ was ≠ 1 then [i] else [])
    ({ run with changed := chg, raised := rs }, d)) (run, d)

/-- What a release does beyond the rule states: outputs, messages, records, triggers and the cascade. -/
def Dev.releasePass (t : SMap) (p : SflPass) (run : PassRun) (r : RefVals) (flag : Bool) (slot : Int) (d : Dev) : Dev :=
  let s := d.sflSet p.loc p.rc p.k
  let raisedG := run.raised.filter (fun i => rGoose t i)
  let acc := sortBy (fun a b => decide (a ≤ b)) (s.raised ++ raisedG)
  let d := d.putSflSet { s with raised := acc }
  let flags := d.baseFlags + (if flag then 1 else 0) + (if run.mismatch then 4 else 0) + (if r.sync = 2 then 0 else 8)
    + (if run.commit then 32 else 0)
  let d := run.raised.foldl (fun e i => e.almRaise t i) d
  let d := d.refreshAlms
  let d := if run.raised.isEmpty then d else d.raise Reg.SFL_EVT 0
  let d := if run.changed.any (fun i => rGoose t i) then
    d.newAlarm (d.alarmMsg slot r.msgTq p.rc r.epoch flags acc) else d
  let d := if run.changed.any (fun i => rHost t i) then
    d.hostAlarm (acc.headD 0xFFFF) run.changed.length p.rc flags slot r.epoch else d
  let d := (run.raised.filter (fun i => rSht t i)).foldl (fun e i =>
    e.fixedTrigger 74 (if p.loc then e.t16 else slot * 65536) i none (some i)) d
  d.propagate d.brzRules flags

/-- A pass that evaluated rules is counted, with its time from trigger to release (R209). -/
def Dev.notePass (trig : Nat) (d : Dev) : Dev :=
  let d := (d.wrapAdd Reg.SFL_PASSES 1).keepMax Reg.SFL_LAT_MAX (d.raw - trig) 0xFFFFFFFF
  if 200000 < d.raw - trig then d.bump Reg.SFL_LAT_OVER 1 else d

/-- Run the pass at the head of the queue (R208 to R212). -/
def Dev.runPass (faults : List (Nat × Nat)) (d : Dev) : Dev :=
  match d.sfl.passes with
  | [] => d
  | p :: rest =>
    let d := { d with sfl := { d.sfl with passes := rest } }
    let slot : Int := (slotNs (rateOf p.rc) p.k : Nat)
    let t := d.sflTab slot
    let s := d.sflSet p.loc p.rc p.k
    let flag := d.stepFlag (slotNs (rateOf p.rc) p.k)
    let r := match s.refv with
      | some r => r
      | none => match d.archSet? p.rc p.k with
        | some a => a.refv
        | none => match d.openSet? p.rc p.k with
          | some x => x.ref d
          | none => d.refVals
    let us : Word := BitVec.ofInt 32 (slot / 1000)
    let inv := d.sfl.invert
    let run0 : PassRun := { changed := [], raised := [], commit := false, mismatch := false, first := true, lanes := [] }
    let rules := p.rules.filter (fun i => rEn d.act i)
    let (run, d) := Dev.decideAll t p.rc p.k us faults rules run0 d
    let d := if inv && !rules.isEmpty then { d with sfl := { d.sfl with invert := false } } else d
    let s := d.sflSet p.loc p.rc p.k
    let d := d.putSflSet { s with decided := s.decided ++ p.rules, queued := s.queued.filter (fun i => !p.rules.contains i) }
    let d := if rules.isEmpty then d else d.notePass p.trig
    let (run, d) := if run.mismatch then d.releaseDisagree run else (run, d)
    let d := d.releasePass t p run r flag slot
    if p.last then d.dropSflSet p.loc p.rc p.k else if p.loc then d else d.queueComplete p.rc p.k

/-- Run every queued pass, at most `n` (R211: the passes of the first looks forced by `DEV_STOP`). -/
def Dev.runPasses : Nat → Dev → Dev
  | 0, d => d
  | n + 1, d => if d.sfl.passes.isEmpty then d else Dev.runPasses n (d.runPass [])

end Sys2Proof.Machine
end

