-- ==== Sys2Proof/Machine/LookOps.lean ====
section
/-! DEFINITION. The looks of the alignment sequencer (04_stream_alignment.md) and what each hands on: images and close
records for the host (12_host_rings_queues.md, R395), Safelight, the Publisher, Braze and Shutter; the closing of every
open set at a stop, a large backward step and HOLDUP. -/

namespace Sys2Proof.Machine

/-! ### The host data path (R395, Table 12.14) -/

/-- A value of a payload written to the host; the bits of an invalid value are free (log entry 16). -/
def hostVal (v : Val) : Word := if v.ok then v.bits else Config.fn 43 [v.bits]

/-- A digital word of a payload written to the host; an invalid one is free (log entry 16). -/
def hostDig (w : Dig) : Nat := if w.ok then w.bits.toNat else (Config.fn 44 [BitVec.ofNat 32 w.bits.toNat]).toNat % 65536

/-- Digital words, two to a word. -/
def digWords : List Dig → List Word
  | [] => []
  | [a] => [BitVec.ofNat 32 (hostDig a)]
  | a :: b :: t => BitVec.ofNat 32 (hostDig a + hostDig b * 65536) :: digWords t

/-- A payload in the order of R136. -/
def payWords (p : Payload) : List Word :=
  [hostVal p.freq, hostVal p.dfreq] ++ p.ph.flatMap (fun q => [hostVal q.1, hostVal q.2]) ++ p.an.map hostVal ++ digWords p.dg

/-- Arrival time minus slot time as a member record carries it. -/
def arrivalWord : Option Int → Word
  | none => 0x80000000
  | some a => BitVec.ofInt 32 (max (-2147483647) (min 2147483647 a))

/-- A member record with its payload. -/
def memberWords (pay : Bool) (m : ImgMember) : List Word :=
  let ws := match m.mask && pay, m.pay with
    | true, some p => payWords p
    | _, _ => []
  [BitVec.ofNat 32 (m.idx % 65536 + (m.st % 8 + (if m.mask then 8 else 0)) * 65536 + m.mtq % 256 * 16777216),
   BitVec.ofNat 32 (m.stat.toNat + 4 * ws.length % 65536 * 65536), arrivalWord m.arrival, 0] ++ ws

/-- Member records in segments of at most 4,096 words, whole records in each. -/
def segment : List (List Word) → List (List Word) → Nat → List (List (List Word))
  | [], cur, _ => [cur]
  | r :: rest, cur, n =>
    if cur.isEmpty || decide (n + r.length ≤ 4096) then segment rest (cur ++ [r]) (n + r.length)
    else cur :: segment rest [r] (8 + r.length)

/-- The header of a segment. -/
def segHeader (typ rc j here flags reason : Nat) (slot : Int) (epoch total first raw : Nat) : List Word :=
  [BitVec.ofNat 32 (typ + rc * 256 + j * 65536), BitVec.ofNat 32 (here % 65536 + flags * 65536 + reason * 16777216)]
    ++ tickWords slot ++ [BitVec.ofNat 32 (epoch % 65536 + total % 65536 * 65536), BitVec.ofNat 32 (first % 65536)]
    ++ [lo32 raw, hi32 raw]

/-- Append the segments of an image in order; after one is dropped the later ones are dropped as well. -/
def Dev.putSegments (q typ rc flags reason : Nat) (slot : Int) (epoch total : Nat) :
    List (List (List Word)) → Nat → Nat → Dev → Dev
  | [], _, _, d => d
  | s :: rest, j, first, d =>
    let last := if rest.isEmpty then 1 else 0
    let (ok, d) := d.spqAppend q 7 (segHeader typ rc j s.length (flags + last) reason slot epoch total first d.raw ++ s.flatten)
    if ok then Dev.putSegments q typ rc flags reason slot epoch total rest (j + 1) (first + s.length) d else d

/-- Write an image (type 1 or 2) or a close record (type 3) of a set to the host data path. -/
def Dev.hostImage (typ rc k reason : Nat) (members : List ImgMember) (r : RefVals) (flag : Bool) (d : Dev) : Dev :=
  if !d.rbit Reg.HST_DATA_CTRL 0 || !d.rbit Reg.HST_DATA_CTRL (16 + rc) || d.op == .holdup then d
  else
    let recs := if typ = 3 then [] else members.map (memberWords (d.rbit Reg.HST_DATA_CTRL 1))
    let flags := (if flag then 2 else 0) + (if r.sync = 2 then 0 else 4)
    d.putSegments (d.fld Reg.HST_DATA_CTRL 8 6) typ rc flags reason ((slotNs (rateOf rc) k : Nat) : Int) r.epoch members.length
      (segment recs [] 8) 0 0

/-! ### Looks (R140, R141, R144) -/

/-- Remember each present member's payload of first look (R152). -/
def Dev.keepFirst (rc k : Nat) (d : Dev) : Dev :=
  (d.members rc k).foldl (fun e i => match e.cell i k with
    | some c => e.setCell i { c with first := c.pay }
    | none => e) d

/-- First look of an open set (R140): revision 0 is frozen and handed to Safelight, the Publisher, Braze, the host and
Shutter. -/
def Dev.lookFirst (s : SetS) (d : Dev) : Dev :=
  let im := d.imageOf s.rc s.k
  let r := s.ref d
  let d := d.putSet { s with done := true, image := im, refv := some r }
  let d := (d.keepFirst s.rc s.k).wrapAdd Reg.EAS_SETS 1
  let d := d.archive { rc := s.rc, k := s.k, rev0 := im, fin := none, refv := r, flag := s.flag }
  let d := d.queueFirstLook s.rc s.k
  let d := d.publish .first s.rc s.k r s.flag
  let d := d.sendCondensed .first s.rc s.k r
  let d := d.hostImage 1 s.rc s.k 0 im r s.flag
  (d.shtFirstLook s.rc s.k im).inputsChanged

/-- A set closes: its cells are free. -/
def Dev.closeSet (s : SetS) (d : Dev) : Dev :=
  let ms := (d.members s.rc s.k).map (fun i => cellKey i s.k)
  let d := { d with eas := { d.eas with cells := d.eas.cells.filter (fun p => !(ms.contains p.1 && p.2.k == s.k)) } }
  d.dropSet s.rc s.k

/-- A close record, when it is asked for (R141). -/
def Dev.closeRecord (s : SetS) (reason : Nat) (ms : List ImgMember) (d : Dev) : Dev :=
  if d.rbit Reg.EAS_CTRL 4 then d.hostImage 3 s.rc s.k reason ms (s.ref d) s.flag else d

/-- Final look of a set (R141): an amendment when a member has changed, otherwise a close record; then it closes with a
reason of Table 4.5. -/
def Dev.lookFinal (s : SetS) (reason : Nat) (d : Dev) : Dev :=
  let im := d.imageOf s.rc s.k
  let r := s.ref d
  let changed := (d.members s.rc s.k).any (fun i => d.memberChanged i s.k)
  let d := d.archiveFinal s.rc s.k im
  let d := d.publish .final s.rc s.k r s.flag
  let d := d.sendCondensed .final s.rc s.k r
  let d := if changed then (d.wrapAdd Reg.EAS_AMENDS 1).hostImage 2 s.rc s.k 0 im r s.flag else d.closeRecord s reason im
  let d := d.shtFinalLook s.k (if changed then im else s.image)
  (d.twinLook s.rc s.k).closeSet s

/-- The open sets in the order in which one instant handles them: rate code, then slot. -/
def Dev.openOrder (d : Dev) : List SetS :=
  sortBy (fun a b => decide (a.rc < b.rc) || (a.rc == b.rc && decide (a.k ≤ b.k))) d.eas.sets

/-- `DEV_STOP` (R44): a set without its first look gets it, and every set closes with reason STOPPED. -/
def Dev.stopSets (d : Dev) : Dev :=
  d.openOrder.foldl (fun e s =>
    let e := if s.done then e else e.lookFirst s
    match e.openSet? s.rc s.k with
    | some s => (e.closeRecord s 2 (e.imageOf s.rc s.k)).closeSet s
    | none => e) d

/-- A large backward step (R145): sets close with reason STEPPED, with their first or their final look. -/
def Dev.stepSets (d : Dev) : Dev :=
  let d := d.openOrder.foldl (fun e s =>
    if s.done then e.lookFinal s 1
    else
      let e := e.lookFirst s
      match e.openSet? s.rc s.k with
      | some s => (e.closeRecord s 1 (e.imageOf s.rc s.k)).closeSet s
      | none => e) d
  { d with eas := { d.eas with highest := [], cells := [] } }

/-- HOLDUP (R158): tiles stop, their queues are discarded, and every open set closes without an image. -/
def Dev.dropSets (d : Dev) : Dev :=
  let d := d.eas.tiles.foldl (fun e p => e.bump (Reg.EAS_INQ_DROP p.1) p.2.inq.length) d
  { d with eas := { d.eas with sets := [], cells := [], tiles := d.eas.tiles.map (fun p => (p.1, { p.2 with inq := [] })) } }

/-! ### Tiles (R133, R152) -/

/-- A tile fails; an ACTIVE twin that enters DEGRADED offers its role, and Safelight's inputs are looked at again. -/
def Dev.failTile (fz : Fuse) (tile cause : Nat) (d : Dev) : Dev :=
  let e := d.tileFault fz tile cause
  (if d.op = .run && e.op = .degraded then e.offerRole 2 else e).inputsChanged

/-- An uncorrectable SRAM error of a tile (R139, Table 4.7 cause 1). -/
def Dev.noteUe (fz : Fuse) (tile : Nat) (d : Dev) : Dev :=
  let e := d.tileUe fz tile
  (if d.op = .run && e.op = .degraded then e.offerRole 2 else e).inputsChanged

/-- Whether a stream's payload reaches its spill cell (R137). -/
def Dev.spills (i : Nat) (d : Dev) : Bool := d.eas.spill.contains i || decide (48 < ePayload (d.entry i))

/-- A read of the cell of stream `f.stream` at slot `k` meets an error (R139): the cell keeps the mark. Answers the tile
whose SRAM error is to be counted; an error counted when it was found is not counted again. -/
def Dev.cellRead (k : Nat) (f : CellFault) (d : Dev) : Option Nat × Dev :=
  match d.cell f.stream k, KMap.get? d.eas.homes f.stream with
  | some c, some t =>
    match f.ecc with
    | .sramCe => (none, d.bump (Reg.EAS_SRAM_CE t) 1)
    | .sramUe => if c.ue then (none, d) else (some t, d.setCell f.stream { c with ue := true })
    | .spillCe => (none, if d.spills f.stream then d.bump Reg.MEM_CE 1 else d)
    | .spillUe a =>
      (none, if d.spills f.stream then ((d.setCell f.stream { c with spUe := true }).bump (Reg.EAS_SPILL_UE t) 1).memUe a else d)
  | _, _ => (none, d)

/-- The errors met in a read of cells, each with its slot: answers the tiles whose SRAM errors are to be counted. -/
def Dev.cellReads : List (Nat × CellFault) → Dev → List Nat × Dev
  | [], d => ([], d)
  | x :: t, d =>
    let (n, d) := d.cellRead x.1 x.2
    let (ns, d) := Dev.cellReads t d
    (n.toList ++ ns, d)

/-- Work `f` that reads cells: the values with an error are marked as they are read, and the errors of tile SRAM are counted
when the work is done, which may fail a tile. -/
def Dev.withReads (fz : Fuse) (reads : List (Nat × CellFault)) (f : Dev → Dev) (d : Dev) : Dev :=
  let (ns, d) := d.cellReads reads
  ns.foldl (fun e t => e.noteUe fz t) (f d)

/-- Whether tiles are looked after: RUN, DEGRADED and CONFIG. -/
def Dev.tilesWatched (d : Dev) : Bool := d.op.running || d.op == .config

/-- An error in tile SRAM found outside a look (R139): it is counted at once, and a cell that holds it marks its values when
it is next read. -/
def Dev.tileFound (fz : Fuse) (tile : Nat) (f : TileFind) (d : Dev) : Dev :=
  if !d.tileOk tile fz then d
  else
    match f with
    | .clean => d
    | .corrected => d.bump (Reg.EAS_SRAM_CE tile) 1
    | .uncorrectable cell =>
      let d := match cell with
        | none => d
        | some (i, k) =>
          match d.cell i k with
          | some c => if KMap.get? d.eas.homes i = some tile then d.setCell i { c with ue := true } else d
          | none => d
      d.noteUe fz tile

end Sys2Proof.Machine
end

