-- ==== Sys2Proof/Machine/Fix.lean ====
section
/-! DEFINITION. Elementary functions in fixed point, to 2^-128: the constants that R170 to R174 define by a formula and
round to binary32 (tap prototypes, window weights, rotation factors). -/

namespace Sys2Proof.Machine

/-- The scale of a fixed-point number. -/
def Fx.one : Int := (2 ^ 128 : Nat)

/-- Product, truncated. -/
def Fx.mul (a b : Int) : Int := a * b / Fx.one

/-- Quotient, truncated. -/
def Fx.div (a b : Int) : Int := a * Fx.one / b

/-- pi. -/
def Fx.pi : Int := 1069028584064966747859680373161870783300

/-- Sum of `t`, `t * x / (i (i+1))`, ... with alternating or equal signs: `n` terms of a series whose next term divides
by `i * (i + 1)`. -/
def Fx.series (sgn x : Int) : Nat → Int → Int → Int → Int
  | 0, _, _, acc => acc
  | n + 1, i, t, acc => Fx.series sgn x n (i + 2) (sgn * Fx.mul t x / (i * (i + 1))) (acc + t)

/-- sin x. -/
def Fx.sin (x : Int) : Int := Fx.series (-1) (Fx.mul x x) 48 2 x 0

/-- cos x. -/
def Fx.cos (x : Int) : Int := Fx.series (-1) (Fx.mul x x) 48 1 Fx.one 0

/-- A fixed-point number rounded to binary32. -/
def Fx.toF32 (x : Int) : Word := F32.ofFrac x (2 ^ 128)

/-- cos of `2 pi n / q`. -/
def Fx.cosTurn (n : Int) (q : Nat) : Int := Fx.cos (2 * Fx.pi * (n % (q : Int)) / (q : Int))

/-- sin of `2 pi n / q`. -/
def Fx.sinTurn (n : Int) (q : Nat) : Int := Fx.sin (2 * Fx.pi * (n % (q : Int)) / (q : Int))

/-- sinc of `n / q`: sin(pi y) / (pi y). -/
def Fx.sinc (n : Int) (q : Nat) : Int :=
  if n = 0 then Fx.one
  else Fx.div (Fx.sinTurn n (2 * q)) (Fx.pi * n / (q : Int))

/-- I0 of `8 sqrt u` for `u` in [0, 1]: the series in `16 u`, whose k-th term divides by `k^2`. -/
def Fx.i0 (u : Int) : Nat → Int → Int → Int → Int
  | 0, _, _, acc => acc
  | n + 1, k, t, acc => Fx.i0 u n (k + 1) (16 * Fx.mul t u / (k * k)) (acc + t)

end Sys2Proof.Machine
end

