-- ==== Sys2Proof/Machine/PhxOps.lean ====
section
/-! DEFINITION. The operations of the Phasor chain (05_phasor_chain.md): channels, the grid, the resampler and the
estimators, outputs, resets, shedding and the two detectors. -/

namespace Sys2Proof.Machine

/-! ### Channels (Table 5.1) -/

/-- Word `w` of channel entry `c` in a table. -/
def chIn (t : SMap) (c w : Nat) : Word := SMap.get zeroW t (0x2A0000 + 32 * c + 4 * w)

/-- Enabled channels of a table, ascending. -/
def chansIn (t : SMap) : List Nat :=
  t.filterMap (fun p =>
    if 0x2A0000 ≤ p.1 ∧ p.1 < 0x2A4000 ∧ (p.1 - 0x2A0000) % 32 = 0 ∧ p.2.bit 0 = true then some ((p.1 - 0x2A0000) / 32)
    else none)

/-- `EN`. -/
def chEn (t : SMap) (c : Nat) : Bool := (chIn t c 0).bit 0
/-- f_nom in Hz. -/
def chNom (t : SMap) (c : Nat) : Nat := if (chIn t c 0).bit 1 then 50 else 60
/-- `AJ_EN`. -/
def chAj (t : SMap) (c : Nat) : Bool := (chIn t c 0).bit 2
/-- `RF_EN`. -/
def chRf (t : SMap) (c : Nat) : Bool := (chIn t c 0).bit 3
/-- `GAP_FILL`. -/
def chGap (t : SMap) (c : Nat) : Nat := (chIn t c 0).field 4 2
/-- `SHED_PRIO`. -/
def chPrio (t : SMap) (c : Nat) : Nat := (chIn t c 0).field 8 8
/-- `TRK_CH`. -/
def chTrk (t : SMap) (c : Nat) : Nat := (chIn t c 0).field 16 9

/-- f_nom as binary32. -/
def nomF32 (t : SMap) (c : Nat) : Word := F32.ofInt (chNom t c : Nat)

/-- A channel's state. -/
def Dev.phxCh (c : Nat) (d : Dev) : PhxCh := KMap.getD d.phx.chans c PhxCh.new

/-- Store a channel's state. -/
def Dev.setPhx (c : Nat) (x : PhxCh) (d : Dev) : Dev := { d with phx := { d.phx with chans := KMap.put d.phx.chans c x } }

/-- Whether a channel's resampling, P-class estimation and tracking are charged to P0 (R167). -/
def chP0 (t : SMap) (c : Nat) : Bool :=
  chAj t c || chRf t c || (chansIn t).any (fun j => (chAj t j || chRf t j) && chTrk t j == c)

/-- Whether a class's work of a channel is shed (R166, R167); class 0 P, 1 M. -/
def Dev.phxShed (c cls : Nat) (d : Dev) : Bool :=
  let x := d.phxCh c
  x.unplaced || ((x.shed || d.phx.allP2) && !(cls == 0 && chP0 d.act c))

/-- Averaged native samples D of a native rate (Table 5.2). -/
def decim (rate : Nat) : Nat := if rate = 96000 then 16 else if rate = 12800 ∨ rate = 14400 then 2 else 1

/-- f_r of a native rate. -/
def inRate (rate : Nat) : Nat := rate / decim rate

/-- C of a native rate (R170). -/
def protoC (rate : Nat) : Nat := 768 - 32 * (decim rate - 1) / decim rate

/-- Grid samples W of a class's window (R171). -/
def winLen (cls : Nat) : Nat := if cls = 0 then 96 else 192

/-- W_t at a tracked frequency, in 2^-16 ns (R176). -/
def winTime (cls : Nat) (ft : Word) : Int :=
  (winLen cls : Int) * 65536000000000 * (F32.one149 : Int) / (48 * F32.num ft)

/-- 12 / f_r in 2^-16 ns. -/
def rsDelay (rate : Nat) : Int := (12 * 65536000000000 / inRate rate : Nat)

/-- ρ(t) in 2^-48 cycle (R169). -/
def rho (nom : Nat) (t : Int) : Int := (nom : Int) * (t % 65536000000000) * 281474976710656 / 65536000000000

/-- A point of the commit grid in ns (R117). -/
def gridNs (n : Nat) : Nat := n / 1200 * 1000000000 + n % 1200 * 1000000000 / 1200

/-- The first point of the commit grid at or after an instant in 2^-16 ns. -/
def firstGrid (t : Int) : Nat :=
  let n := (t * 1200 / 65536000000000).toNat
  if t ≤ (gridNs n * 65536 : Nat) then n else n + 1

/-! ### Resets (R177 to R179) -/

/-- The grid goes on from an instant at a new phase and frequency; stretches later than it are dropped. -/
def PhxCh.gridFrom (x : PhxCh) (t phi : Int) (ft : Word) : PhxCh :=
  let s : GridSeg := { t0 := t, phi := phi, ft := ft }
  { x with ft := ft, segs := (s :: x.segs.filter (fun g => decide (g.t0 < t))).take 512 }

/-- A channel's grid takes a new tracked frequency from an instant on; its phase is continuous (R168, R169). -/
def PhxCh.track (x : PhxCh) (t : Int) (ft : Word) : PhxCh := if ft = x.ft then x else x.gridFrom t (x.phase t) ft

/-- A synchronising reset from instant `t` of the classes named. With P class the resampler, grid, detectors and
tracking run begin again; M class alone restarts its own estimator. Resets with the same instant are one. -/
def Dev.phxReset (c : Nat) (p m : Bool) (t : Int) (d : Dev) : Dev :=
  let x := d.phxCh c
  if (!p || x.trP == t) && (!m || x.trM == t) then d
  else
    let g := if p then x.gridFrom t (rho (chNom d.act c) t) x.ft else x
    let y := { g with
      trP := if p then t else x.trP, endP := if p then t + winTime 0 x.ft + rsDelay x.rate else x.endP,
      trM := if m then t else x.trM, endM := if m then t + winTime 1 x.ft + rsDelay x.rate else x.endM,
      resets := (x.resets + 1) % 65536, lastUs := BitVec.ofInt 32 (t / 65536000), rfRun := if p then 0 else x.rfRun,
      off := if p then 0 else x.off, aj := if p then DetS.new else x.aj, rf := if p then DetS.new else x.rf }
    let d := (d.setPhx c y).wrapAdd Reg.PHX_RESETS 1
    if p && (x.aj.till.isSome || x.rf.till.isSome) then d.localChange else d

/-- A time step resets every channel (R74, Table 5.5); sample numbers and estimates begin again from the new time. -/
def Dev.phxStep (d : Dev) : Dev :=
  (chansIn d.act).foldl (fun d c =>
    let n := firstGrid d.t16
    let x := d.phxCh c
    (d.setPhx c { x with hist := [], segs := [], taken := 0, lost := 0, detN := 0, nextP := n, nextM := n }).phxReset c true true
      d.t16) d

/-- The chain starts with the data plane: its next estimates are those of the next grid point. -/
def Dev.phxStart (d : Dev) : Dev :=
  (chansIn d.act).foldl (fun d c =>
    let n := firstGrid d.t16
    d.setPhx c { d.phxCh c with nextP := n, nextM := n }) d

/-- A channel in use for the first time: f_t starts at f_nom (R168). -/
def Dev.phxFresh (t : SMap) (c : Nat) (d : Dev) : PhxCh :=
  let n := firstGrid d.t16
  { PhxCh.new with ft := nomF32 t c, rate := d.svChanRate c, nextP := n, nextM := n }

/-! ### Lanes, placement and shedding (R165 to R167) -/

/-- The lane and position of a channel (R165, R166). -/
def PhxCh.at_ (x : PhxCh) (c : Nat) : Nat × Nat := x.place.getD (c % 8, c / 8)

/-- Length of a round in raw counts. -/
def Dev.roundNs (d : Dev) : Nat := if d.phx.failed.isEmpty then 32000 else 36000

/-- The lowest free position of a surviving lane, lanes in order of that position and then number; `skip` is the channel
being placed. -/
def Dev.freePlace (skip : Nat) (d : Dev) : Option (Nat × Nat) :=
  let used := ((chansIn d.act).filter (fun c => c != skip && !(d.phxCh c).unplaced)).map (fun c => (d.phxCh c).at_ c)
  let lanes := (List.range 8).filter (fun l => !d.phx.failed.contains l)
  (List.range 72).findSome? (fun p => (lanes.find? (fun l => !used.contains (l, p))).map (fun l => (l, p)))

/-- Place a channel whose lane has failed or whose position is taken, with a reset; or shed it until BOOT. Answers
whether it was placed. -/
def Dev.phxPlace (c : Nat) (d : Dev) : Bool × Dev :=
  match d.freePlace c with
  | some q => (true, (d.setPhx c { d.phxCh c with place := some q }).phxReset c true true d.t16)
  | none => (false, d.setPhx c { d.phxCh c with unplaced := true })

/-- The order in which the channels of a failed lane are placed (R166). -/
def placeLe (t : SMap) (a b : Nat) : Bool :=
  let det (c : Nat) : Nat := if chAj t c || chRf t c then 0 else 1
  decide (det a < det b) || (det a == det b &&
    (decide (chPrio t b < chPrio t a) || (chPrio t a == chPrio t b && decide (a ≤ b))))

/-- A lane fails: its channels are placed on the others, and the fault is reported (R166). -/
def Dev.laneFault (lane : Nat) (d : Dev) : Dev :=
  if d.phx.failed.contains lane then d
  else
    let mine := (chansIn d.act).filter (fun c => !(d.phxCh c).unplaced && ((d.phxCh c).at_ c).1 == lane)
    let d := { d with phx := { d.phx with failed := lane :: d.phx.failed } }
    let d := mine.foldl (fun d c => d.setPhx c { d.phxCh c with place := some (8, c) }) d
    let (placed, d) := (sortBy (placeLe d.act) mine).foldl (fun (a : Nat × Dev) c =>
      let (ok, e) := a.2.phxPlace c
      (if ok then a.1 + 1 else a.1, e)) (0, d)
    let shed := mine.length - placed
    let d := d.unitDown 4
    let d := d.post 0x0011 [BitVec.ofNat 32 lane, BitVec.ofNat 32 (placed + shed * 65536), 0, 0]
    d.notice 0xE1 [BitVec.ofNat 32 (lane + placed * 65536), BitVec.ofNat 32 shed]

/-- The channel the Annealer sheds next: least `SHED_PRIO`, higher number first, and no reference of an unshed channel
(R167). -/
def Dev.nextShed (d : Dev) : Option Nat :=
  let open_ := (chansIn d.act).filter (fun c => !(d.phxCh c).shed)
  let can := open_.filter (fun c => !(open_.any (fun j => j != c && chTrk d.act j == c)))
  if open_.all (fun c => chP0 d.act c) then none
  else (sortBy (fun a b => decide (chPrio d.act a < chPrio d.act b) ||
    (chPrio d.act a == chPrio d.act b && decide (b ≤ a))) can).head?

/-- Shed one channel's P2 work. -/
def Dev.shedOne (d : Dev) : Dev :=
  match d.nextShed with
  | some c => ({ d with anl := { d.anl with p2 := c :: d.anl.p2 } }).setPhx c { d.phxCh c with shed := true }
  | none => d

/-- Restore the channel shed last; the estimators that were shed take a reset. -/
def Dev.restoreOne (d : Dev) : Dev :=
  match d.anl.p2 with
  | [] => d
  | c :: rest =>
    let d := { d with anl := { d.anl with p2 := rest } }
    if !chEn d.act c then d
    else (d.setPhx c { d.phxCh c with shed := false }).phxReset c (!chP0 d.act c) true d.t16

/-! ### The resampler (R170) -/

/-- The prototype h of a native rate: R170's formula, scaled to the sum 64 and rounded to binary32. -/
def taps (rate : Nat) : List Word :=
  let c := protoC rate
  let raw := (List.range (2 * c + 1)).map (fun (m : Nat) =>
    let k : Int := (m : Int) - (c : Int)
    let u := Fx.one - Fx.div (k * k) ((c * c : Nat) : Int)
    Fx.mul (Fx.sinc (2000 * k) (64 * inRate rate)) (Fx.i0 u 80 1 Fx.one 0))
  let sum := raw.foldl (· + ·) 0
  raw.map (fun x => F32.ofFrac (64 * x) sum.toNat)

/-- A native sample by its number. -/
def PhxCh.smp (x : PhxCh) (n : Nat) : Option Sample := x.hist.find? (fun s => s.n == n)

/-- z[j] whose last native sample is number `n`: the mean of D consecutive samples. -/
def PhxCh.z (x : PhxCh) (n : Nat) : Word :=
  let dd := decim x.rate
  let s := (List.range dd).foldl (fun a i =>
    F32.add a (match x.smp (n + 1 + i - dd) with | some s => s.val | none => 0)) 0
  F32.div s (F32.ofInt (dd : Nat))

/-- hi at the index that grid instant `tau` and native sample `n` give. -/
def hiAt (rate : Nat) (h : List Word) (tau : Int) (n : Nat) : Word :=
  let dd := decim rate
  let q : Int := (65536000000000 * dd : Nat)
  let x := 64 * (inRate rate : Int) * (dd : Int) * tau - 64 * (n : Int) * 65536000000000 + 768 * q
  if x < 0 ∨ 2 * (protoC rate : Int) * q < x then 0
  else
    let m := (x / q).toNat
    let a := h.getD m 0
    F32.add a (F32.mul (F32.sub (h.getD (m + 1) 0) a) (F32.ofFrac (x % q) q.toNat))

/-- The first and the last native sample that the taps of grid instants from `a` to `b` reach. -/
def reach (rate : Nat) (a b : Int) : Int × Int :=
  let back := (2 * protoC rate - 768 : Nat) * 65536000000000 / (64 * inRate rate)
  let lo := ((a - (back : Int)) * (rate : Int) + 65535999999999) / 65536000000000
  (lo - (decim rate : Int) + 1, (b + rsDelay rate) * (rate : Int) / 65536000000000)

/-- y at a grid instant. -/
def PhxCh.y (x : PhxCh) (h : List Word) (tau : Int) : Word :=
  let (lo, hi) := reach x.rate tau tau
  let ns := (List.range ((hi - lo).toNat + 1)).map (fun (i : Nat) => (lo + (i : Int)).toNat)
  (ns.filter (fun n => (n + 1) % decim x.rate == 0)).foldl (fun acc n =>
    F32.add acc (F32.mul (x.z n) (hiAt x.rate h tau n))) 0

/-! ### The grid and the estimators (R169, R171 to R174) -/

/-- The instant of grid point `g` (48 φ_g = `g`), in 2^-16 ns. -/
def PhxCh.gridTime (x : PhxCh) (g : Int) : Int :=
  match (x.segs.find? (fun s => decide (48 * s.phi ≤ g * 281474976710656))).or x.segs.getLast? with
  | some s => s.t0 + (g * 281474976710656 - 48 * s.phi) * 65536000000000 * (F32.one149 : Int)
      / (48 * 281474976710656 * F32.num s.ft)
  | none => 0

/-- A complex number in binary32. -/
abbrev Cpx := Word × Word

/-- Complex sum. -/
def Cpx.add (a b : Cpx) : Cpx := (F32.add a.1 b.1, F32.add a.2 b.2)
/-- Complex product. -/
def Cpx.mul (a b : Cpx) : Cpx :=
  (F32.sub (F32.mul a.1 b.1) (F32.mul a.2 b.2), F32.add (F32.mul a.1 b.2) (F32.mul a.2 b.1))
/-- A real multiple. -/
def Cpx.scale (k : Word) (a : Cpx) : Cpx := (F32.mul k a.1, F32.mul k a.2)

/-- E[k] = exp(-j 2π k / 48). -/
def rotE (k : Nat) : Cpx := (Fx.toF32 (Fx.cosTurn (k : Int) 48), Fx.toF32 (-(Fx.sinTurn (k : Int) 48)))

/-- The window weight w[m] of a class (R171). -/
def weight (cls m : Nat) : Word :=
  if cls = 0 then F32.ofFrac (96 - (2 * (m : Int) - 95).natAbs) 96
  else Fx.toF32 (Fx.one / 2 - Fx.cosTurn (2 * (m : Int) + 1) 384 / 2)

/-- The sub-window weight of a class (R173). -/
def subWeight (cls m : Nat) : Word :=
  if cls = 0 then 0x3F800000 else Fx.toF32 (Fx.one / 2 - Fx.cosTurn (2 * (m : Int) + 1) 192 / 2)

/-- Σ w[m] as binary32: 48 for P class and 96 for M class. -/
def weightSum (cls : Nat) : Nat := winLen cls / 2

/-- π in binary32. -/
def piF32 : Word := 0x40490FDB

/-- Wrap an angle difference into (-π, π]. -/
def wrapPi (a : Word) : Word :=
  if F32.lt piF32 a then F32.sub a (F32.mul 0x40000000 piF32)
  else if F32.le a (F32.neg piF32) then F32.add a (F32.mul 0x40000000 piF32) else a

/-- The argument of a complex number in rad (log entry 12). -/
def argOf (z : Cpx) : Word := Config.fn 30 [z.1, z.2]

/-- What an estimate gives: phasor, frequency and ROCOF, whether the taps reached a filled or a clipped sample. -/
structure Estimate where
  re     : Word
  im     : Word
  freq   : Word
  rocof  : Word
  filled : Bool
  clip   : Bool

/-- The grid points of a class's window at an instant, ascending (R171). -/
def PhxCh.window (x : PhxCh) (cls : Nat) (t : Int) : List Int :=
  let g := 48 * x.phase t / 281474976710656
  let first := g - (winLen cls / 2 - 1 : Nat)
  (List.range (winLen cls)).map (fun (m : Nat) => first + (m : Int))

/-- The grid instants of a window's first and last point. -/
def PhxCh.span (x : PhxCh) (cls : Nat) (t : Int) : Int × Int :=
  let ws := x.window cls t
  (x.gridTime (ws.headD 0), x.gridTime (ws.getLastD 0))

/-- The samples that the taps of a class's window at an instant reach. -/
def PhxCh.reached (x : PhxCh) (cls : Nat) (t : Int) : List Sample :=
  let (lo, hi) := reach x.rate (x.span cls t).1 (x.span cls t).2
  x.hist.filter (fun s => decide (lo ≤ (s.n : Int)) && decide ((s.n : Int) ≤ hi))

/-- The estimate of a class at an instant (R172, R173). -/
def PhxCh.estimate (x : PhxCh) (cls nom : Nat) (scale : Word) (t : Int) : Estimate :=
  let h := taps x.rate
  let ys := (x.window cls t).map (fun g => (g, x.y h (x.gridTime g)))
  let e := ys.map (fun p => Cpx.scale p.2 (rotE (p.1 % 48).toNat))
  let sum := (ys.zipIdx.map (fun p =>
    Cpx.scale (F32.mul (weight cls p.2) p.1.2) (rotE (p.1.1 % 48).toNat))).foldl Cpx.add (0, 0)
  let k := F64.toF32 (F64.divNat (F64.sqrt (2 * F64.one)) (weightSum cls))
  let turn := x.phase t - rho nom t
  let r : Cpx := (Fx.toF32 (Fx.cosTurn turn 281474976710656), Fx.toF32 (Fx.sinTurn turn 281474976710656))
  let ph := Cpx.scale scale (Cpx.mul (Cpx.scale k sum) r)
  let sub := winLen cls / 2
  let alpha (a : Nat) : Word := argOf ((((e.drop (a * sub / 2)).take sub).zipIdx.map (fun p =>
    if cls = 0 then p.1 else Cpx.scale (subWeight cls p.2) p.1)).foldl Cpx.add (0, 0))
  let per := if cls = 0 then piF32 else F32.mul 0x40000000 piF32
  let f (a b : Nat) : Word := F32.mul x.ft (F32.add 0x3F800000 (F32.div (wrapPi (F32.sub (alpha b) (alpha a))) per))
  let fa := f 0 1
  let fb := f 1 2
  let dt := F32.div (if cls = 0 then 0x3F000000 else 0x3F800000) x.ft
  let used := x.reached cls t
  { re := ph.1, im := ph.2, freq := F32.div (F32.add fa fb) 0x40000000, rocof := F32.div (F32.sub fb fa) dt,
    filled := used.any (fun s => s.filled), clip := used.any (fun s => s.clip) }

/-! ### Decisions of the detectors (R182, R184, R185) -/

/-- A binary32 value in units of 0.01, signed 16 bits, saturating. -/
def centi (w : Word) : Int :=
  if F32.isNaN w then 0
  else if F32.isInf w then (if F32.neg? w then -32768 else 32767)
  else max (-32768) (min 32767 (roundAway (F64.ofF32 w * 100)))

/-- `DET_HOLD` of a channel in raw counts. -/
def detHold (t : SMap) (c : Nat) : Nat := zeroActs 10 ((chIn t c 3).field 24 8) * 10000000

/-- A decision of a detector (0 angle jump, 1 ROCOF) with its value, the instant of its sample or estimate (2^-16 ns)
and the raw count of that sample's arrival. -/
def Dev.detDecide (c kind : Nat) (val : Word) (inst : Int) (arr : Nat) (d : Dev) : Dev :=
  let x := d.phxCh c
  let h : DetS := { armed := false, till := some (d.raw + detHold d.act c), val := val }
  let d := d.setPhx c (if kind = 0 then { x with aj := h } else { x with rf := h })
  let d := d.wrapAdd (if kind = 0 then Reg.PHX_AJ_COUNT else Reg.PHX_RF_COUNT) 1
  let d := d.setReg Reg.PHX_DET_LAST (BitVec.ofNat 32 (c + kind * 1024 + (centi val % 65536).toNat * 65536))
  let d := (d.setReg Reg.PHX_DET_LAST_RAW_LO (lo32 d.raw)).setReg Reg.PHX_DET_LAST_RAW_HI (hi32 d.raw)
  let d := d.keepMax Reg.PHX_DET_LAT_MAX (d.raw - arr) 4294967295
  let d := if d.rbit Reg.PHX_CTRL 6 then
    (d.spqAppend (d.fld Reg.PHX_CTRL 0 6) 4 ([BitVec.ofNat 32 (c + kind * 65536), val, lo32 d.raw, hi32 d.raw]
      ++ tickWords (inst / 65536))).2 else d
  (d.localChange).fixedTrigger (72 + kind) inst c (some c) none

/-- A detector's hold ends: its flag clears (R182). -/
def Dev.detRelease (c kind : Nat) (d : Dev) : Dev :=
  let x := d.phxCh c
  let s := if kind = 0 then x.aj else x.rf
  match s.till with
  | some t =>
    if t ≤ d.raw then
      let h : DetS := { s with till := none, val := 0 }
      (d.setPhx c (if kind = 0 then { x with aj := h } else { x with rf := h })).localChange
    else d
  | none => d

/-- What a detector does with an evaluation: `hit` says that it would decide, `calm` that it may re-arm. -/
def Dev.detEval (c kind : Nat) (hit calm : Bool) (val : Word) (inst : Int) (arr : Nat) (d : Dev) : Dev :=
  let x := d.phxCh c
  let s := if kind = 0 then x.aj else x.rf
  if s.till.isSome then
    if hit then d.bump (if kind = 0 then Reg.PHX_AJ_SUPPRESSED else Reg.PHX_RF_SUPPRESSED) 1 else d
  else if s.armed then (if hit then d.detDecide c kind val inst arr else d)
  else if calm then
    let h : DetS := { s with armed := true }
    d.setPhx c (if kind = 0 then { x with aj := h } else { x with rf := h })
  else d

/-! ### The angle-jump detector (R180, R181) -/

/-- The samples of a fit's window ending at number `n`, newest first, when all are valid, unfilled, unclipped and at or
after the channel's last reset. -/
def PhxCh.fitWin (x : PhxCh) (m n : Nat) : Option (List Word) :=
  let w := x.hist.filter (fun s => decide (s.n ≤ n) && decide (n < s.n + m) && !s.filled && !s.clip
    && decide (x.trP ≤ (smpTime x.rate s.n : Nat)))
  if w.length = m then some (w.map (fun s => s.val)) else none

/-- The detector core evaluates native sample `n` of a channel. The fit's phase, amplitude and residual ratio, and the
wrapped difference in degrees, are functions of the samples (log entry 12). -/
def Dev.ajEvaluate (c : Nat) (s : Sample) (d : Dev) : Dev :=
  let x := d.phxCh c
  let ft := (F32.num x.ft).toNat
  let m := x.rate * F32.one149 / (4 * ft) + 1
  let k := (2 * x.rate * F32.one149 + ft) / (2 * ft)
  match x.fitWin m s.n, (if s.n < k then none else x.fitWin m (s.n - k)) with
  | some a, some b =>
    let p : List Word := [x.ft, BitVec.ofNat 32 x.rate]
    let dth := Config.fn 29 (Config.fn 26 (p ++ a) :: Config.fn 26 (p ++ b) :: BitVec.ofNat 32 k :: p)
    let w2 := chIn d.act c 2
    let res := F32.ofFrac (zeroActs 30 (w2.field 16 8) : Nat) 1000
    let amp := F32.ofInt (zeroActs 32 (w2.field 24 8) * 4096 : Nat)
    let thr := min 18000 (zeroActs 600 (w2.field 0 16))
    let gates := F32.le (Config.fn 28 (p ++ a)) res && F32.le (Config.fn 28 (p ++ b)) res &&
      F32.le amp (Config.fn 27 (p ++ b))
    if !gates then d
    else
      let d := d.setPhx c { x with lastD := centi dth }
      d.detEval c 0 (F32.le (F32.ofFrac (thr : Nat) 100) (F32.abs dth)) (F32.lt (F32.abs dth) (F32.ofFrac (thr : Nat) 200)) dth
        (smpTime x.rate s.n : Nat) s.arr
  | _, _ => d

/-! ### Samples (R163, R164) -/

/-- The word in which Shutter stores a native sample (Table 8.9). -/
def smpWord (v : Int) (invalid clip filled test : Bool) : Word :=
  let b (x : Bool) (i : Nat) : Nat := if x then 2 ^ i else 0
  BitVec.ofNat 32 ((v % 16777216).toNat + b invalid 24 + b clip 25 + b filled 26 + b test 28)

/-- The value of the `i`-th of `g` missing samples between two valid ones. -/
def between (a b : Word) (i g : Nat) : Word :=
  F32.round (F32.num a * ((g + 1 - i : Nat) : Int) + F32.num b * (i : Int)) (F32.one149 * (g + 1)) false

/-- A sample of a channel is delivered (R163 to R165): Shutter stores it; a valid one enters the chain, with a short run
of missing samples before it filled and a longer one causing a reset at its time. -/
def Dev.phxDeliver (fz : Fuse) (c n rate : Nat) (v : Int) (clip invalid test : Bool) (d : Dev) : Dev :=
  let x := d.phxCh c
  let last := x.hist.head?
  let late := match last with | some s => decide (n ≤ s.n) | none => false
  let use_ := chEn d.act c && !invalid && !late && decide (x.lost < n)
  let val := F32.ofInt v
  let gap := match last with | some s => n - s.n - 1 | none => 0
  let fill := use_ && decide (0 < gap) && decide (gap ≤ chGap d.act c)
  let prev := match last with | some s => s.val | none => 0
  let filled : List Sample := if fill then (List.range gap).map (fun i =>
    { n := n - gap + i, val := between prev val (i + 1) gap, clip := false, filled := true, arr := d.raw }) else []
  let d := if !d.op.running then d else filled.foldl (fun d s =>
    (d.liveGroups.filter (fun g => (d.grp g).chans.any (fun q => q.kind == 0 && q.ch == c))).foldl (fun d g =>
      d.storeSmp g 0 c s.n [smpWord (roundAway (F64.ofF32 s.val)) false false true false]) d) d
  let d := if use_ then
    let s : Sample := { n := n, val := val, clip := clip, filled := false, arr := d.raw }
    let keep := x.hist.filter (fun q => decide (n < q.n + rate / 4))
    let d := d.setPhx c { x with hist := s :: (filled.reverse ++ keep), rate := rate }
    let d := if fill then d.bump Reg.PHX_GAP_FILLS gap else d
    if decide (0 < gap) && !fill then d.phxReset c true true (smpTime rate n : Nat) else d
  else d
  d.shtSv fz c n rate (smpWord v invalid clip false test) v (!invalid && !clip && !test)

/-! ### Outputs (R175, Table 5.3) -/

/-- The home of a stream at the slot time of a frame time (R133). -/
def Dev.frameHome (i num den : Nat) (d : Dev) : Option Nat :=
  let f := rateOf (eRate (d.entryAt i ((num * 1000000000 / den : Nat) : Int)))
  d.homeAt i ((slotNs f (slotOf f num den) : Nat) : Int)

/-- A frame is handed to its stream's tile: it joins the input queue, or is dropped with the queue full (R134). -/
def Dev.toTile (fr : TileFrame) (d : Dev) : Dev :=
  match d.frameHome fr.idx fr.num fr.den with
  | none => d.bump Reg.EAS_UNHOMED_DROP 1
  | some t =>
    let x := d.tile t
    if x.inq.length < 128 then d.setTile t { x with inq := x.inq ++ [fr] } else d.bump (Reg.EAS_INQ_DROP t) 1

/-- Whether a channel has no input (Table 5.3 row 1). -/
def Dev.noInput (c : Nat) (d : Dev) : Bool :=
  match d.feeder c with
  | some i => d.streamState i != 2
  | none => true

/-- Whether a class's estimate at an instant is suppressed by settling (R178). -/
def PhxCh.settles (x : PhxCh) (cls : Nat) (t : Int) : Bool :=
  decide (t + winTime cls x.ft / 2 < (if cls = 0 then x.endP else x.endM))

/-- Whether a settling period of the channel is running now. -/
def PhxCh.settling (x : PhxCh) (now : Int) : Bool :=
  decide (x.trP ≤ now) && (decide (now < x.endP) || decide (now < x.endM))

/-- The condition of an output by Table 5.3, the estimate being `e` and the P-class frequency `fp`. -/
def outCond (noIn shed settle : Bool) (nom : Nat) (fp : Word) (e : Estimate) : Nat :=
  if noIn then 1
  else if shed then 2
  else if settle then 3
  else if !(F32.le (F32.ofInt ((nom : Int) - 5)) fp && F32.le fp (F32.ofInt ((nom : Int) + 5))) then 4
  else if e.clip then 5 else 6

/-- STAT[15:14] and STAT[3:0] of a condition. -/
def condStat (c : Nat) : Nat := [0, 0x800C, 0x8009, 0x8008, 0x400B, 0x400A, 0].getD c 0

/-- Whether the samples that a class's estimate at an instant needs have been taken by a round. -/
def PhxCh.complete (x : PhxCh) (cls : Nat) (t : Int) : Bool :=
  decide ((reach x.rate (x.span cls t).1 (x.span cls t).2).2 ≤ (x.taken : Int))

/-- The valid kind 2 entry of an output at an instant in ns. -/
def Dev.outEntry (c cls : Nat) (t : Int) (d : Dev) : Option (Nat × List Word) :=
  (d.streamIdx.map (fun i => (i, d.entryAt i t))).find? (fun p => eValid p.2 && eKind p.2 == 2 && eId p.2 == 2 * c + cls)

/-- Hand an output's estimate at a reporting instant to its home tile (R175). -/
def Dev.phxOutput (c cls n : Nat) (cond : Nat) (e : Estimate) (d : Dev) : Dev :=
  let t : Int := (gridNs n : Nat)
  match d.outEntry c cls t with
  | none => d
  | some (i, en) =>
    let f := rateOf (eRate en)
    if n % (1200 / zeroActs 1 f) ≠ 0 then d
    else
      let k := n / (1200 / zeroActs 1 f)
      let r := match d.openSet? (eRate en) k with | some s => s.ref d | none => d.refVals
      let stat := condStat cond + (if e.filled then 512 else 0) + (if r.sync = 0 ∨ r.sync = 3 then 8192 else 0)
        + r.statTq % 8 * 64 + r.unlock % 4 * 16
      let ok := decide (cond = 6)
      let v (w : Word) : Val := if 3 < cond then { bits := w, ok := ok && !F32.isNaN w } else { bits := F32.nan, ok := false }
      let fr : TileFrame :=
        { idx := i, rev := 0, num := k, den := f, stat := BitVec.ofNat 16 stat, mtq := r.msgTq,
          pay := { freq := v e.freq, dfreq := v e.rocof, ph := [(v e.re, v e.im)], an := [], dg := [] },
          arrNs := d.tick, arrRaw := d.raw }
      if (d.frameHome i k f).isNone then d.toTile fr else (d.streamAccept i).toTile fr

/-! ### Tracking (R168) and the ROCOF detector (R184) -/

/-- f_t held to f_nom ± 5 Hz. -/
def clampFt (nom : Nat) (f : Word) : Word :=
  let lo := F32.ofInt ((nom : Int) - 5)
  let hi := F32.ofInt ((nom : Int) + 5)
  if F32.lt f lo then lo else if F32.lt hi f then hi else f

/-- f_t moved toward f_P by at most 0.01 Hz. -/
def towardFt (nom : Nat) (ft fp : Word) : Word :=
  let df := F32.sub fp ft
  let step : Word := 0x3C23D70A
  clampFt nom (if F32.le (F32.abs df) step then fp else if F32.lt df 0 then F32.sub ft step else F32.add ft step)

/-- A P-class estimate of a reference channel moves the channels that track it, or re-locks them. -/
def Dev.trackFrom (r : Nat) (t : Int) (fp : Word) (d : Dev) : Dev :=
  let x := d.phxCh r
  let off := if F32.lt 0x3F000000 (F32.abs (F32.sub fp x.ft)) then x.off + 1 else 0
  let mine := (chansIn d.act).filter (fun c => chTrk d.act c == r)
  if 3 ≤ off then
    mine.foldl (fun d c =>
      (d.setPhx c { d.phxCh c with ft := clampFt (chNom d.act c) fp, off := 0 }).phxReset c true true t) d
  else
    let d := d.setPhx r { x with off := off }
    mine.foldl (fun d c => d.setPhx c ((d.phxCh c).track t (towardFt (chNom d.act c) (d.phxCh c).ft fp))) d

/-- The ROCOF detector takes a P-class estimate; `there` says that one was made, `good` that it is valid. -/
def Dev.rfEstimate (c : Nat) (there good : Bool) (t : Int) (rocof : Word) (d : Dev) : Dev :=
  let x := d.phxCh c
  let w3 := chIn d.act c 3
  let thr := zeroActs 100 (w3.field 0 16)
  let above := good && F32.le (F32.ofFrac (thr : Nat) 100) (F32.abs rocof)
  let run := if above then x.rfRun + 1 else 0
  let arr := match x.hist.head? with | some s => s.arr | none => d.raw
  let d := d.setPhx c { x with rfRun := run, lastR := if there then centi rocof else x.lastR }
  if !chRf d.act c || !good then d
  else d.detEval c 1 (above && decide (zeroActs 12 (w3.field 16 8) ≤ run)) (F32.lt (F32.abs rocof) (F32.ofFrac (thr : Nat) 200))
    rocof t arr

/-- One class of a channel estimates at its next grid point, when that estimate can be formed. -/
def Dev.phxEstimateStep (c cls : Nat) (d : Dev) : Dev :=
  let x := d.phxCh c
  let n := if cls = 0 then x.nextP else x.nextM
  let t : Int := (gridNs n * 65536 : Nat)
  let shed := d.phxShed c cls
  let noIn := d.noInput c
  let settle := x.settles cls t
  let free := noIn || shed || settle
  if d.t16 < t + winTime cls x.ft / 2 + rsDelay x.rate ∨ (!free && !x.complete cls t) = true then d
  else
    let nom := chNom d.act c
    let scale := chIn d.act c 1
    let blank : Estimate :=
      { re := 0, im := 0, freq := 0, rocof := 0, filled := !shed && (x.reached cls t).any (fun s => s.filled), clip := false }
    let e := if free then blank else x.estimate cls nom scale t
    let fp := if free then 0 else if cls = 0 then e.freq else (x.estimate 0 nom scale t).freq
    let cond := outCond noIn shed settle nom fp e
    let d := d.setPhx c (if cls = 0 then { x with nextP := n + 1 } else { x with nextM := n + 1 })
    let d := if d.op.running then d.phxOutput c cls n cond e else d
    if cls = 0 then
      let d := d.rfEstimate c (!free) (decide (cond = 6)) t e.rocof
      if free then (if chTrk d.act c = c then d.setPhx c { d.phxCh c with off := 0 } else d) else d.trackFrom c t e.freq
    else d

/-! ### Words shown (Tables 5.1, 5.8) -/

/-- A bit as a number. -/
def b1 (b : Bool) (i : Nat) : Nat := if b then 2 ^ i else 0

/-- Words 4 to 7 of a channel in the active view. -/
def Dev.chShown (c w : Nat) (d : Dev) : Word :=
  if !chEn d.act c then 0
  else
    let x := d.phxCh c
    let (lane, pos) := x.at_ c
    match w with
    | 4 => x.ft
    | 5 => BitVec.ofNat 32 (lane % 8 + pos % 128 * 8 + b1 (x.settling d.t16) 10 + b1 (x.shed || x.unplaced || d.phx.allP2) 11
        + b1 (chAj d.act c && x.aj.armed) 12 + b1 x.aj.till.isSome 13 + b1 (chRf d.act c && x.rf.armed) 14 + b1 x.rf.till.isSome 15
        + x.resets * 65536)
    | 6 => BitVec.ofNat 32 ((x.lastD % 65536).toNat + (x.lastR % 65536).toNat * 65536)
    | 7 => x.lastUs
    | _ => 0

/-- `PHX_STATUS`. -/
def Dev.phxStatus (d : Dev) : Word :=
  let en := chansIn d.act
  let shed := en.filter (fun c => (d.phxCh c).shed || (d.phxCh c).unplaced || d.phx.allP2)
  BitVec.ofNat 32 (en.length + shed.length * 1024 + (d.phx.failed.map (fun l => 2 ^ (20 + l))).sum)

/-- `PHX_SETTLEn` and `PHX_SHEDn`. -/
def Dev.phxBitmap (shed : Bool) (n : Nat) (d : Dev) : Word :=
  BitVec.ofNat 32 (((chansIn d.act).filter (fun c => c / 32 == n && (let x := d.phxCh c
    if shed then x.shed || x.unplaced || d.phx.allP2 else x.settling d.t16))).map (fun c => 2 ^ (c % 32))).sum

end Sys2Proof.Machine
end

