-- ==== Sys2Proof/Machine/DnsOps.lean ====
section
/-! DEFINITION. The operations of the Densitometer (07_densitometer.md): analysis samples, the mode table, forced
oscillations, coherency grouping, alarm flags, levels and restarts. -/

namespace Sys2Proof.Machine

/-! ### Settings and levels (R231, R252, Tables 7.10, 7.12) -/

/-- Analysis rate A. -/
def Dev.aRate (d : Dev) : Nat := [10, 20, 50, 100].getD (d.fld Reg.DNS_CTRL 0 2) 20
/-- `ID_EN`. -/
def Dev.idEn (d : Dev) : Bool := d.rbit Reg.DNS_CTRL 2
/-- `WIN_S`. -/
def Dev.winS (d : Dev) : Nat := clampNat 30 1200 (d.fld Reg.DNS_ID 0 11)
/-- `ORDER`. -/
def Dev.dnsOrder (d : Dev) : Nat := clampNat 8 128 (d.fld Reg.DNS_ID 12 8 / 2 * 2)
/-- `WARMUP_S`. -/
def Dev.warmupS (d : Dev) : Nat := clampNat 30 1200 (d.fld Reg.DNS_PRE 16 11)
/-- `FO_WIN_S`. -/
def Dev.foWinS (d : Dev) : Nat := clampNat 10 600 (d.fld Reg.DNS_FO 0 10)
/-- `GAP_MAX`. -/
def Dev.gapMax (d : Dev) : Nat := zeroActs 1 (d.fld Reg.DNS_CTRL 16 8)

/-- Matrix cores in service. -/
def Dev.coresIn (d : Dev) : Nat := 16 - d.dns.failed.length

/-- The level that the cores in service force (Table 7.12). -/
def coreLevel (n : Nat) : Nat := if 16 ≤ n then 0 else if 8 ≤ n then 1 else if 4 ≤ n then 2 else 3

/-- The level the Annealer and the cores in service ask for (R252). -/
def Dev.dnsTarget (d : Dev) : Nat := min 4 (max d.dns.anlLevel (coreLevel d.coresIn))

/-- The effective level in force (R252): level 4 at once, any other from the refresh instant at which it was taken. -/
def Dev.dnsLevel (d : Dev) : Nat :=
  if d.op = .holdup ∨ d.dnsTarget = 4 then 4 else if d.op.running then d.dns.level else d.dnsTarget

/-- `DNS_STATUS.STATE` (Table 7.10). -/
def Dev.dnsState (d : Dev) : Nat :=
  if d.coresIn = 0 then 5
  else if !(d.op.running || d.op == .holdup) || !d.idEn then 0
  else if d.dnsLevel = 4 then 4
  else if d.dns.paused.isSome then 3
  else if d.dns.warming then 1 else 2

/-- `DNS_STATUS`. -/
def Dev.dnsStatus (d : Dev) : Word :=
  BitVec.ofNat 32 (d.dnsState + d.dnsLevel * 8 + d.dns.anlLevel * 64
    + (if d.dns.fo.any (fun p => p.2.st == 2 || p.2.st == 3) then 512 else 0) + d.coresIn * 65536)

/-- Whether the per-instant update and what follows it run. -/
def Dev.dnsRuns (d : Dev) : Bool := d.op.running && decide (d.dnsLevel < 4) && decide (0 < d.coresIn)

/-! ### Tables (Tables 7.1, 7.7, 7.8) -/

/-- Word `w` of a signal entry. -/
def sigW (t : SMap) (i w : Nat) : Word := SMap.get zeroW t (0x320000 + 8 * i + 4 * w)
/-- Word `w` of a branch entry. -/
def brW (t : SMap) (b w : Nat) : Word := SMap.get zeroW t (0x32A000 + 32 * b + 4 * w)
/-- Word `w` of a flag entry. -/
def flagW (t : SMap) (f w : Nat) : Word := SMap.get zeroW t (0x328000 + 32 * f + 4 * w)

/-- Enabled signals of a table with a bit of word 0 set, ascending. -/
def sigsWith (t : SMap) (bit : Nat) : List Nat :=
  t.filterMap (fun p =>
    if 0x320000 ≤ p.1 ∧ p.1 < 0x328000 ∧ p.1 % 8 = 0 ∧ p.2.bit 0 = true ∧ p.2.bit bit = true then some ((p.1 - 0x320000) / 8)
    else none)

/-- Modal signals in use, in order of modal ordinal (R223, R521). -/
def modalSigs (t : SMap) : List Nat := sigsWith t 1

/-- Enabled branches, ascending. -/
def branchesIn (t : SMap) : List Nat :=
  t.filterMap (fun p =>
    if 0x32A000 ≤ p.1 ∧ p.1 < 0x32E000 ∧ (p.1 - 0x32A000) % 32 = 0 ∧ p.2.bit 0 = true then some ((p.1 - 0x32A000) / 32)
    else none)

/-! ### Analysis samples (R226 to R228, R239) -/

/-- Payloads of a stream's used first-look images with slot times in (t - per, t], ascending (R226). -/
def Dev.dnsPays (s : Nat) (t per : Nat) (d : Dev) : List Payload :=
  let e := d.entryAt s (t : Int)
  let f := rateOf (eRate e)
  let k1 := t * f / 1000000000
  let ks := (List.range (per * f / 1000000000 + 2)).reverse.map (fun j => k1 + 1 - j)
  (ks.filter (fun k => decide (slotNs f k ≤ t) && decide (t < slotNs f k + per))).filterMap (fun k =>
    match d.archSet? (eRate e) k with
    | some a => match a.rev0.find? (fun m => m.idx == s) with
      | some m => if m.mask then m.pay else none
      | none => none
    | none => none)

/-- Binary32 mean in ascending order. -/
def mean32 (ws : List Word) : Option Word :=
  if ws.isEmpty then none else some (F32.div (ws.foldl F32.add 0) (F32.ofInt (ws.length : Nat)))

/-- The mean of the unit phasors of a phasor over payloads. -/
def meanUnit (ph : Nat) (ps : List Payload) : Option Cpx :=
  let us := (somes (ps.map (fun p => anglePh p ph))).map (fun q =>
    let m := magF32 q.1 q.2
    (F32.div q.1 m, F32.div q.2 m))
  match mean32 (us.map (fun u => u.1)), mean32 (us.map (fun u => u.2)) with
  | some a, some b => some (a, b)
  | _, _ => none

/-- A binary32 angle in degrees moved by whole turns to within half a turn of the one before (R226). -/
def unwrapDeg (prev : Option Word) (v : Word) : Word :=
  match prev with
  | none => v
  | some p =>
    let n := roundAway (F64.divNat (F64.ofF32 (F32.sub p v)) 360)
    F32.add v (F32.mul (F32.ofInt n) 0x43B40000)

/-- The mean value of a phasor's part over payloads (R226 for V and I of a branch). -/
def meanPh (ph : Nat) (ps : List Payload) : Option Cpx :=
  let qs := somes (ps.map (fun p => okPh p ph))
  match mean32 (qs.map (fun q => q.1)), mean32 (qs.map (fun q => q.2)) with
  | some a, some b => some (a, b)
  | _, _ => none

/-- S of a branch at an instant, when V and I are present (R239). -/
def Dev.branchS (b t per : Nat) (d : Dev) : Option Cpx :=
  match meanPh ((brW d.act b 1).field 13 6) (d.dnsPays ((brW d.act b 1).field 0 13) t per),
    meanPh ((brW d.act b 2).field 13 6) (d.dnsPays ((brW d.act b 2).field 0 13) t per) with
  | some v, some i => some (Cpx.scale (brW d.act b 3) (Cpx.mul v (i.1, F32.neg i.2)))
  | _, _ => none

/-- The value of a modal signal at an instant, before unwrapping; an angle is given against `ref`. -/
def Dev.modalValue (i t per : Nat) (ref : Cpx) (d : Dev) : Option Word :=
  let w := sigW d.act i 0
  let sel := w.field 6 9
  let ps := d.dnsPays (w.field 15 13) t per
  match w.field 3 3 with
  | 0 => mean32 (somes (ps.map (fun p => okVal p.freq)))
  | 1 => mean32 ((somes (ps.map (fun p => okPh p sel))).map (fun q => magF32 q.1 q.2))
  | 2 => (meanUnit sel ps).map (fun u => Config.fn 50 [u.1, u.2, ref.1, ref.2])
  | 3 => mean32 (somes (ps.map (fun p => match p.an[sel]? with | some v => okVal v | none => none)))
  | 4 => (d.branchS sel t per).map (fun s => s.1)
  | _ => none

/-- The sum of the unit phasors of the angle signals present (the reference of R226 and R241). -/
def Dev.angleRef (is : List Nat) (t per : Nat) (d : Dev) : Cpx :=
  (somes (is.map (fun i => meanUnit ((sigW d.act i 0).field 6 9) (d.dnsPays ((sigW d.act i 0).field 15 13) t per)))).foldl
    (fun a u => let m := magF32 u.1 u.2; Cpx.add a (F32.div u.1 m, F32.div u.2 m)) (0, 0)

/-- A modal signal takes its value of an instant, or its absence (R227). -/
def DnsSig.take (x : DnsSig) (gapMax : Nat) (angle : Bool) (v : Option Word) : DnsSig :=
  match v with
  | some w =>
    let w := if angle then unwrapDeg x.last w else w
    if x.excl then
      if gapMax ≤ x.pres + 1 then { last := some w, miss := 0, pres := 0, excl := false }
      else { x with last := some w, miss := 0, pres := x.pres + 1 }
    else { x with last := some w, miss := 0 }
  | none =>
    let n := x.miss + 1
    { x with miss := n, pres := 0, excl := x.excl || decide (gapMax < n) }

/-! ### Flags (R246 to R249) -/

/-- A flag's value. -/
def Dev.flagVal (f : Nat) (d : Dev) : Bool := d.rbit (if f < 32 then Reg.DNS_FLAGS_LO else Reg.DNS_FLAGS_HI) (f % 32)

/-- A flag's counters. -/
def Dev.flagS (f : Nat) (d : Dev) : FlagS := KMap.getD d.dns.flags f FlagS.new

/-- Store a flag's counters. -/
def Dev.setFlagS (f : Nat) (x : FlagS) (d : Dev) : Dev := { d with dns := { d.dns with flags := KMap.put d.dns.flags f x } }

/-- The amplitude of a mode at modal ordinal `k` (R234, log entry 12). -/
def DnsMode.ampAt (m : DnsMode) (k : Nat) : Word := Config.fn 55 [BitVec.ofNat 32 m.seed, BitVec.ofNat 32 k]

/-- Frequency of a forced-oscillation bin. -/
def foFreq (bin win : Nat) : Word := F32.ofFrac (bin : Nat) (zeroActs 1 win)

/-- A flag's condition at a level: the cause and the value that make it true (Table 7.9); `STALE` has no value of R247. -/
def Dev.flagCond (f : Nat) (level : Word) (p : DnsPub) (d : Dev) : Option (Nat × Word) :=
  let t := d.act
  let lo := F32.ofFrac ((flagW t f 1).field 0 16 : Nat) 100
  let hi := F32.ofFrac ((flagW t f 1).field 16 16 : Nat) 100
  let arg := (flagW t f 4).field 0 16
  let inBand (w : Word) : Bool := F32.le lo w && F32.le w hi
  let ms := p.modes.filter (fun m => inBand m.freq && decide ((flagW t f 0).field 24 8 ≤ m.conf))
  let ord := (modalSigs t).idxOf arg
  match (flagW t f 0).field 1 3 with
  | 0 => (ms.find? (fun m => F32.lt m.damp level)).map (fun m => (m.track, m.damp))
  | 1 => (ms.find? (fun m => F32.lt m.damp 0 && !p.excl.contains arg && F32.le level (m.ampAt ord))).map
      (fun m => (m.track, m.ampAt ord))
  | 2 => (ms.find? (fun m => !p.excl.contains arg && F32.le level (m.ampAt ord))).map (fun m => (m.track, m.ampAt ord))
  | 3 => (d.dns.fo.find? (fun q => (q.2.st == 2 || q.2.st == 3) && inBand (foFreq q.2.bin d.foWinS) && F32.le level q.2.snr
      && (arg == 65535 || q.2.srcArea == some arg))).map (fun q => (q.2.id, q.2.snr))
  | 4 =>
    let n := F32.ofInt (d.fld Reg.DNS_COH_INFO 0 9 : Nat)
    if F32.le level n then some (65535, n) else none
  | 5 =>
    if (arg = 0 ∧ d.dnsState ≠ 2) ∨ (1 ≤ arg ∧ arg ≤ d.dnsLevel) then some (65535, 0) else none
  | _ => none

/-- A flag changes its value (R247). The record's value is the one that decided it, a count for `COH_COUNT`; where none did
(a flag that clears, `STALE`) the spec states none, and it is free. -/
def Dev.flagChange (f : Nat) (v : Bool) (cause : Nat) (val : Word) (tick : Int) (d : Dev) : Dev :=
  let cond := (flagW d.act f 0).field 1 3
  let off := if f < 32 then Reg.DNS_FLAGS_LO else Reg.DNS_FLAGS_HI
  let d := (d.setReg off ((d.reg off).setBit (f % 32) v)).raise Reg.DNS_EVT 1
  if !d.rbit Reg.DNS_CTRL 5 then d
  else
    let (x, d) := if cond = 4 then ((F32.ofInt (d.fld Reg.DNS_COH_INFO 0 9 : Nat)).toNat, d)
      else if v && cond != 5 then (val.toNat, d) else d.drawN 67
    let val : Word := BitVec.ofNat 32 x
    let (ok, d) := d.spqAppend (d.fld Reg.DNS_CTRL 8 6) 5
      ([BitVec.ofNat 32 (f + (if v then 256 else 0) + cause % 65536 * 65536), val] ++ tickWords tick)
    if ok then d else d.bump Reg.DNS_FLAG_SPQ_DROP 1

/-- One evaluation of a flag (R246). -/
def Dev.flagEval (p : DnsPub) (f : Nat) (d : Dev) : Dev :=
  let t := d.act
  let w0 := flagW t f 0
  let x := d.flagS f
  let was := d.flagVal f
  let thr := flagW t f 2
  let hyst := flagW t f 3
  let level := if !was then thr else if w0.field 1 3 = 0 then F32.add thr hyst else F32.sub thr hyst
  let r := d.flagCond f level p
  let pers := zeroActs 1 (w0.field 8 8)
  let drop := zeroActs 1 (w0.field 16 8)
  match r with
  | some (c, v) =>
    let n := min 255 (x.pcount + 1)
    let d := d.setFlagS f { pcount := n, dcount := 0, cause := c }
    if !was && decide (pers ≤ n) then d.flagChange f true c v p.tick else d
  | none =>
    let n := min 255 (x.dcount + 1)
    let d := d.setFlagS f { pcount := 0, dcount := n, cause := 65535 }
    if was && decide (drop ≤ n) then d.flagChange f false 65535 0 p.tick else d

/-- Flags in use whose condition `keep` selects. -/
def flagsOf (t : SMap) (keep : Nat → Bool) : List Nat :=
  (List.range 64).filter (fun f => (flagW t f 0).bit 0 && keep ((flagW t f 0).field 1 3))

/-- Evaluate flags at a publication (R246, R249): while the state is not RUNNING only `STALE` flags. -/
def Dev.evalFlags (p : DnsPub) (d : Dev) : Dev :=
  let before := (d.reg Reg.DNS_FLAGS_LO, d.reg Reg.DNS_FLAGS_HI)
  let run := decide (d.dnsState = 2)
  let d := (flagsOf d.act (fun c => run || c == 5)).foldl (fun e f => e.flagEval p f) d
  if before = (d.reg Reg.DNS_FLAGS_LO, d.reg Reg.DNS_FLAGS_HI) then d else d.localChange

/-- A change of state or level takes place: while no publication occurs the `STALE` flags are evaluated at once, and on
the return to RUNNING the other flags' counters begin at 0 (R249). -/
def Dev.dnsNoted (old : Nat × Nat) (d : Dev) : Dev :=
  let new := (d.dnsState, d.dnsLevel)
  if old = new then d
  else
    let d := if new.1 = 2 ∧ old.1 ≠ 2 then
      (flagsOf d.act (fun c => c != 5)).foldl (fun e f => e.setFlagS f { e.flagS f with pcount := 0, dcount := 0 }) d else d
    if new.1 = 1 ∨ new.1 = 2 ∨ !d.op.running then d
    else
      let before := (d.reg Reg.DNS_FLAGS_LO, d.reg Reg.DNS_FLAGS_HI)
      let d := (flagsOf d.act (fun c => c == 5)).foldl (fun e f => e.flagEval { e.dns.shown with tick := e.tick } f) d
      if before = (d.reg Reg.DNS_FLAGS_LO, d.reg Reg.DNS_FLAGS_HI) then d else d.localChange

/-- Apply an operation and judge whether it changed the state or the level. -/
def Dev.withDnsState (f : Dev → Dev) (d : Dev) : Dev := (f d).dnsNoted (d.dnsState, d.dnsLevel)

/-- Every flag becomes 0 (`DEV_STOP`, R249). -/
def Dev.clearFlags (d : Dev) : Dev :=
  let d := { d with dns := { d.dns with flags := [] } }
  (d.setReg Reg.DNS_FLAGS_LO 0).setReg Reg.DNS_FLAGS_HI 0

/-! ### Restarts (R250, R251) -/

/-- Restart the named parts from now (R250). -/
def Dev.dnsRestart (id fo coh : Bool) (d : Dev) : Dev :=
  let now := d.tick
  let x := d.dns
  let x := if id then
    { x with warming := true, paused := none, idAt := now, count := 0, sigs := [], empty := true, pend := none, trackNext := 0,
             m := (now.toNat * d.aRate + 999999999) / 1000000000, refresh := (now.toNat + 199999999) / 200000000 - 1 } else x
  let x := if fo then { x with fo := [], branches := [], foDue := now + (d.foWinS * 1000000000 : Nat) } else x
  let x := if coh then { x with cohAt := now, angles := [], labels := [], cohSec := now.toNat / 1000000000 } else x
  ({ d with dns := x }).wrapAdd Reg.DNS_RESTARTS 1 |>.raise Reg.DNS_EVT 5

/-- A restart and the state change it makes. -/
def Dev.dnsRestartNoted (id fo coh : Bool) (d : Dev) : Dev := d.withDnsState (Dev.dnsRestart id fo coh)

/-- A matrix core fails with a cause (R253). -/
def Dev.coreFault (core cause : Nat) (d : Dev) : Dev :=
  if d.dns.failed.contains core then d
  else
    let old := (d.dnsState, d.dnsLevel)
    let d := { d with dns := { d.dns with failed := core :: d.dns.failed } }
    let n := d.coresIn
    let d := d.setReg Reg.DNS_CORES (BitVec.ofNat 32 ((65535 - (d.dns.failed.map (fun c => 2 ^ c)).sum) + cause * 65536 + core * 1048576))
    let d := d.post 0x0013 [BitVec.ofNat 32 (core + n * 256 + cause * 65536), 0, 0, 0]
    let d := (if cause = 4 then d else d.raise Reg.DNS_EVT 4).unitDown 2
    let d := if cause = 4 then d else d.notice 0xE3 [BitVec.ofNat 32 (core + n * 256 + cause * 65536)]
    (if d.op.running then d.dnsRestart true true true else d).dnsNoted old

/-! ### The per-instant update (R226 to R230) -/

/-- First looks are complete for every set of the streams that contribute to an instant. -/
def Dev.instantReady (t : Nat) (d : Dev) : Bool :=
  decide ((t : Int) ≤ d.tick) && d.eas.sets.all (fun s => s.done || decide (t < slotNs (rateOf s.rc) s.k))

/-- Coherency samples at an instant that is a multiple of 100 ms (R241). -/
def Dev.cohSample (t : Nat) (d : Dev) : Dev :=
  let is := sigsWith d.act 2
  let ref := d.angleRef is t 100000000
  is.foldl (fun d i =>
    match meanUnit ((sigW d.act i 0).field 6 9) (d.dnsPays ((sigW d.act i 0).field 15 13) t 100000000) with
    | none => d
    | some u =>
      let old := KMap.getD d.dns.angles i []
      let v := unwrapDeg (old.head?.map (fun p => p.2)) (Config.fn 50 [u.1, u.2, ref.1, ref.2])
      { d with dns := { d.dns with angles := KMap.put d.dns.angles i (((t / 100000000), v) :: old.take 600) } }) d

/-- Identification pauses while more than half of the modal signals are excluded; a pause longer than 60 s restarts it
when it ends (R227). -/
def Dev.judgePause (d : Dev) : Dev :=
  let n := (modalSigs d.act).length
  let ex := ((modalSigs d.act).filter (fun i => (KMap.getD d.dns.sigs i DnsSig.new).excl)).length
  let d := d.setReg Reg.DNS_SIG_EXCL (BitVec.ofNat 32 ex)
  if !d.idEn then d else
  match d.dns.paused with
  | none => if n < 2 * ex then { d with dns := { d.dns with paused := some d.raw } } else d
  | some r =>
    if n < 2 * ex then d
    else
      let d := { d with dns := { d.dns with paused := none } }
      if r + 60000000000 < d.raw then d.dnsRestart true true false else d

/-- The update of the next analysis instant. -/
def Dev.instantUpdate (d : Dev) : Dev :=
  let a := d.aRate
  let t := d.dns.m * 1000000000 / a
  if !d.dnsRuns || !d.instantReady t then d
  else
    let per := 1000000000 / a
    let angs := (modalSigs d.act).filter (fun i => (sigW d.act i 0).field 3 3 == 2)
    let ref := d.angleRef angs t per
    let sigs := (modalSigs d.act).foldl (fun (m : KMap DnsSig) i =>
      KMap.put m i ((KMap.getD m i DnsSig.new).take d.gapMax ((sigW d.act i 0).field 3 3 == 2) (d.modalValue i t per ref)))
      d.dns.sigs
    let cap := d.foWinS * a
    let brs := (branchesIn d.act).foldl (fun (m : KMap (List Bool)) b =>
      KMap.put m b (((d.branchS b t per).isSome :: KMap.getD m b []).take cap)) d.dns.branches
    let d := { d with dns := { d.dns with m := d.dns.m + 1, sigs := sigs, branches := brs,
                                          count := if d.dns.paused.isSome then d.dns.count else d.dns.count + 1 } }
    let d := if d.rbit Reg.DNS_CTRL 4 && t % 100000000 == 0 then d.cohSample t else d
    d.withDnsState Dev.judgePause

/-! ### Refresh and publication (R231 to R235) -/

/-- The next refresh instant of the level in force, in units of 200 ms (R252). -/
def Dev.nextRefresh (d : Dev) : Nat :=
  let p := 2 ^ min d.dns.level d.dnsTarget
  (d.dns.refresh / p + 1) * p

/-- Modal signals present. -/
def Dev.presentModal (d : Dev) : List Nat :=
  (modalSigs d.act).filter (fun i => !(KMap.getD d.dns.sigs i DnsSig.new).excl)

/-- The candidates of a factorisation: the eigenvalues and energies are free (log entry 12). -/
def Dev.drawModes : Nat → Dev → List DnsMode × Dev
  | 0, d => ([], d)
  | n + 1, d =>
    let (zm, d) := d.drawN 52
    let (za, d) := d.drawN 53
    let (en, d) := d.drawN 54
    let (sd, d) := d.drawN 55
    let (ds, d) := d.drawN 56
    let (rest, d) := Dev.drawModes n d
    let zmag := BitVec.ofNat 32 zm
    let zarg := BitVec.ofNat 32 za
    let ps := d.presentModal
    let m : DnsMode :=
      { isNew := true, track := 0, conf := 0, freq := Config.fn 53 [zarg, BitVec.ofNat 32 d.aRate],
        damp := Config.fn 54 [zmag, zarg], zmag := zmag, zarg := zarg, dom := ps.getD (ds % zeroActs 1 ps.length) 0, age := 0,
        energy := BitVec.ofNat 32 en, seed := sd, past := [] }
    (m :: rest, d)

/-- Whether a mode is reported (R231); `e` is the time since restart in ns. -/
def Dev.reported (e : Nat) (m : DnsMode) (d : Dev) : Bool :=
  let lo := F32.ofFrac 3000000000 (zeroActs 1 (min e (d.winS * 1000000000)))
  let hi := F32.ofFrac ((min 400 (4 * d.aRate) : Nat) : Int) 10
  F32.le 0x3C23D70A m.freq && F32.le lo m.freq && F32.le m.freq hi && F32.le 0x3A83126F m.energy

/-- Order of two values that are not NaN. -/
def leKey (a b : Word) : Bool := decide (F32.key a ≤ F32.key b)

/-- Greedy pairing of new modes with published ones by increasing |Δf| (R232): pairs (new, old) by position. -/
def pairModes (new old : List DnsMode) : List (Nat × Nat) :=
  let cand := new.zipIdx.flatMap (fun a => old.zipIdx.filterMap (fun b =>
    let df := F32.abs (F32.sub a.1.freq b.1.freq)
    let tenth := F32.mul 0x3DCCCCCD b.1.freq
    let lim := if F32.lt 0x3CA3D70A tenth then tenth else 0x3CA3D70A
    if F32.le df lim then some (df, a.2, b.2) else none))
  (sortBy (fun x y => leKey x.1 y.1) cand).foldl (fun acc c =>
    if acc.any (fun p => p.1 == c.2.1 || p.2 == c.2.2) then acc else acc ++ [c.2]) []

/-- Give unpaired modes the next track numbers, modulo 256, skipping those in use (R232). -/
def nextTrack (used : List Nat) : Nat → Nat → Nat
  | 0, t => t % 256
  | n + 1, t => if used.contains (t % 256) then nextTrack used n (t + 1) else t % 256

/-- Population variance of binary32 values, in binary64. -/
def variance (ws : List Word) : Int :=
  let xs := ws.map F64.ofF32
  let n := ws.length
  let mu := F64.divNat (xs.foldl F64.add 0) n
  F64.divNat ((xs.map (fun x => F64.mul (F64.add x (-mu)) (F64.add x (-mu)))).foldl F64.add 0) n

/-- `CONF` (R233). -/
def Dev.confOf (e : Nat) (age : Nat) (past : List (Word × Word)) (d : Dev) : Nat :=
  let lim := min d.winS (2 * d.warmupS) * 1000000000
  let fill := F64.divNat ((min e lim : Nat) * (F64.one : Int)) lim
  let stab := if 4 ≤ age then
    let sf := F64.sqrt (variance (past.map (fun p => p.1)))
    let sz := F64.sqrt (variance (past.map (fun p => p.2)))
    F64.round (F64.one * F64.one) (F64.add F64.one (F64.add (F64.mul sf (100 * F64.one)) (F64.mul sz (2 * F64.one)))).toNat
  else (F64.one / 4 : Nat)
  (255 * F64.mul fill stab / (F64.one : Int)).toNat

/-- Tracks of the modes of a refresh against those published last, and the next track number (R232, R233). -/
def Dev.trackModes (e : Nat) (new old : List DnsMode) (d : Dev) : List DnsMode × Nat :=
  let next (r : List DnsMode × List Nat × Nat) : List DnsMode × Nat := (r.1, r.2.2)
  let pairs := pairModes new old
  let kept := old.zipIdx.filterMap (fun b => if pairs.any (fun p => p.2 == b.2) then some b.1.track else none)
  next (new.zipIdx.foldl (fun (acc : List DnsMode × List Nat × Nat) a =>
    match pairs.find? (fun p => p.1 == a.2) with
    | some p =>
      let o := old.getD p.2 a.1
      let past := ((a.1.freq, a.1.damp) :: o.past).take 5
      let age := min 65535 (o.age + 1)
      (acc.1 ++ [{ a.1 with isNew := false, track := o.track, age := age, past := past, conf := d.confOf e age past }], acc.2)
    | none =>
      let t := nextTrack acc.2.1 256 acc.2.2
      let past := [(a.1.freq, a.1.damp)]
      (acc.1 ++ [{ a.1 with isNew := true, track := t, age := 0, past := past, conf := d.confOf e 0 past }], t :: acc.2.1, (t + 1) % 256))
    ([], kept, d.dns.trackNext))

/-- The Annealer sets its level of P3 (R252, Table 14.6): level 4 is in force at once. -/
def Dev.setAnlLevel (n : Nat) (d : Dev) : Dev :=
  d.withDnsState (fun (e : Dev) =>
    let was := e.dns.level
    let e := { e with dns := { e.dns with anlLevel := n } }
    if e.dnsTarget = 4 then { e with dns := { e.dns with level := 4 } }
    else if was = 4 then { e with dns := { e.dns with refresh := e.tick.toNat / 200000000 } } else e)

/-- A refresh instant is reached: a changed level takes effect at an instant of the new level, and a level that leaves 4
restarts the parts (R250, R252). -/
def Dev.takeLevel (r : Nat) (d : Dev) : Dev :=
  let old := (d.dnsState, d.dnsLevel)
  let d := { d with dns := { d.dns with refresh := r } }
  if d.dns.level = d.dnsTarget ∨ r % 2 ^ d.dnsTarget ≠ 0 then d
  else
    let four := d.dns.level == 4
    let d := { d with dns := { d.dns with level := d.dnsTarget } }
    (if four then d.dnsRestart true true true else d).dnsNoted old

/-- A refresh at the next refresh instant (R231). -/
def Dev.dnsRefresh (d : Dev) : Dev :=
  let r := d.nextRefresh
  let t : Int := (r * 200000000 : Nat)
  if !d.op.running || d.coresIn == 0 || d.dnsTarget == 4 || decide (d.tick < t) then d
  else
    let left := d.dns.level == 4
    let d := d.takeLevel r
    if left || !d.idEn || d.dns.paused.isSome then d
    else
    let excl := (modalSigs d.act).filter (fun i => (KMap.getD d.dns.sigs i DnsSig.new).excl)
    if d.dns.empty then
      { d with dns := { d.dns with empty := false, pend := some { modes := [], tick := t, epoch := d.tbu.epoch, excl := excl } } }
    else
      let e := (t - d.dns.idAt).toNat
      let (n, d) := d.drawN 51
      let (all, d) := Dev.drawModes (n % (d.dnsOrder / 2 + 1)) d
      let good := all.filter (fun m => d.reported e m)
      let top := (sortBy (fun a b => leKey b.energy a.energy) good).take 64
      let (ms, nx) := d.trackModes e top d.dns.shown.modes
      let ms := sortBy (fun a b => F32.lt a.freq b.freq || (F32.eq a.freq b.freq && decide (a.track ≤ b.track))) ms
      { d with dns := { d.dns with trackNext := nx, pend := some { modes := ms, tick := t, epoch := d.tbu.epoch, excl := excl } } }

/-- A refresh is published (R235, R247). -/
def Dev.dnsPublish (d : Dev) : Dev :=
  match d.dns.pend with
  | none => d
  | some p =>
    if !d.dnsRuns then d
    else
      let d := { d with dns := { d.dns with pend := none, shown := p } }
      let d := (d.wrapAdd Reg.DNS_MT_SEQ 1).setReg Reg.DNS_MT_INFO (BitVec.ofNat 32 (p.modes.length + p.epoch * 65536))
      let d := (d.setReg Reg.DNS_MT_TICK_LO (lo32 (twos64 p.tick))).setReg Reg.DNS_MT_TICK_HI (hi32 (twos64 p.tick))
      (d.raise Reg.DNS_EVT 0).evalFlags p

/-! ### Forced oscillations (R236, R237, R240, Table 7.6) -/

/-- A candidate of an evaluation: bin, SNR, amplitude and strongest signal, which the periodograms give (log entry 12).
Candidates outside the band or under a limit of R236 are none. -/
def Dev.drawCands : Nat → Dev → List (Nat × Word × Word × Nat) × Dev
  | 0, d => ([], d)
  | n + 1, d =>
    let (b, d) := d.drawN 61
    let (s, d) := d.drawN 62
    let (a, d) := d.drawN 63
    let (g, d) := d.drawN 64
    let (k, d) := d.drawN 65
    let (rest, d) := Dev.drawCands n d
    let win := d.foWinS
    let ps := d.presentModal
    let ok := decide (2 ≤ b) && decide (win ≤ 100 * b) && decide (10 * b ≤ win * min 400 (4 * d.aRate))
      && F32.le (F32.ofInt (clampNat 6 40 (d.fld Reg.DNS_FO 16 8) : Nat)) (BitVec.ofNat 32 s)
      && decide (zeroActs 1 (d.fld Reg.DNS_FO 24 4) ≤ k) && decide (k ≤ ps.length)
      && !rest.any (fun c => decide (c.1 ≤ b + 1) && decide (b ≤ c.1 + 1))
    (if ok then (b, BitVec.ofNat 32 s, BitVec.ofNat 32 a, ps.getD (g % zeroActs 1 ps.length) 0) :: rest else rest, d)

/-- Whether a reported mode near a bin is damped below `FO_DAMP_MIN` (Table 7.6). -/
def Dev.lowDamped (bin : Nat) (d : Dev) : Bool :=
  let f := foFreq bin d.foWinS
  let bw := F32.ofFrac (zeroActs 1 (d.fld Reg.DNS_FO2 0 8) : Nat) 100
  let min_ := F32.ofFrac (d.fld Reg.DNS_FO2 8 8 : Nat) 10
  d.dns.shown.modes.any (fun m => F32.le (F32.abs (F32.sub m.freq f)) bw && F32.lt m.damp min_)

/-- A tracked entry at an evaluation (Table 7.6); none: the entry becomes empty. Answers whether `FO_CHANGE` is set. -/
def Dev.foStep (x : FoEntry) (c : Option (Nat × Word × Word × Nat)) (d : Dev) : Option FoEntry × Bool × Dev :=
  let age := min 65535 (x.age + 1)
  match c with
  | some (b, s, a, g) =>
    let y : FoEntry := { x with bin := b, snr := s, amp := a, strong := g, age := age }
    if x.st = 1 then
      if 3 ≤ x.run + 1 ∧ !d.lowDamped b then
        (some { y with st := 2, run := 0, id := d.dns.foNext, startUs := BitVec.ofInt 32 (d.tick / 1000) }, true,
          { d with dns := { d.dns with foNext := (d.dns.foNext + 1) % 65536 } })
      else (some { y with run := x.run + 1 }, false, d)
    else (some { y with st := 2 }, false, d)
  | none =>
    if x.st = 1 then (none, false, d)
    else if x.st = 2 then (some { x with st := 3, gone := 1, age := age }, false, d)
    else if 5 ≤ x.gone + 1 then (none, true, d)
    else (some { x with gone := x.gone + 1, age := age }, false, d)

/-- Branches used for an evaluation (R239). -/
def Dev.usedBranches (d : Dev) : List Nat :=
  let need := d.foWinS * d.aRate
  (branchesIn d.act).filter (fun b =>
    let h := KMap.getD d.dns.branches b []
    decide (need ≤ h.length) && decide (need * 9 ≤ (h.filter (fun x => x)).length * 10))

/-- Branches whose energy is counted since a commit that changed them, less than `FO_WIN_S` ago (R240). -/
def Dev.youngBranches (d : Dev) : List Nat :=
  (branchesIn d.act).filter (fun b => decide ((KMap.getD d.dns.branches b []).length < d.foWinS * d.aRate))

/-- Source location of an entry (R240): the energy-flow rates are given by the filters (log entry 12). -/
def Dev.locate (x : FoEntry) (d : Dev) : FoEntry × Dev :=
  if x.st = 1 then (x, d)
  else
    let (sd, d) := d.drawN 66
    let rate (b : Nat) : Word := Config.fn 66 [BitVec.ofNat 32 sd, BitVec.ofNat 32 b]
    let us := d.usedBranches.map (fun b => (b, rate b))
    let young := d.youngBranches.map (fun b => (b, rate b))
    let areas (b : Nat) : Nat × Nat := ((brW d.act b 0).field 4 4, (brW d.act b 0).field 8 4)
    let net (a : Nat) : Word :=
      let p := us.filter (fun u => (areas u.1).1 == a && (areas u.1).2 != a)
      let m := us.filter (fun u => (areas u.1).2 == a && (areas u.1).1 != a)
      F32.sub ((p.map (fun u => u.2)).foldl F32.add 0) ((m.map (fun u => u.2)).foldl F32.add 0)
    let best := us.foldl (fun (a : Option (Nat × Word)) u =>
      if !F32.lt 0 u.2 then a else match a with
        | some q => if F32.lt q.2 u.2 then some u else a
        | none => some u) none
    let pos := ((List.range 15).map (fun a => (a, net a))).filter (fun p => F32.lt 0 p.2)
    let top := pos.foldl (fun (a : Option (Nat × Word)) p => match a with
      | some q => if F32.lt q.2 p.2 then some p else a
      | none => some p) none
    let conf := match top with
      | some q =>
        let s := F64.sum (pos.map (fun p => p.2))
        if s ≤ 0 then 0 else (255 * F64.ofF32 q.2 / s).toNat
      | none => 0
    ({ x with seed := sd, used := us, young := young, srcBr := match best with | some q => q.1 | none => 65535,
              srcArea := top.map (fun q => q.1), srcNet := match top with | some q => q.2 | none => 0, srcConf := min 255 conf }, d)

/-- One evaluation (R236, R237). -/
def Dev.foEvaluate (d : Dev) : Dev :=
  if !d.dnsRuns || !d.idEn || !d.rbit Reg.DNS_CTRL 3 || decide (d.tick < d.dns.foDue) then d
  else
    let step : Nat := if d.dnsLevel = 3 then 2000000000 else 1000000000
    let d := { d with dns := { d.dns with foDue := d.dns.foDue + (step : Int) } }
    let (n, d) := d.drawN 60
    let (cs, d) := Dev.drawCands (n % (d.foWinS * min 400 (4 * d.aRate) / 10 + 1)) d
    let near (x : FoEntry) (c : Nat × Word × Word × Nat) : Bool := decide (c.1 ≤ x.bin + 1) && decide (x.bin ≤ c.1 + 1)
    let taken := cs.filter (fun c => d.dns.fo.any (fun p => near p.2 c))
    let (d, chg) := d.dns.fo.foldl (fun (a : Dev × Bool) p =>
      let (y, ch, e) := a.1.foStep p.2 (cs.find? (fun c => near p.2 c))
      let e := { e with dns := { e.dns with fo := match y with | some y => KMap.put e.dns.fo p.1 y | none => KMap.del e.dns.fo p.1 } }
      (e, a.2 || ch)) (d, false)
    let d := (cs.filter (fun c => !taken.contains c)).foldl (fun d c =>
      match (List.range 8).find? (fun e => !KMap.has d.dns.fo e) with
      | some e =>
        let x : FoEntry := { st := 1, bin := c.1, snr := c.2.1, amp := c.2.2.1, strong := c.2.2.2, age := 0, id := 0, startUs := 0,
                             run := 1, gone := 0, seed := 0, srcConf := 0, srcArea := none, srcBr := 65535, srcNet := 0, used := [], young := [] }
        { d with dns := { d.dns with fo := KMap.put d.dns.fo e x } }
      | none => d.bump Reg.DNS_FO_OVER 1) d
    let d := d.dns.fo.foldl (fun d p =>
      let (y, d) := d.locate p.2
      { d with dns := { d.dns with fo := KMap.put d.dns.fo p.1 y } }) d
    if chg then d.raise Reg.DNS_EVT 2 else d

/-! ### Coherency (R241 to R245) -/

/-- A signal's window less its mean: (sample number, degrees), oldest first. -/
abbrev Track := List (Nat × Word)

/-- Subtract the mean over the window (R242). -/
def centred (xs : Track) : Track :=
  match mean32 (xs.map (fun p => p.2)) with
  | some m => xs.map (fun p => (p.1, F32.sub p.2 m))
  | none => []

/-- The distance of two tracks over the samples where both are present (R242). -/
def trackDist (a b : Track) : Word :=
  let sq := a.filterMap (fun p => (b.find? (fun q => q.1 == p.1)).map (fun q =>
    let e := F32.sub p.2 q.2
    F32.mul e e))
  match mean32 sq with
  | some m => F64.toF32 (F64.sqrt (F64.ofF32 m))
  | none => F32.nan

/-- The centroid of some tracks: at each sample the mean over those present (R242). -/
def centroid (nums : List Nat) (ts : List Track) : Track :=
  nums.filterMap (fun n => (mean32 (ts.filterMap (fun t => (t.find? (fun p => p.1 == n)).map (fun p => p.2)))).map (fun m => (n, m)))

/-- A cluster: the group it was seeded from, and its members. -/
structure Cluster where
  seed : Option Nat
  mem  : List Nat

/-- The nearest of some centroids within a tolerance; ties go to the earlier. -/
def nearestC (tol : Word) (x : Track) (cs : List Track) : Option Nat :=
  (cs.zipIdx.foldl (fun (b : Option (Word × Nat)) c =>
    let e := trackDist x c.1
    if !F32.le e tol then b else match b with
      | some q => if F32.lt e q.1 then some (e, c.2) else b
      | none => some (e, c.2)) none).map (fun q => q.2)

/-- Open new clusters among the signals not assigned yet, ascending (R243). -/
def openClusters (tol : Word) (tr : Nat → Track) : Nat → List Nat → List Cluster
  | 0, _ => []
  | _, [] => []
  | n + 1, i :: rest =>
    let near := rest.filter (fun j => F32.le (trackDist (tr i) (tr j)) tol)
    { seed := none, mem := i :: near } :: openClusters tol tr n (rest.filter (fun j => !near.contains j))

/-- The clusters of a second (R243). -/
def clusters (tol : Word) (nums : List Nat) (tr : Nat → Track) (ps : List Nat) (labels : KMap Nat) : List Cluster :=
  let groups := sortBy (fun a b => decide (a ≤ b)) ((labels.map (fun p => p.2)).eraseDups)
  let cen (is : List Nat) : Track := centroid nums (is.map tr)
  let old := groups.filterMap (fun g =>
    let is := ps.filter (fun i => KMap.get? labels i == some g)
    if is.isEmpty then none else some (g, cen is))
  let seeded := old.map (fun g => (g.1, ps.filter (fun i =>
    match nearestC tol (tr i) (old.map (fun q => q.2)) with
    | some n => ((old.map (fun q => q.1)).getD n 0) == g.1
    | none => false)))
  let got := seeded.flatMap (fun g => g.2)
  let cs := (seeded.map (fun g => ({ seed := some g.1, mem := g.2 } : Cluster)))
    ++ openClusters tol tr (ps.length + 1) (ps.filter (fun i => !got.contains i))
  let cs := cs.filter (fun c => !c.mem.isEmpty)
  let cens := cs.map (fun c => cen c.mem)
  let dest (i : Nat) : Option Nat := (nearestC tol (tr i) cens).or ((cs.zipIdx.find? (fun c => c.1.mem.contains i)).map (fun c => c.2))
  cs.zipIdx.map (fun c => { c.1 with mem := ps.filter (fun i => dest i == some c.2) })

/-- Give the clusters their groups (R244): the labelled signals and how many clusters found none. -/
def labelClusters (pool : List Nat) (cs : List Cluster) : List (Nat × List Nat) × Nat :=
  let kept := cs.filterMap (fun c => c.seed.map (fun g => (g, c.mem)))
  let fresh := sortBy (fun (a b : Cluster) => decide (b.mem.length < a.mem.length) ||
    (a.mem.length == b.mem.length && decide (a.mem.headD 0 ≤ b.mem.headD 0))) (cs.filter (fun c => c.seed.isNone))
  fresh.foldl (fun acc c =>
    match pool.find? (fun g => !acc.1.any (fun p => p.1 == g)) with
    | some g => (acc.1 ++ [(g, c.mem)], acc.2)
    | none => (acc.1, acc.2 + 1)) (kept, 0)

/-- The coherency result of second S (R241 to R245), once the instants up to S are analysed: delivered no later than S + 900 ms
or discarded. -/
def Dev.coherency (d : Dev) : Dev :=
  let s := d.dns.cohSec + 1
  let win := clampNat 2 60 (d.fld Reg.DNS_COH 0 6)
  let late := decide (((s * 1000000000 + 900000000 : Nat) : Int) < d.tick)
  if !d.dnsRuns || !d.rbit Reg.DNS_CTRL 4 || decide (d.tick < (s * 1000000000 : Nat)) || (!late && decide (d.dns.m ≤ s * d.aRate)) then d
  else
    let d := { d with dns := { d.dns with cohSec := s } }
    if ((s : Int) - (win : Int)) * 1000000000 < d.dns.cohAt then d
    else if late then d.bump Reg.DNS_COH_LATE 1
    else
      let pin (i : Nat) : Bool := (vecEntry d.act i).testBit 9
      let is := (sigsWith d.act 2).filter (fun i => !pin i)
      let nums := (List.range (win * 10)).map (fun j => s * 10 + 1 - win * 10 + j)
      let raw (i : Nat) : Track := ((KMap.getD d.dns.angles i []).filter (fun p => nums.contains p.1)).reverse
      let need := min 100 (d.fld Reg.DNS_COH2 8 8) * win * 10
      let ps := is.filter (fun i => decide (need ≤ 100 * (raw i).length) && !(raw i).isEmpty)
      let tr (i : Nat) : Track := centred (raw i)
      let tol := F32.ofFrac (zeroActs 1 (d.fld Reg.DNS_COH 8 8) : Nat) 10
      let cs := (clusters tol nums tr ps d.dns.labels).filter (fun c =>
        decide (zeroActs 1 (d.fld Reg.DNS_COH2 0 8) ≤ c.mem.length))
      let lo := d.fld Reg.DNS_COH 16 8
      let hi := d.fld Reg.DNS_COH 24 8
      let pool := (List.range (hi + 1 - lo)).map (fun j => lo + j)
      let (lab, excess) := labelClusters pool cs
      let grp (i : Nat) : Option Nat := (lab.find? (fun p => p.2.contains i)).map (fun p => p.1)
      let labels := ps.foldl (fun (m : KMap Nat) i => match grp i with | some g => KMap.put m i g | none => m) []
      let d := d.bump Reg.DNS_COH_OVER excess
      let d := { d with dns := { d.dns with labels := labels, vec := some { sec := s, entries := ps.map (fun i => (i, grp i)) } } }
      let d := d.wrapAdd Reg.DNS_COH_SEQ 1
      (d.setReg Reg.DNS_COH_INFO (BitVec.ofNat 32 (lab.length + ps.length * 65536))).raise Reg.DNS_EVT 3

/-- The words shown in the windows of Tables 7.3 to 7.5, 7.7 and 7.8. -/
def Dev.modeShown (k w : Nat) (d : Dev) : Word :=
  match d.dns.shown.modes[k]? with
  | none => 0
  | some m =>
    match w with
    | 0 => BitVec.ofNat 32 (1 + (if m.isNew then 2 else 0) + m.track * 256 + m.conf * 65536)
    | 1 => m.freq
    | 2 => m.damp
    | 3 => m.zmag
    | 4 => m.zarg
    | 5 => m.ampAt ((modalSigs d.act).idxOf m.dom)
    | 6 => BitVec.ofNat 32 (m.dom + m.age * 65536)
    | _ => m.energy

/-- Words of a forced-oscillation entry. -/
def Dev.foShown (e w : Nat) (d : Dev) : Word :=
  match KMap.get? d.dns.fo e with
  | none => 0
  | some x =>
    match w with
    | 0 => BitVec.ofNat 32 (x.st + x.srcConf * 256 + (match x.srcArea with | some a => a * 65536 + 1048576 | none => 0))
    | 1 => foFreq x.bin d.foWinS
    | 2 => x.snr
    | 3 => x.amp
    | 4 => BitVec.ofNat 32 (x.strong + x.srcBr * 65536)
    | 5 => x.srcNet
    | 6 => BitVec.ofNat 32 (x.age + x.id * 65536)
    | _ => x.startUs

/-- Words of the shape window. -/
def Dev.shapeShown (k w : Nat) (d : Dev) : Word :=
  match (modalSigs d.act)[k]?, d.dns.shown.modes[d.fld Reg.DNS_SHAPE_SEL 0 6]? with
  | some i, some m =>
    let ex := d.dns.shown.excl.contains i
    let a : List Word := [BitVec.ofNat 32 m.seed, BitVec.ofNat 32 k]
    match w with
    | 0 => BitVec.ofNat 32 i
    | 1 => if ex then F32.nan else m.ampAt k
    | 2 => if ex then F32.nan else if i = m.dom then 0 else Config.fn 56 a
    | _ => Config.fn 57 a
  | some i, none => if w = 0 then BitVec.ofNat 32 i else 0
  | none, _ => 0

/-- Words 5 and 6 of a branch and 6 and 7 of a flag in the active view. -/
def Dev.branchShown (b w : Nat) (d : Dev) : Word :=
  match KMap.get? d.dns.fo (d.fld Reg.DNS_FO_SEL 0 3) with
  | none => 0
  | some x => match x.used.find? (fun u => u.1 == b) with
    | some u => if w = 5 then u.2 else 1
    | none => match x.young.find? (fun u => u.1 == b) with
      | some u => if w = 5 then u.2 else 0
      | none => 0

/-- Words 6 and 7 of a flag entry in the active view. -/
def Dev.flagShown (f w : Nat) (d : Dev) : Word :=
  let x := d.flagS f
  if !(flagW d.act f 0).bit 0 then 0
  else if w = 6 then BitVec.ofNat 32 x.cause
  else BitVec.ofNat 32 ((if d.flagVal f then 1 else 0) + (if d.dnsState ≠ 2 ∧ (flagW d.act f 0).field 1 3 ≠ 5 then 2 else 0)
    + x.pcount % 256 * 4 + x.dcount % 256 * 1024)

end Sys2Proof.Machine
end

