-- ==== Sys2Proof/Machine/FlgOps.lean ====
section
/-! DEFINITION. The operations of Filigree (11_filigree_mesh.md): the radio link port, the node table, channel access and
acknowledgement, held frames, contact, floods and end-to-end payloads. -/

namespace Sys2Proof.Machine

/-! ### The node table (Table 11.5) -/

/-- Word `w` of node `n` in a table. -/
def nodeW (t : SMap) (n w : Nat) : Word := SMap.get zeroW t (0x380000 + 64 * n + 4 * w)
/-- `EN`. -/
def nEn (t : SMap) (n : Nat) : Bool := (nodeW t n 0).bit 0
/-- `SLEEPY`. -/
def nSleepy (t : SMap) (n : Nat) : Bool := (nodeW t n 0).bit 1
/-- `KEY_SLOT`. -/
def nKey (t : SMap) (n : Nat) : Nat := (nodeW t n 0).field 8 8
/-- `EUI64`. -/
def nEui (t : SMap) (n : Nat) : Nat := (nodeW t n 1).toNat + (nodeW t n 2).toNat * 4294967296

/-- Enabled nodes of a table, ascending. -/
def nodesIn (t : SMap) : List Nat :=
  t.filterMap (fun p =>
    if 0x380000 ≤ p.1 ∧ p.1 < 0x3A0000 ∧ (p.1 - 0x380000) % 64 = 0 ∧ p.2.bit 0 = true then some ((p.1 - 0x380000) / 64)
    else none)

/-- The enabled node with an EUI-64. -/
def nodeByEui (t : SMap) (eui : Nat) : Option Nat := (nodesIn t).find? (fun n => nEui t n == eui)

/-- A node's status. -/
def Dev.flgNode (n : Nat) (d : Dev) : FlgNode := KMap.getD d.flg.nodes n FlgNode.new

/-- Store a node's status. -/
def Dev.putNode (n : Nat) (x : FlgNode) (d : Dev) : Dev := { d with flg := { d.flg with nodes := KMap.put d.flg.nodes n x } }

/-- Change a node's status. -/
def Dev.modNode (n : Nat) (f : FlgNode → FlgNode) (d : Dev) : Dev := d.putNode n (f (d.flgNode n))

/-- Set a node's `STATE`; a change sets its change bit and the event (R352, Table 11.10). -/
def Dev.setNodeState (n st : Nat) (d : Dev) : Dev :=
  if (d.flgNode n).st = st then d
  else
    let d := d.modNode n (fun x => { x with st := st })
    let off := Reg.FLG_NODE_CHG (n / 32)
    (d.setReg off ((d.reg off).setBit (n % 32) true)).raise Reg.FLG_EVT 0

/-! ### Settings -/

/-- `BCN_MS`. -/
def Dev.bcnMs (d : Dev) : Nat := clampNat 100 60000 (d.fld Reg.FLG_BCN 0 16)
/-- `ROLE` = 1. -/
def Dev.isRouter (d : Dev) : Bool := d.rbit Reg.FLG_CTRL 1
/-- The device's EUI-64. -/
def Dev.ownEui (d : Dev) : Nat := (d.reg Reg.FLG_EUI_LO).toNat + (d.reg Reg.FLG_EUI_HI).toNat * 4294967296
/-- The device's short address. -/
def Dev.ownShort (d : Dev) : Nat := if d.isRouter then d.flg.short else 0
/-- `RATE_KBPS`. -/
def Dev.rateKbps (d : Dev) : Nat := clampNat 50 400 (d.fld Reg.FLG_PHY 0 10)
/-- Octets of the hop MIC. -/
def Dev.micLen (d : Dev) : Nat := if d.rbit Reg.FLG_SEC 0 then 8 else 4
/-- The power-cycle count that every timing IE carries as the epoch. -/
def Dev.flgEpoch (d : Dev) : Nat := d.fld Reg.PWR_PCC 0 24
/-- Contact interval of a node in raw counts (Table 11.5). -/
def Dev.contactNs (n : Nat) (d : Dev) : Nat :=
  let p := (nodeW d.act n 0).field 16 16
  (if p = 0 then d.bcnMs else p * 100) * 1000000
/-- Time from the SFD to the end of a PSDU of `len` octets, in ns (R348). -/
def Dev.airNs (len : Nat) (d : Dev) : Nat := 8000000 * (2 + len) / d.rateKbps

/-- Filigree runs (R359): enabled, in RUN or DEGRADED, and its radio is not held in reset. -/
def Dev.flgOn (d : Dev) : Bool := d.rbit Reg.FLG_CTRL 0 && d.op.running
/-- The device may transmit. -/
def Dev.flgTxOn (d : Dev) : Bool := d.flgOn && d.flg.rst.isNone && !d.flg.ended

/-! ### Building frames (R336, R339, R340) -/

/-- The timing IE of a frame whose SFD is predicted at a tick. -/
def Dev.timingIe (tick : Int) (d : Dev) : TimingIe :=
  { tick := tick.toNat, nextMs := ((d.flg.nextBcn - tick) / 1000000).toNat, uncert := min 65535 (d.uncert / 100),
    depth := if d.isRouter then d.flg.depth else 0, orphan := decide (d.flg.up = 1), unlocked := decide (d.tbu.sync ≠ 2),
    permit := d.rbit Reg.FLG_CTRL 2, epoch := d.flgEpoch }

/-- The next hop counter; at 2^32 - 1 Filigree stops transmitting (R356). -/
def Dev.takeCtr (d : Dev) : Word × Dev :=
  let c := d.flg.ctr
  let d := { d with flg := { d.flg with ctr := c + 1 } }
  (BitVec.ofNat 32 c, if 4294967295 ≤ c + 1 then ({ d with flg := { d.flg with ended := true } }).raise Reg.FLG_EVT 3 else d)

/-- PSDU octets of a frame: headers, the IEs, payload, MIC and FCS. -/
def Dev.psduLen (kind payload : Nat) (mesh : Bool) (d : Dev) : Nat :=
  (if kind = 0 ∨ kind = 2 then 7 else 9) + 6 + 25 + (if mesh then 26 else 0) + 2 + payload + d.micLen + 4

/-- Octets of an end-to-end payload (Table 11.8). -/
def e2eOctets (e : E2e) : Nat := if e.typ = 1 then 28 + e.psize else if e.typ = 2 then 16 + e.data.length else 24

/-- A frame ready for channel access; its counter and sequence number are taken when it first goes on the air. -/
def Dev.mkFrame (kind dst : Nat) (mesh : Option MeshIe) (e : Option E2e) (pend : Bool) (arg : List Nat) (d : Dev) : RadioTx :=
  let payload := (match e with | some x => e2eOctets x | none => 0) + arg.length * 2
  { kind := kind, dst := dst, seq := 0, counter := 0, timing := none, mesh := mesh, e2e := e, pend := pend,
    arg := arg, pan := d.fld Reg.FLG_PAN 0 16, oui := d.fld Reg.FLG_IE_OUI 0 24, len := d.psduLen kind payload mesh.isSome }

/-- A frame that goes on the air for the first time takes its counter and sequence number; one sent again keeps them (R349). -/
def Dev.numberFrame (x : FlgTx) (d : Dev) : RadioTx × Dev :=
  if x.tries ≠ 0 then (x.f, d)
  else
    let (c, d) := d.takeCtr
    ({ x.f with counter := c, seq := d.flg.dsn }, { d with flg := { d.flg with dsn := (d.flg.dsn + 1) % 256 } })

/-! ### Channel access (R347) -/

/-- A back-off of a frame: a random number of units (the random values come from the key plate). -/
def Dev.backoff (x : FlgTx) (d : Dev) : FlgTx × Dev :=
  if !d.rbit Reg.FLG_LBT 0 then ({ x with due := d.raw, ready := true }, d)
  else
    let (r, d) := d.drawN 70
    ({ x with due := d.raw + r % 2 ^ x.be * zeroActs 1 (d.fld Reg.FLG_LBT2 0 16) * 1000, ready := true }, d)

/-- Put a frame on the air (R336): `RLP_TXGO` rises now, and the frame carries its predicted SFD time. -/
def Dev.radioGo (x : FlgTx) (d : Dev) : Dev :=
  let lat := d.fld Reg.FLG_RLP_TXLAT 0 24
  let (f, d) := d.numberFrame x
  let f := { f with timing := some (d.timingIe (d.tick + (lat : Int))) }
  let d := (d.emit (.radio f)).wrapAdd Reg.FLG_TX_FRAMES 1
  { d with flg := { d.flg with air := some { tx := { x with f := f }, pred := d.raw + lat, sfd := none } } }

/-- The next frame of the queue takes its turn: its back-off begins, or without listening it goes out at once. -/
def Dev.radioNext (d : Dev) : Dev :=
  if !d.flgTxOn || d.flg.air.isSome then d
  else
    match d.flg.queue with
    | [] => d
    | x :: rest =>
      if x.ready then d
      else
        let (y, d) := d.backoff { x with nb := 0, be := d.fld Reg.FLG_LBT 4 4 }
        if d.rbit Reg.FLG_LBT 0 then { d with flg := { d.flg with queue := y :: rest } }
        else ({ d with flg := { d.flg with queue := rest } }).radioGo y

/-- Queue a frame for channel access; while the transceiver is in reset it waits. -/
def Dev.radioSend (f : RadioTx) (uni : Bool) (node : Option Nat) (hdr : Option (CmdHdr × Nat)) (held : Option Nat) (d : Dev) : Dev :=
  if !d.flgOn || d.flg.ended then d
  else
    let x : FlgTx := { f := f, uni := uni, node := node, hdr := hdr, held := held, nb := 0, be := 0, due := 0, tries := 0,
                       ready := false }
    ({ d with flg := { d.flg with queue := d.flg.queue ++ [x] } }).radioNext

/-! ### The fate of a frame (R349, R351, R360, R361) -/

/-- A command that waits for a frame ends: reason 0 for `OK`. -/
def Dev.flgFinish (hdr : Option (CmdHdr × Nat)) (node : Option Nat) (reason : Nat) (d : Dev) : Dev :=
  match hdr with
  | none => d
  | some (h, code) =>
    if code = 0x91 then
      let d := match node with | some n => if (d.flgNode n).st = 2 then d.setNodeState n 1 else d | none => d
      d.complete h code 0 []
    else if reason = 0 then d.complete h code 0 []
    else d.complete h code 7 [BitVec.ofNat 32 0, BitVec.ofNat 32 0, BitVec.ofNat 32 reason]

/-- A frame leaves the pool (R351). -/
def Dev.unhold (id : Nat) (d : Dev) : Dev :=
  { d with flg := { d.flg with held := d.flg.held.filter (fun x => x.id != id) } }

/-- A frame's last word: it was acknowledged or sent (0), found no channel (1) or no acknowledgement (2). After an Association
Request that fails, the router may ask another device. -/
def Dev.txEnd (x : FlgTx) (reason : Nat) (d : Dev) : Dev :=
  let d := match x.held with | some i => d.unhold i | none => d
  let d := if x.f.kind = 5 ∧ reason ≠ 0 then { d with flg := { d.flg with cand := none } } else d
  d.flgFinish x.hdr x.node reason

/-- No acknowledgement came (R349): the same frame again, or failure. -/
def Dev.noAck (x : FlgTx) (d : Dev) : Dev :=
  if x.uni && decide (x.tries < d.fld Reg.FLG_ACK 29 3) then
    let y : FlgTx := { x with tries := x.tries + 1, ready := false }
    ({ d with flg := { d.flg with queue := y :: d.flg.queue } }).radioNext
  else
    let d := if x.uni then d.bump Reg.FLG_NOACK 1 else d
    (d.txEnd x (if x.uni then 2 else 0)).radioNext

/-! ### Held frames (R350) -/

/-- Frames held for a node. -/
def Dev.heldFor (n : Nat) (d : Dev) : List FlgHeld := d.flg.held.filter (fun x => x.node == n)

/-- Whether the pool takes another frame for a node. -/
def Dev.canHold (n : Nat) (d : Dev) : Bool := decide ((d.heldFor n).length < 4) && decide (d.flg.held.length < 512)

/-- Hold a frame for a node, or discard it and count it. -/
def Dev.hold (n : Nat) (up : Bool) (f : RadioTx) (hdr : Option (CmdHdr × Nat)) (d : Dev) : Dev :=
  if d.canHold n then
    let life := if up then 3 * d.bcnMs * 1000000 else 3 * d.contactNs n
    let x : FlgHeld := { id := d.flg.heldNext, node := n, up := up, f := f, due := d.raw + life, hdr := hdr, sent := false }
    { d with flg := { d.flg with held := d.flg.held ++ [x], heldNext := d.flg.heldNext + 1 } }
  else
    (d.modNode n (fun x => { x with bufDrop := min 65535 (x.bufDrop + 1) })).bump Reg.FLG_BUF_DROP 1

/-- Discard held frames of a node with a reason for the commands that wait. -/
def Dev.dropHeld (n reason : Nat) (count : Bool) (d : Dev) : Dev :=
  (d.heldFor n).foldl (fun d x =>
    let d := (d.unhold x.id).flgFinish x.hdr (some n) reason
    if count then (d.modNode n (fun y => { y with bufDrop := min 65535 (y.bufDrop + 1) })).bump Reg.FLG_BUF_DROP 1 else d) d

/-- The short address the device gives a node (R345). -/
def shortOf (n : Nat) : Nat := 0x1000 + n

/-- Send to a direct child by unicast: held when it is sleepy (R350). -/
def Dev.toChild (n kind : Nat) (mesh : Option MeshIe) (e : Option E2e) (arg : List Nat) (hdr : Option (CmdHdr × Nat)) (d : Dev) : Dev :=
  let f := d.mkFrame kind (shortOf n) mesh e false arg
  if nSleepy d.act n then d.hold n false f hdr else d.radioSend f true (some n) hdr none

/-- Send a broadcast data frame (a flood) now; it enters the seen cache (R354). -/
def Dev.seenAdd (origin seq : Nat) (d : Dev) : Dev :=
  let life := zeroActs 1 (d.fld Reg.FLG_FLOOD 8 8) * 1000000000
  let (old, d) := if 256 ≤ d.flg.seen.length then (d.flg.seen.drop 1, d.bump Reg.FLG_SEEN_EVICT 1) else (d.flg.seen, d)
  { d with flg := { d.flg with seen := old ++ [(origin, seq, d.raw + life)] } }

/-- The device's own flood to a destination. -/
def Dev.ownFlood (dest : Nat) (e : E2e) (hdr : Option (CmdHdr × Nat)) (d : Dev) : Dev :=
  let seq := d.flg.floodSeq
  let d := { d with flg := { d.flg with floodSeq := (seq + 1) % 65536 } }
  let m : MeshIe := { origin := d.ownEui, dest := dest, ttl := zeroActs 1 (d.fld Reg.FLG_FLOOD 0 4), flood := true, up := false,
                      seq := seq }
  let f := d.mkFrame 1 0xFFFF (some m) (some e) false []
  (d.seenAdd d.ownEui seq).radioSend f false none hdr none

/-- Send a data frame upward to the parent; in orphan search it is held for its node (R350, R354). -/
def Dev.sendUp (n : Nat) (m : MeshIe) (e : E2e) (d : Dev) : Dev :=
  let f := d.mkFrame 1 d.flg.parent (some { m with up := true }) (some e) false []
  if d.flg.up = 1 then d.hold n true f none else d.radioSend f true none none none

/-! ### Radio link faults (R337) -/

/-- A radio link fault with its cause: the transceiver is reset for 1 ms. -/
def Dev.rlpFault (cause status : Nat) (d : Dev) : Dev :=
  let d := (d.bump Reg.FLG_RLP_FAULTS 1).raise Reg.FLG_EVT 2
  let d := d.post 0x0017 [BitVec.ofNat 32 cause, BitVec.ofNat 32 status, d.reg Reg.FLG_RLP_FAULTS, 0]
  let air := d.flg.air
  let d := ({ d with flg := { d.flg with air := none, ackPred := none, rst := some (d.raw + 1000000) } }).emit (.rlpReset true)
  match air with
  | some a => d.noAck a.tx
  | none => d

/-- `CONFIG` and `RX_ON` (Table 11.2). -/
def Dev.rlpConfig (d : Dev) : Dev :=
  let d := d.emit (.rlpCmd 0x10 [d.fld Reg.FLG_PAN 16 16, d.rateKbps, zeroActs 4 (d.fld Reg.FLG_PHY 16 4), d.fld Reg.FLG_PHY 20 8])
  d.emit (.rlpCmd 0x20 [])

/-! ### Contact and association (R344 to R346, R352) -/

/-- An accepted frame carries a node's contact. -/
def Dev.contact (n : Nat) (d : Dev) : Dev :=
  let us := BitVec.ofInt 32 ((d.tick - ((d.raw : Int) - (d.flg.sfd : Int))) / 1000)
  d.modNode n (fun x => { x with heardUs := us, heardRaw := d.flg.sfd })

/-- A node associates, direct or behind a router. -/
def Dev.associate (n : Nat) (direct : Bool) (parent depth : Nat) (d : Dev) : Dev :=
  let x := d.flgNode n
  let again := x.st = 2 ∨ x.st = 3 ∨ x.joined = true
  let d := d.putNode n { x with direct := direct, parent := parent, depth := depth, joined := true,
                                rejoins := if again then (x.rejoins + 1) % 65536 else x.rejoins }
  (d.setNodeState n 2).contact n

/-- Orphan search begins (R353). -/
def Dev.orphan (d : Dev) : Dev :=
  let was := d.flg.depth
  let d := { d with flg := { d.flg with up := 1, missed := 0, expect := none, cand := none } }
  (d.raise Reg.FLG_EVT 1).post 0x0018 [BitVec.ofNat 32 was, lo32 d.flg.upEui, hi32 d.flg.upEui, 0]

/-- The router joins: held upward frames go out in the order they were held (R353). -/
def Dev.joinUp (short depth parent eui : Nat) (d : Dev) : Dev :=
  let d := { d with flg := { d.flg with up := 2, short := short, depth := depth, parent := parent, upEui := eui, cand := none,
                                        missed := 0 } }
  let ups := d.flg.held.filter (fun x => x.up)
  let d := d.raise Reg.FLG_EVT 1
  ups.foldl (fun d x => d.radioSend { x.f with dst := parent } true none x.hdr (some x.id)) d

/-- Filigree starts with the data plane (R359). -/
def Dev.flgStart (d : Dev) : Dev :=
  if !d.rbit Reg.FLG_CTRL 0 then d
  else
    let bcn := d.bcnMs * 1000000
    let nb := ((d.tick / (bcn : Int)) + 1) * (bcn : Int)
    let d := { d with flg := { d.flg with nextBcn := nb, nodes := d.flg.nodes.map (fun (p : Nat × FlgNode) => (p.1, { p.2 with heardRaw := d.raw })) } }
    let d := d.rlpConfig
    if d.isRouter then d.orphan else { d with flg := { d.flg with up := 0 } }

/-- Filigree stops: the transceiver is idle and held frames are discarded (R359). -/
def Dev.flgStop (d : Dev) : Dev :=
  let d := d.flg.held.foldl (fun d x => d.flgFinish x.hdr (some x.node) 3) d
  let d := (d.flg.queue ++ (match d.flg.air with | some a => [a.tx] | none => [])).foldl (fun d x => d.flgFinish x.hdr x.node 3) d
  let d := { d with flg := { d.flg with queue := [], air := none, ackPred := none, acks := [], held := [], relay := [] } }
  if d.rbit Reg.FLG_CTRL 0 then d.emit (.rlpCmd 0x21 []) else d

/-! ### End-to-end payloads (R357, R358) -/

/-- An origin's payload is a repeat or a replay. -/
def Dev.nodeReplay (n : Nat) (d : Dev) : Dev :=
  (d.modNode n (fun x => { x with replays := min 65535 (x.replays + 1) })).bump Reg.FLG_REPLAY 1

/-- A repeat of a node's frame. -/
def Dev.nodeRepeat (n : Nat) (d : Dev) : Dev :=
  (d.modNode n (fun x => { x with repeats := min 65535 (x.repeats + 1) })).bump Reg.FLG_REPEAT 1

/-- A frame or payload that is not secured as it should be is counted, also for its node when that is known (R339). -/
def Dev.nodeMicFail (reg : Nat) (n : Option Nat) (d : Dev) : Dev :=
  let d := d.bump reg 1
  match n with
  | some n => d.modNode n (fun x => { x with micFail := min 65535 (x.micFail + 1) })
  | none => d

/-- A report reaches its kind 4 stream's tile (R358). -/
def Dev.meshReport (n : Nat) (e : E2e) (d : Dev) : Dev :=
  let ent (i : Nat) : List Word := d.entryAt i (e.tick : Nat)
  match d.streamIdx.find? (fun i => eValid (ent i) && eKind (ent i) == 4 && eId (ent i) == n), e.pay with
  | some i, some p =>
    if (d.frameHome i e.tick 1000000000).isNone then d.bump Reg.EAS_UNHOMED_DROP 1
    else if e.psize ≠ ePayload (ent i) then d.streamFail i 1
    else
      let good := decide (e.stat.toNat / 16384 = 0)
      let v (x : Val) : Val := { x with ok := x.ok && good && !F32.isNaN x.bits }
      let q : Payload := {
        freq := v p.freq, dfreq := v p.dfreq, ph := p.ph.map (fun a => (v a.1, v a.2)), an := p.an.map v,
        dg := p.dg.map (fun w => { w with ok := w.ok && good }) }
      let c := (qualCodes d.tbu.sync (d.uncert + d.fld Reg.FLG_SYNC 0 16 * 1000)).1
      let mtq := if d.offsetValid then c else max c 0xB
      let d := d.streamAccept i
      let d := if e.stat.toNat.testBit 10 then d.streamCfgChange i else d
      d.toTile { idx := i, rev := 0, num := e.tick, den := 1000000000, stat := e.stat, mtq := mtq, pay := q, arrNs := d.tick,
                 arrRaw := d.raw }
  | _, _ => d.bump Reg.STM_NOMATCH 1

/-- A host payload goes to its spill queue (R358). -/
def Dev.meshHost (n : Nat) (e : E2e) (d : Dev) : Dev :=
  if !d.rbit Reg.FLG_CTRL 3 then d
  else
    let tick := d.tick - ((d.raw : Int) - (d.flg.sfd : Int))
    let len := e.data.length
    let pad := e.data ++ List.replicate ((4 - len % 4) % 4) 0
    let ws := (List.range (pad.length / 4)).map (fun j => BitVec.ofNat 32 (leNat ((pad.drop (4 * j)).take 4)))
    let (ok, d) := d.spqAppend (d.fld Reg.FLG_CTRL 8 6) 6 ([BitVec.ofNat 32 (n + len * 65536), 0] ++ tickWords tick ++ ws)
    if ok then d else d.bump Reg.FLG_HOST_DROP 1

/-- Deliver an end-to-end payload of an origin, by the checks of R358 in order. -/
def Dev.deliver (m : MeshIe) (e : E2e) (d : Dev) : Dev :=
  match nodeByEui d.act m.origin with
  | none => d.bump Reg.FLG_DENIED 1
  | some n =>
    if e.epoch ≠ d.flgEpoch then d.nodeReplay n
    else if !e.micOk then d.nodeMicFail Reg.FLG_MIC_FAIL (some n)
    else
      let last := (d.flgNode n).lastRc
      if e.rc.toNat < last.toNat then d.nodeReplay n
      else if e.rc = last then d.nodeRepeat n
      else
        let d := (d.modNode n (fun x => { x with lastRc := e.rc }))
        let d := if (d.flgNode n).direct then d else d.contact n
        match e.typ with
        | 1 => d.meshReport n e
        | 2 => d.meshHost n e
        | 3 =>
          if d.isRouter then d
          else
            match nodeByEui d.act e.child with
            | some c => d.associate c false n ((d.flgNode n).depth + 1)
            | none => d
        | _ => d

/-! ### Received frames (R338, R339, R348, R351, R353 to R355) -/

/-- A flood has been received (R354). -/
def Dev.floodIn (m : MeshIe) (e : E2e) (d : Dev) : Dev :=
  if d.flg.seen.any (fun s => s.1 == m.origin && s.2.1 == m.seq) then d.bump Reg.FLG_FLOOD_DUP 1
  else
    let d := d.seenAdd m.origin m.seq
    let own := m.dest = d.ownEui
    let all := m.dest = 2 ^ 64 - 1
    let d := if own ∨ all then d.deliver m e else d
    let child := (nodeByEui d.act m.dest).filter (fun n => (d.flgNode n).direct && (d.flgNode n).st == 2 && nSleepy d.act n)
    match child with
    | some n => d.toChild n 1 (some { m with flood := false }) (some e) [] none
    | none =>
      if 1 < m.ttl ∧ ¬ own then
        let (r, d) := d.drawN 71
        let wait := r % 2 ^ d.fld Reg.FLG_LBT 4 4 * zeroActs 1 (d.fld Reg.FLG_LBT2 0 16) * 1000
        let f := d.mkFrame 1 0xFFFF (some { m with ttl := m.ttl - 1 }) (some e) false []
        { d with flg := { d.flg with relay := d.flg.relay ++ [(d.raw + wait, f)] } }
      else if own ∨ all then d
      else d.bump Reg.FLG_TTL_DROP 1

/-- A data frame that is no flood: it goes up the tree, down to a child, or is for this device (R353, R354). -/
def Dev.meshData (from_ : Option Nat) (m : MeshIe) (e : E2e) (d : Dev) : Dev :=
  if m.up then
    if !d.isRouter then d.deliver m e
    else
      let n := (nodeByEui d.act m.origin).or from_
      let d := if d.flg.up = 1 ∧ e.typ = 1 then d.deliver m e else d
      d.sendUp (n.getD 0) m e
  else if m.dest = d.ownEui then d.deliver m e
  else
    match (nodeByEui d.act m.dest).filter (fun n => (d.flgNode n).direct) with
    | some n => d.toChild n 1 (some m) (some e) [] none
    | none =>
      let f := d.mkFrame 1 0xFFFF (some { m with flood := true }) (some e) false []
      (d.seenAdd m.origin m.seq).radioSend f false none none none

/-- An Association Request (R345, R346). -/
def Dev.assocReq (eui : Nat) (src : Nat) (d : Dev) : Dev :=
  match nodeByEui d.act eui, d.rbit Reg.FLG_CTRL 2 with
  | some n, true =>
    let f := d.mkFrame 3 src none none false [shortOf n, 0]
    let d := d.radioSend f true (some n) none none
    let d := d.associate n true 65535 ((if d.isRouter then d.flg.depth else 0) + 1)
    if !d.isRouter then d
    else
      let rc := d.flg.rcOut + 1
      let d := { d with flg := { d.flg with rcOut := rc } }
      let e : E2e := { typ := 3, epoch := d.flgEpoch, rc := BitVec.ofNat 32 rc, micOk := true, tick := 0, stat := 0, pay := none,
                       psize := 0, data := [], child := eui, depth := d.flg.depth }
      d.sendUp n { origin := d.ownEui, dest := d.flg.upEui, ttl := zeroActs 1 (d.fld Reg.FLG_FLOOD 0 4), flood := false, up := true,
                   seq := 0 } e
  | _, _ =>
    let f := d.mkFrame 3 src none none false [0xFFFF, 2]
    (d.bump Reg.FLG_DENIED 1).radioSend f true none none none

/-- An Enh-Ack is due for a received frame (R348). -/
def Dev.ackLater (f : FlgFrame) (pend : Bool) (d : Dev) : Dev :=
  if !f.ackReq then d
  else
    let due := d.flg.sfd + d.airNs f.len + clampNat 100 10000 (d.fld Reg.FLG_ACK 0 14) * 1000
    { d with flg := { d.flg with acks := d.flg.acks ++ [(due, f.src, f.seq, pend)] } }

/-- The oldest held frame of a node is sent (R351). -/
def Dev.sendHeld (n : Nat) (d : Dev) : Dev :=
  match (d.heldFor n).find? (fun x => !x.sent && !x.up) with
  | none => d
  | some x =>
    let more := decide (1 < ((d.heldFor n).filter (fun y => !y.sent && !y.up)).length)
    let d := { d with flg := { d.flg with held := d.flg.held.map (fun (y : FlgHeld) => if y.id = x.id then { y with sent := true } else y) } }
    d.radioSend { x.f with pend := more } true (some n) x.hdr (some x.id)

/-- The parent's timing IE resynchronises the device (R353). -/
def Dev.resync (t : TimingIe) (d : Dev) : Dev :=
  { d with flg := { d.flg with expect := some (d.flg.sfd + t.nextMs * 1000000), missed := 0 } }

/-- The frame the device waits for has been acknowledged (R349, R351). -/
def Dev.acked (seq : Nat) (d : Dev) : Dev :=
  match d.flg.air with
  | some a =>
    if a.tx.uni && a.tx.f.seq == seq then
      (({ d with flg := { d.flg with air := none } }).txEnd a.tx 0).radioNext
    else d
  | none => d

/-- What an accepted frame does by its type; `n` is the node it comes from. -/
def Dev.flgByType (f : FlgFrame) (n : Option Nat) (d : Dev) : Dev :=
  match f.body with
  | .beacon =>
    match d.flg.cand, f.timing with
    | some (p, _), some t =>
      if d.isRouter && d.flg.up == 1 && p == f.src && t.permit && decide (t.depth ≤ 14) &&
          !((d.flg.queue ++ (d.flg.air.map (fun a => a.tx)).toList).any (fun x => x.f.kind == 5)) then
        (d.mkFrame 5 f.src none none false []) |> fun r => d.radioSend r true none none none
      else d
    | _, _ => d
  | .data m e => if m.flood then d.floodIn m e else d.meshData n m e
  | .enhAck _ seq => d.acked seq
  | .assocReq eui => d.assocReq eui f.src
  | .assocResp short ok eui =>
    match d.flg.cand with
    | some (p, depth) => if ok && d.isRouter then d.joinUp short (depth + 1) p eui else { d with flg := { d.flg with cand := none } }
    | none => d
  | .disassoc =>
    match n with
    | some n => (d.setNodeState n 1).dropHeld n 4 true
    | none => if d.flg.up = 2 then d.orphan else d
  | .dataReq => match n with | some n => d.sendHeld n | none => d
  | .unsupported => d

/-- The node a frame comes from: the sender of a short address this device gave, or of an Association Request. -/
def Dev.frameNode (f : FlgFrame) (d : Dev) : Option Nat :=
  match f.body with
  | .assocReq eui => nodeByEui d.act eui
  | _ =>
    if 0x1000 ≤ f.src ∧ f.src < 0x1800 then
      let n := f.src - 0x1000
      if nEn d.act n && (d.flgNode n).direct && ((d.flgNode n).st == 2 || (d.flgNode n).st == 3) then some n else none
    else none

/-- Whether a frame comes from the parent, or from the device the router has asked to join. -/
def Dev.fromParent (f : FlgFrame) (d : Dev) : Bool :=
  d.isRouter && ((d.flg.up == 2 && d.flg.parent == f.src) || (match d.flg.cand with | some (p, _) => p == f.src | none => false))

/-- A frame has been read from the transceiver (R337 to R339, R355). -/
def Dev.flgReceive (f : FlgFrame) (d : Dev) : Dev :=
  if !d.flgOn || d.flg.rst.isSome then d
  else if f.statusByte / 16 ≠ 1 then d.rlpFault 2 f.statusByte
  else if f.statusByte.testBit 2 then d.rlpFault 3 f.statusByte
  else if f.version ≠ 2 ∨ f.body = .unsupported ∨ 6 < f.level then d.bump Reg.FLG_RX_UNSUP 1
  else if f.pan ≠ d.fld Reg.FLG_PAN 0 16 ∨ (f.dst ≠ d.ownShort ∧ f.dst ≠ 0xFFFF) then d
  else
    let n := d.frameNode f
    let par := d.fromParent f
    if f.level < 5 + d.fld Reg.FLG_SEC 0 1 ∨ f.keyIndex ≠ d.fld Reg.FLG_SEC 16 8 then d.nodeMicFail Reg.FLG_INSECURE n
    else if !f.micOk then d.nodeMicFail Reg.FLG_MIC_FAIL n
    else if n.isNone && !par then
      match f.body, f.timing with
      | .beacon, some t =>
        if d.isRouter && d.flg.up == 1 && d.flg.cand.isNone && decide (t.depth ≤ 14) && t.permit then
          let d := { d with flg := { d.flg with cand := some (f.src, t.depth), upFc := f.counter } }
          let r := d.mkFrame 5 f.src none none false []
          d.radioSend r true none none none
        else d.bump Reg.FLG_DENIED 1
      | .assocReq eui, _ => d.assocReq eui f.src
      | _, _ => d.bump Reg.FLG_DENIED 1
    else
      let last := match n with | some n => (d.flgNode n).lastFc | none => d.flg.upFc
      let pend := match f.body, n with
        | .dataReq, some n => !((d.heldFor n).filter (fun y => !y.up)).isEmpty
        | _, _ => false
      if f.counter.toNat < last.toNat then
        match n with | some n => d.nodeReplay n | none => d.bump Reg.FLG_REPLAY 1
      else if f.counter = last then
        (match n with | some n => d.nodeRepeat n | none => d.bump Reg.FLG_REPEAT 1).ackLater f pend
      else
        let d := d.wrapAdd Reg.FLG_RX_FRAMES 1
        let d := match n with
          | some n => (d.modNode n (fun x => { x with lastFc := f.counter, rssi := f.rssi, lqi := f.lqi })).contact n
          | none => { d with flg := { d.flg with upFc := f.counter } }
        let d := match par, f.timing with | true, some t => d.resync t | _, _ => d
        (d.ackLater f pend).flgByType f n

/-! ### Words shown -/

/-- Status words 8 to 15 of a node in the active view. -/
def Dev.nodeShown (n w : Nat) (d : Dev) : Word :=
  if !nEn d.act n then 0
  else
    let x := d.flgNode n
    match w with
    | 8 => BitVec.ofNat 32 (x.st + (if x.direct then 8 else 0) + x.depth % 16 * 16 + (d.heldFor n).length % 8 * 256
        + (if x.direct then shortOf n else 0xFFFE) * 65536)
    | 9 => BitVec.ofNat 32 (x.parent + (x.rssi % 256).toNat * 65536 + x.lqi % 256 * 16777216)
    | 10 => x.lastFc
    | 11 => x.lastRc
    | 12 => x.heardUs
    | 13 => BitVec.ofNat 32 (x.rejoins + x.replays * 65536)
    | 14 => BitVec.ofNat 32 (x.repeats + x.micFail * 65536)
    | 15 => BitVec.ofNat 32 x.bufDrop
    | _ => 0

/-- `FLG_UP_INFO`. -/
def Dev.upInfo (d : Dev) : Word := BitVec.ofNat 32 (d.flg.up + d.flg.depth % 16 * 4 + d.flg.short * 65536)

/-- `FLG_NODES`. -/
def Dev.flgNodes (d : Dev) : Word :=
  let en := (nodesIn d.act).map (fun n => d.flgNode n)
  BitVec.ofNat 32 ((en.filter (fun x => x.st == 2)).length + (en.filter (fun x => x.st == 2 && x.direct)).length * 65536)

end Sys2Proof.Machine
end

