-- ==== Sys2Proof/Machine/State.lean ====
section
/-! DEFINITION. The machine's state: what is fused at manufacture, non-volatile memory, the backup domain, the main
domain, and the queue of waiting commands; its faults and refusals; and the state after reset. -/

namespace Sys2Proof.Machine

/-- Faults. No command of this block faults: the spec gives every one an effect in every state. -/
inductive Fault where
  /-- Raised by no command (safe: a run never ends in it). -/
  | none
  deriving DecidableEq, Repr

/-- Refusals. -/
inductive Refusal where
  /-- A command without a meaning; raised by `exec` only (safe: a run stops). -/
  | notModelled (mnemonic : String)
  deriving DecidableEq, Repr

/-- The machine. -/
structure State where
  fuse    : Fuse
  nv      : Nv
  bd      : Bd
  dev     : Dev
  pending : List Instr
  deriving DecidableEq, Repr

/-- What a meaning answers. -/
abbrev Out := Host.Outcome State Fault Refusal

/-! ### Reset -/

/-- The device of the reset state (log entry 2). -/
def Fuse.default : Fuse :=
  { part := .aq9124, serial := 0x4E41000000000001, lot := 0, die := 0, mac := 0x00AA00000001, eui := 0x00AA00FFFE000001 }

/-- An empty partition. -/
def Partition.empty : Partition := { recs := [], next := 1, oldest := 1, slot := 0, bad := [] }

/-- Non-volatile memory as delivered (log entry 2). -/
def Nv.fresh : Nv :=
  { pcc := 0, lc := .blank, updCtr := 0, authKey := none, debugNext := false, helperOk := true, vaultGen := 0, importCtr := 0,
    bootSvn := 0, certLen := 0, store := [], gens := [], gen := Partition.empty, sec := Partition.empty, digest := 0,
    wrapped := false, hopCtr := 0 }

/-- The backup domain after its own power-on (Table 13.15: `TMP_SRC_EN` 8). -/
def Bd.fresh : Bd :=
  { root := none, journal := [], causes := 0, count := 0, backup := false, time := 0, logged := false, pcc := 0,
    rtcNs := 0, holdup := false, srcEn := 8, onVbat := false }

/-- The main domain after a power-on reset, in BOOT (R9, R441). -/
def Dev.por : Dev :=
  { op := .boot, reason := 0, deg := 0, raw := 0, regs := [], stg := [], act := [], latch := [], free := 0, out := [],
    host := { link := true, polling := false, polls := 0, kicked := false, nextPoll := 0, fetched := [], unmasked := [],
              pendBits := [], coal := [], ringSent := [], turn := 0, stopping := none }
    spq := []
    plg := { stage := [], stalled := [], drops := 0, overflow := false, buckets := [], cursorLost := false, lastAnchor := 0,
             cycle := 0, run := 0 }
    key := { plate := [], grace := [], install := [], waiting := [], rngFail := false, rngRuns := 0, attestOk := false, pub := 0,
             measure := 0, lost := 0, debug := false, debugged := false }
    anl := { step := 0, p2 := [], holdup := false, lastStep := 0, lastTherm := 0, overSince := none, warnEp := false,
             tripEp := false, unmetEp := false, readings := [], pendCap := [], p5wait := [] }
    pwr := { resMv := 0, vinMv := 0, vinLow := none, check := none, ovEp := false, bleed := false, thermLo := false }
    mgmt := { restart := false, lastWdt := none, wdtPosts := 0 }
    tbu := { anchor := 0, anchorRaw := 0, rate := 0, freq := 0, err := 0, errRaw := 0, sync := 0, everLock := false, src := 0,
             ptpPort := 0, slewing := false, disagree := false, uLock := 0, lastAcc := 0, hist := [], srcs := [], ptp := [],
             armed := true, stepDue := [], epoch := 0, stepTimes := [], leapSrc := 0, leapDay := 0, leapOccur := none, leapAt := none,
             nextSlot := [], nextPre := [], tevs := [], pins := [], pps := none, ppsSec := none, lastRtc := 0 }
    net := { ports := [], nodesA := [], nodesB := [], seqA := 0, seqB := 0, hostTx := [], nextTx := 0 }
    stm := { pend := none, prev := [], fails := [], lastRx := [], svSeen := [], nmStart := 0, nmCount := 0, prevOut := [],
             inst := 0 }
    eas := { tiles := [], homes := [], unhomed := [], moved := [], spill := [], gap := [], sets := [], highest := [], cells := [],
             arch := [] }
    phx := { chans := [], failed := [], kat := [], round := 0, allP2 := false }
    sfl := { rules := [], sets := [], passes := [], prevTab := [], inst := 0, changed := [], pend := none, laneA := true,
             laneB := true, katRun := [], invert := false, disagree := none, trans := [], testing := [], tevHold := [],
             msg := none, msgAt := 0, nextTx := 0, interval := 0, hostDrop := 0, supply := false, alms := [] }
    pub := { chains := [], delayed := [], rgCount := 0, withdrawn := false, kat := false }
    brz := { tx := [], peers := [], last := (false, 65535), pending := none, alarmSeq := (0, 0), nextRto := 0, role := 0,
             cause := 0, causes := [], giveUp := false, swap := [], partner := none, since := none, cmps := [],
             checkDue := none, trans := [], mirror := none, reqAt := 0, t1 := none, delay := 0,
             upUncert := 0, nextHb := 0, nextTwin := 0, wasLock := false, syncAt := [] }
    sht := { groups := [], caps := [], evs := [], delays := [], fresh := [], p4shed := false }
    swg := { ctxs := [], last := 4, fails := [], count := 0 }
    dns := { failed := [], kat := [], anlLevel := 0, level := 0, warming := false, paused := none, idAt := 0, cohAt := 0, m := 0,
             count := 0, sigs := [], branches := [], angles := [], empty := false, refresh := 0, trackNext := 0,
             shown := { modes := [], tick := 0, epoch := 0, excl := [] }, pend := none, fo := [], foNext := 0, foDue := 0,
             cohSec := 0, labels := [], vec := none, flags := [] }
    flg := { nodes := [], ctr := 0, dsn := 0, rcOut := 0, floodSeq := 0, queue := [], air := none, acks := [], ackPred := none, held := [],
             heldNext := 0, seen := [], relay := [], up := 0, depth := 0, short := 0, parent := 0, upEui := 0, upFc := 0,
             cand := none, nextBcn := 0, expect := none, missed := 0, sfd := 0, rst := none, ended := false } }

/-- The main domain as a pass through BOOT begins (R2, R356, R444, R465, R487): power-cycle count `pcc`, cause of Table
14.7, first hop counter `ctr`, and what the debug rules of R423 give. -/
def Dev.atBoot (fz : Fuse) (pcc cause ctr : Nat) (debug debugged : Bool) : Dev :=
  let d := Dev.por
  let d := (d.setReg Reg.PWR_PCC (BitVec.ofNat 32 pcc)).setReg Reg.PWR_STATUS (if 0xFFFFFF ≤ pcc then 33 else 1)
  let d := (d.setReg Reg.RST_CAUSE (BitVec.ofNat 32 cause)).setReg Reg.CLK_STATUS 3
  let d := [0, 1, 2, 3].foldl (fun (e : Dev) n =>
    (e.setReg (Reg.NET_MAC_LO n) (lo32 (fz.mac + n))).setReg (Reg.NET_MAC_HI n) (BitVec.ofNat 32 ((fz.mac + n) / 4294967296 % 65536))) d
  let d := if fz.part.hasFlg then (d.setReg Reg.FLG_EUI_LO (lo32 fz.eui)).setReg Reg.FLG_EUI_HI (hi32 fz.eui) else d
  { d with flg := { d.flg with ctr := ctr }, key := { d.key with debug := debug, debugged := debugged } }

/-- The machine right after its first power-up: BOOT entered, every other register at its power-on value, every queue
empty. -/
def State.reset : State :=
  { fuse := Fuse.default, nv := { Nv.fresh with pcc := 1 }, bd := { Bd.fresh with pcc := 1 }
    dev := Dev.atBoot Fuse.default 1 1 0 false true, pending := [] }

/-- A meaning that changes the main domain only. -/
def State.onDev (f : Dev → Dev) (s : State) : Out := .next { s with dev := f s.dev }

end Sys2Proof.Machine
end

