-- ==== Sys2Proof/Machine/Eas.lean ====
section
/-! DEFINITION. The meanings of the tiles' and the alignment sequencer's commands (04_stream_alignment.md). -/

namespace Sys2Proof.Machine

/-- A tile takes the frame at the head of its input queue and places it (R133, R134). -/
def Dev.tileTake (tile : Nat) (d : Dev) : Dev :=
  let x := d.tile tile
  match x.inq with
  | [] => d
  | f :: rest =>
    if !d.op.running || x.cause != 0 then d
    else
      let (hit, d) := (d.setTile tile { x with inq := rest }).placeFrame tile f
      match hit with
      | some _ => d.inputsChanged
      | none => d

/-- The slot of the frame at the head of a tile's queue, with an error met in the cell that the frame finds (R139). -/
def Dev.headRead (tile : Nat) (ecc : Option CellEcc) (d : Dev) : List (Nat × CellFault) :=
  match (d.tile tile).inq, ecc with
  | f :: _, some x =>
    let e := d.entryAt f.idx ((f.num * 1000000000 / f.den : Nat) : Int)
    if d.op.running && (d.tile tile).cause == 0 then [(slotOf (rateOf (eRate e)) f.num f.den, { stream := f.idx, ecc := x })] else []
  | _, _ => []

/-- `TILE_PLACE_FRAME`. `ecc` is an error met in the cell that the frame finds. -/
def execTilePlaceFrame (tile : Nat) (ecc : Option CellEcc) (s : State) : Out :=
  s.onDev (fun d => d.withReads s.fuse (d.headRead tile ecc) (Dev.tileTake tile))

/-- A look with what goes wrong in it: the errors in its cells, and the tiles that fail for their deadline (Table 4.7, cause 2),
in tile order. -/
def Dev.lookWith (fz : Fuse) (k : Nat) (x : LookFaults) (look : Dev → Dev) (d : Dev) : Dev :=
  let e := d.withReads fz (x.cells.map (fun c => (k, c))) look
  ((List.range fz.part.tiles).filter (fun t => x.late.contains t)).foldl (fun e t => e.failTile fz t 2) e

/-- The first-look deadline of a set has come (R129, R140). -/
def Dev.firstLookDue (fz : Fuse) (rc k : Nat) (x : LookFaults) (d : Dev) : Dev :=
  match d.openSet? rc k with
  | some s =>
    if d.op.running && !s.done && decide (s.first ≤ d.raw) then d.lookWith fz k x (Dev.lookFirst s) else d
  | none => d

/-- `FIRST_LOOK`. -/
def execFirstLook (rc k : Nat) (x : LookFaults) (s : State) : Out := s.onDev (Dev.firstLookDue s.fuse rc k x)

/-- The final-look deadline of a set has come (R129, R141). -/
def Dev.finalLookDue (fz : Fuse) (rc k : Nat) (x : LookFaults) (d : Dev) : Dev :=
  match d.openSet? rc k with
  | some s =>
    if d.op.running && s.done && decide (s.final ≤ d.raw) then d.lookWith fz k x (Dev.lookFinal s 0) else d
  | none => d

/-- `FINAL_LOOK`. -/
def execFinalLook (rc k : Nat) (x : LookFaults) (s : State) : Out := s.onDev (Dev.finalLookDue s.fuse rc k x)

/-- The sentinel check of a tile (Table 4.7, cause 3): the second failure in a row fails it. -/
def Dev.sentinel (fz : Fuse) (tile : Nat) (pass : Bool) (d : Dev) : Dev :=
  let x := d.tile tile
  if !d.tilesWatched || !d.tileOk tile fz then d
  else if pass then d.setTile tile { x with kat := 0 }
  else if x.kat = 0 then d.setTile tile { x with kat := 1 }
  else d.failTile fz tile 3

/-- `TILE_SENTINEL_CHECK`. `find` is an error the check meets in the tile's SRAM. -/
def execTileSentinelCheck (tile : Nat) (pass : Bool) (find : TileFind) (s : State) : Out :=
  s.onDev (fun d => (if d.tilesWatched then d.tileFound s.fuse tile find else d).sentinel s.fuse tile pass)

/-- `EAS_FAIL` once its checks 2 to 4 hold (R159). -/
def Dev.easFailCmd (fz : Fuse) (h : CmdHdr) (tile : Nat) (d : Dev) : Dev :=
  if fz.part.tiles ≤ tile then d.complete h 0x28 2 []
  else if !d.tileOk tile fz then d.refuse h 0x28 6 1 0xFFFF []
  else (d.failTile fz tile 4).complete h 0x28 0 []

/-- `EAS_FAIL`. -/
def execEasFail (h : CmdHdr) (tile : Nat) (s : State) : Out :=
  s.onDev (fun d => d.cmd h 0x28 [] true legalCRD (Dev.easFailCmd s.fuse h tile))

end Sys2Proof.Machine
end

