-- ==== Sys2Proof/Machine/PlgOps.lean ====
section
/-! DEFINITION. The operations of the proof log (15_proof_log_identity.md): a record's bytes, the two partitions and
their numbers, the digest over the security partition, and staging as entries are committed. -/

namespace Sys2Proof.Machine

/-! ### Records (Tables 15.1 to 15.3, R472) -/

/-- `SEV` of a code (Table 15.3). -/
def recSev (code : Nat) : Nat :=
  if code ∈ [0x01, 0x05, 0x84] then 0
  else if code ∈ [0x02, 0x04, 0x20, 0x25, 0x81, 0x82] then 1
  else if code ∈ [0x10, 0x11, 0x13, 0x14, 0x23, 0x24, 0x30, 0x31, 0x35, 0x3F, 0x83, 0x87] then 3
  else if code ∈ [0x12, 0x80] then 4
  else 2

/-- Class and flags of a committed record (Table 15.2). -/
def recFlags (r : LogRec) : Nat :=
  recSev r.code + (if secCode r.code then 8 else 0) + (if r.summary then 16 else 0) + (if r.late then 32 else 0) + 0x8000

/-- A parameter of a record. -/
def LogRec.param (r : LogRec) (i : Nat) : Word := r.p.getD i 0

/-- Bytes 0 to 29 of the record of a number (Table 15.1). -/
def recBody (num : Nat) (r : LogRec) : List Byte :=
  leBytes 2 r.code ++ leBytes 2 (recFlags r)
    ++ (if secCode r.code then leBytes 10 num else leBytes 3 r.pcc ++ leBytes 5 r.ms ++ leBytes 2 0)
    ++ leBytes 4 (r.param 0).toNat ++ leBytes 4 (r.param 1).toNat ++ leBytes 4 (r.param 2).toNat ++ leBytes 4 (r.param 3).toNat

/-- The 32 bytes of a committed record, its CRC-16 in bytes 30 and 31 (R472). -/
def recBytes (num : Nat) (r : LogRec) : List Byte :=
  let b := recBody num r
  b ++ leBytes 2 (crcCcitt b)

/-- Word `w` of a record as `PLG_RECw` shows it. -/
def recWord (num : Nat) (r : LogRec) (w : Nat) : Word := BitVec.ofNat 32 (leNat ((recBytes num r).drop (4 * w) |>.take 4))

/-! ### Partitions (R474 to R477) -/

/-- Slots of a partition. -/
def partSize (sec : Bool) : Nat := if sec then 4096 else 28608

/-- Records a partition can hold: its slots that are not bad. -/
def Partition.cap (sec : Bool) (p : Partition) : Nat := partSize sec - p.bad.length

/-- Drop the oldest records beyond the capacity. -/
def dropOver (cap : Nat) (rs : List Committed) : List Committed := rs.drop (rs.length - cap)

/-- The first slot from `s` on, around the ring, that is not bad. -/
def goodSlot (size : Nat) (bad : List Nat) : Nat → Nat → Nat
  | 0, s => s
  | n + 1, s => if bad.contains s then goodSlot size bad n ((s + 1) % size) else s

/-- A slot that failed three attempts is marked bad and skipped (R475); what it held is gone. -/
def Partition.markBad (sec : Bool) (p : Partition) : Partition :=
  let bad := p.slot :: p.bad
  { p with bad := bad, slot := goodSlot (partSize sec) bad bad.length ((p.slot + 1) % partSize sec) }

/-- Mark `n` slots in a row. -/
def Partition.markBads (sec : Bool) : Nat → Partition → Partition
  | 0, p => p
  | n + 1, p => Partition.markBads sec n (p.markBad sec)

/-- Write a record to the next slot: it takes the next number, and a full ring loses its oldest record (R477). -/
def Partition.append (sec : Bool) (r : LogRec) (p : Partition) : Partition :=
  let recs := dropOver (p.cap sec) (p.recs ++ [{ num := p.next, recd := r, damaged := false }])
  { p with recs := recs, next := p.next + 1, oldest := p.next + 1 - recs.length,
           slot := goodSlot (partSize sec) p.bad p.bad.length ((p.slot + 1) % partSize sec) }

/-- Whether the next append overwrites a record. -/
def Partition.full (sec : Bool) (p : Partition) : Bool := decide (p.cap sec ≤ p.recs.length)

/-- What must hold of a partition: its records carry consecutive numbers from `oldest` to the one before `next`. -/
def Partition.wf (p : Partition) : Bool :=
  decide (p.recs.map (fun c => c.num) = (List.range p.recs.length).map (fun i => p.oldest + i)) &&
    decide (p.oldest + p.recs.length = p.next)

/-- Discard every record (R484). -/
def Partition.clear (p : Partition) : Partition := { p with recs := [], oldest := p.next }

/-- Commit a record after `fails` failed attempts (R474, R475, R485): three failures mark a slot bad. -/
def Nv.commit (fails : Nat) (r : LogRec) (nv : Nv) : Nv :=
  if secCode r.code then
    let p := nv.sec.markBads true (fails / 3)
    { nv with sec := p.append true r, wrapped := nv.wrapped || p.full true,
              digest := Config.sha256 (beBytes 32 nv.digest ++ recBytes p.next r) % 2 ^ 256 }
  else { nv with gen := (nv.gen.markBads false (fails / 3)).append false r }

/-- The record of a number, when it is held and not damaged (R482). -/
def Partition.find? (num : Nat) (p : Partition) : Option Committed :=
  p.recs.find? (fun c => c.num == num && !c.damaged)

/-- The number a request of 32 bits stands for: the running number nearest the head with those bits (R482: it wraps). -/
def Partition.near (req : Nat) (p : Partition) : Nat := ((p.next : Int) + signedOf 32 (req + 4294967296 - p.next % 4294967296)).toNat

/-- A partition. -/
def Nv.part (sec : Bool) (nv : Nv) : Partition := if sec then nv.sec else nv.gen

/-- The number a request names in a partition. -/
def Nv.number (sec : Bool) (req : Nat) (nv : Nv) : Nat := if sec then req % 2 ^ 80 else nv.gen.near (req % 2 ^ 32)

/-! ### Staging (R478, R480) -/

/-- The record of an event that took place earlier (`LATE`). -/
def Dev.postLate (code : Nat) (p : List Word) (d : Dev) : Dev := d.stageRec { d.mkRec code p with late := true }

/-- An entry of staging has become free: a stalled security event takes it, else the overflow is reported (R480). -/
def Dev.stageFreed (d : Dev) : Dev :=
  let (old, new) := d.stageSplit
  match d.plg.stalled with
  | r :: rest => ({ d with plg := { d.plg with stalled := rest } }).stagePut r old new
  | [] =>
    if d.plg.overflow then
      ({ d with plg := { d.plg with drops := 0, overflow := false } }).stagePut (d.mkRec 0x3E [BitVec.ofNat 32 d.plg.drops]) old new
    else d

/-- No event of the present cycle enters staging any more before those already there. -/
def Dev.stageClose (d : Dev) : Dev := { d with plg := { d.plg with run := 0 } }

/-- The sequence a security record posted now will carry (R419): the next one, after those that wait. -/
def Dev.nextSeq (nv : Nv) (d : Dev) : Nat :=
  nv.sec.next + (d.plg.stage.filter (fun r => secCode r.code)).length + d.plg.stalled.length

/-- Commit the entry at the head of staging. -/
def commitHead (fails : Nat) (nv : Nv) (d : Dev) : Nv × Dev :=
  match d.plg.stage with
  | [] => (nv, d)
  | r :: rest => (nv.commit fails r, Dev.stageFreed { d with plg := { d.plg with stage := rest } })

/-- Commit up to `n` entries. -/
def commitAll : Nat → Nv → Dev → Nv × Dev
  | 0, nv, d => (nv, d)
  | n + 1, nv, d =>
    match d.plg.stage with
    | [] => (nv, d)
    | _ :: _ =>
      let (nv, d) := commitHead 0 nv d
      commitAll n nv d

/-- `PLG_STATUS`. -/
def plgStatus (nv : Nv) (d : Dev) : Word :=
  BitVec.ofNat 32 (d.plg.stage.length % 512 + (if d.plg.stalled.isEmpty then 0 else 512) + (if d.plg.cursorLost then 1024 else 0)
    + (if nv.wrapped then 2048 else 0))

/-- The cursor (R482). -/
def Dev.plgCursor (d : Dev) : Nat :=
  (d.reg Reg.PLG_CURSOR_0).toNat + (d.reg Reg.PLG_CURSOR_1).toNat * 2 ^ 32 + (d.reg Reg.PLG_CURSOR_2).toNat * 2 ^ 64

/-- Store the cursor. -/
def Dev.setPlgCursor (n : Nat) (d : Dev) : Dev :=
  ((d.setReg Reg.PLG_CURSOR_0 (lo32 n)).setReg Reg.PLG_CURSOR_1 (lo32 (n >>> 32))).setReg Reg.PLG_CURSOR_2 (lo32 (n >>> 64))

/-- Latch the record the cursor names into `PLG_REC0` to `PLG_REC7` (R482). -/
def Dev.plgLatch (nv : Nv) (d : Dev) : Dev :=
  let sec := d.rbit Reg.PLG_CTRL 0
  let n := nv.number sec d.plgCursor
  let c := (nv.part sec).find? n
  let d := (List.range 8).foldl (fun e w =>
    e.setReg (Reg.PLG_REC w) (match c with | some c => recWord c.num c.recd w | none => 0)) d
  { d with plg := { d.plg with cursorLost := c.isNone } }

end Sys2Proof.Machine
end

