-- ==== Sys2Proof/Machine/KeyOps.lean ====
section
/-! DEFINITION. The operations of the key plate, Hallmark and the life cycle (13_security.md): which slots are in use,
the checks and the execution of a key command, the journal flip, attestation, work that waits for the Annealer, and
update messages. -/

namespace Sys2Proof.Machine

/-- Change the main domain. -/
def State.mapDev (f : Dev → Dev) (s : State) : State := { s with dev := f s.dev }

/-! ### Types and usages (Table 13.2) -/

/-- Number of a usage that has exactly one defined bit set. -/
def usageBit (u : BitVec 16) : Option Nat := (List.range 9).find? (fun i => u.toNat == 2 ^ i)

/-- The type a usage admits. -/
def usageType (i : Nat) : Nat := [2, 2, 3, 4, 2, 1, 3, 5, 4].getD i 0

/-- Usages `KEY_GENERATE` fills. -/
def genUsage (i : Nat) : Bool := i == 3 || i == 7

/-- Usages `KEY_IMPORT` fills. -/
def impUsage (i : Nat) : Bool := i == 0 || i == 2 || i == 4 || i == 5 || i == 6

/-- A slot no host key command may name (R401). -/
def reservedSlot (slot : Nat) : Bool := slot == 0 || decide (248 ≤ slot)

/-- Whether table contents name a slot (R414). -/
def tableNames (t : SMap) (slot : Nat) : Bool :=
  (validIn t).any (fun i => let e := entryIn t i; (eKind e == 3 || eKind e == 4) && eKeySlot e == slot) ||
    (nodesIn t).any (fun n => nKey t n == slot) ||
    (setsIn t).any (fun x => ((outIn t x 0).bit 14 && oTagSlot t x == slot) || ((outIn t x 0).bit 15 && oSealSlot t x == slot))

/-- Whether a register whose unit is enabled names a slot (R414). -/
def Dev.regNames (slot : Nat) (d : Dev) : Bool :=
  (d.rbit Reg.PUB_ALM_CTRL 2 && d.fld Reg.PUB_ALM_CTRL 8 8 == slot) ||
    (List.range 4).any (fun n => d.rbit (Reg.NET_MACSEC_CTRL n) 0 && d.fld (Reg.NET_MACSEC_CTRL n) 4 8 == slot) ||
    (d.rbit Reg.BRZ_CTRL 0 && (d.fld Reg.BRZ_UP 24 8 == slot || d.fld Reg.BRZ_TWIN 24 8 == slot)) ||
    (d.rbit Reg.FLG_CTRL 0 && d.fld Reg.FLG_SEC 8 8 == slot)

/-- Whether a slot is in use (R414). -/
def Dev.slotInUse (slot : Nat) (d : Dev) : Bool :=
  tableNames d.act slot || (match d.stm.pend with | some p => tableNames p.snap slot | none => false) || d.regNames slot

/-! ### The plate -/

/-- The key a slot holds. -/
def Dev.slotKey (slot : Nat) (d : Dev) : Option KeyRec := KMap.get? d.key.plate slot

/-- `GEN` of a slot. -/
def Nv.genOf (slot : Nat) (nv : Nv) : Word := KMap.getD nv.gens slot 0

/-- Life-cycle states in which working keys are usable (Table 13.9). -/
def Nv.keysUsable (nv : Nv) : Bool := nv.lc == .provisioned || nv.lc == .field

/-- The slots a command names. -/
def KeyOp.slots : KeyOp → List Nat
  | .gen a => [a.slot]
  | .imp a t _ => [a.slot, t]
  | .destroy k => [k]
  | .pubKey k _ _ => [k]
  | .attest k _ _ _ => [k]

/-- The code of a command. -/
def KeyOp.code : KeyOp → Nat
  | .gen _ => 0xA0 | .imp _ _ _ => 0xA1 | .destroy _ => 0xA2 | .pubKey _ _ _ => 0xA3 | .attest _ _ _ _ => 0xA4

/-- Slots that a command in execution or waiting names (R411). -/
def Dev.busySlots (d : Dev) : List Nat :=
  d.key.install.map (fun x => x.slot) ++ d.key.waiting.flatMap (fun x => x.2.slots)
    ++ d.anl.p5wait.filterMap (fun x => match x.2.1 with | .attest k _ _ _ => some k | _ => none)

/-- A failed check of Table 13.6: check order, status and reason. -/
abbrev KeyFail := Nat × Nat × Nat

/-- The first of some checks that fails. -/
def firstFail (cs : List (Bool × KeyFail)) : Option KeyFail := (cs.find? (fun c => c.1)).map (fun c => c.2)

/-- Whether installing a type and usage in a slot changes those of a slot in use (R412). -/
def Dev.changesUsed (a : KeyArgs) (d : Dev) : Bool :=
  match d.slotKey a.slot with
  | some r => d.slotInUse a.slot && (r.typ != a.typ || r.usage != a.usage.toNat)
  | none => false

/-- Whether a type and usage are those a command may fill. -/
def argsOk (fills : Nat → Bool) (a : KeyArgs) : Bool :=
  match usageBit a.usage with
  | some i => a.typ == usageType i && fills i
  | none => false

/-- Checks 5 to 7 of a key command in the order of Table 13.6 (R416). -/
def keyCheck (nv : Nv) (d : Dev) : KeyOp → Option KeyFail
  | .gen a => firstFail [
      (reservedSlot a.slot, (5, 2, 1)), (!argsOk genUsage a, (5, 2, 2)), (!nv.keysUsable, (6, 1, 4)),
      (d.changesUsed a, (6, 1, 6)), (d.key.rngFail, (7, 3, 7))]
  | .imp a t b => firstFail [
      (reservedSlot a.slot || reservedSlot t, (5, 2, 1)), (!argsOk impUsage a, (5, 2, 2)),
      (b.len != (if a.typ = 1 then 116 else 132) || !b.aligned, (5, 2, 3)), (!nv.keysUsable, (6, 1, 4)),
      ((d.keyFor 7 t).isNone, (6, 1, 5)), (d.changesUsed a, (6, 1, 6))]
  | .destroy k => firstFail [
      (reservedSlot k, (5, 2, 1)), (!nv.keysUsable, (6, 1, 4)), ((d.slotKey k).isNone, (6, 1, 5)), (d.slotInUse k, (6, 1, 6))]
  | .pubKey k _ _ => firstFail [
      (reservedSlot k, (5, 2, 1)), (!nv.keysUsable, (6, 1, 4)),
      (match d.slotKey k with | some r => r.typ != 4 && r.typ != 5 | none => true, (6, 1, 5))]
  | .attest k _ _ _ => firstFail [
      (reservedSlot k, (5, 2, 1)), (!nv.keysUsable || !d.key.attestOk, (6, 1, 4)), ((d.slotKey k).isNone, (6, 1, 5))]

/-- Refuse a key command with its reason at byte 8. -/
def Dev.keyRefuse (h : CmdHdr) (code : Nat) (f : KeyFail) (slot : Nat) (d : Dev) : Dev :=
  d.refuse h code f.1 f.2.1 slot [0, 0, BitVec.ofNat 32 f.2.2]

/-- A key command ends during execution with a reason at byte 8. -/
def Dev.keyEnd (h : CmdHdr) (code status reason : Nat) (d : Dev) : Dev :=
  d.complete h code status [0, 0, BitVec.ofNat 32 reason]

/-! ### Attestation (R419, Table 13.7) -/

/-- Bytes 0 to 199 of an attestation statement. -/
def attestBytes (fz : Fuse) (slot : Nat) (r : KeyRec) (lc : Nat) (vgen : Word) (pcc ms : Nat) (dbg : Bool) (pub nonce measure seq : Nat) :
    List Byte :=
  leBytes 4 0x10000 ++ leBytes 4 264 ++ leBytes 8 fz.serial ++ leBytes 4 fz.lot.toNat ++ leBytes 2 fz.die.toNat
    ++ leBytes 1 0xB1 ++ leBytes 1 lc ++ leBytes 4 vgen.toNat ++ leBytes 3 pcc ++ leBytes 1 0 ++ leBytes 5 ms ++ leBytes 3 0
    ++ leBytes 1 slot ++ leBytes 1 r.typ ++ leBytes 2 r.usage ++ leBytes 1 r.origin ++ leBytes 1 (if dbg then 2 else 0)
    ++ leBytes 2 0 ++ leBytes 4 r.keyId.toNat ++ leBytes 4 r.gen.toNat
    ++ (if r.typ = 4 ∨ r.typ = 5 then beBytes 64 pub else leBytes 3 r.kcv ++ leBytes 61 0)
    ++ leBytes 32 nonce ++ beBytes 32 measure ++ leBytes 10 seq ++ leBytes 6 0

/-- Code of a life-cycle state (`TMP_LC.LC`). -/
def LifeCycle.code : LifeCycle → Nat
  | .blank => 0 | .provisioned => 1 | .field => 2 | .ret => 3 | .scrap => 4

/-- The Hallmark private key; 0 where slot 0 is empty. -/
def Dev.hallmark (d : Dev) : Nat := match d.slotKey 0 with | some r => r.key | none => 0

/-- Write an attestation statement, its record posted with the sequence it carries (R419). -/
def Dev.attest (fz : Fuse) (nv : Nv) (h : CmdHdr) (slot nonce addr : Nat) (memErr : Bool) (r : KeyRec) (d : Dev) : Dev :=
  let seq := d.nextSeq nv
  let pcc := d.fld Reg.PWR_PCC 0 24
  let pub := if r.typ = 4 ∨ r.typ = 5 then Config.pubOf r.key else 0
  let sig := Config.sign d.hallmark
    (attestBytes fz slot r nv.lc.code nv.vaultGen pcc d.opMs d.key.debugged pub nonce d.key.measure seq)
  let e := (d.stageClose.post 0x84 [BitVec.ofNat 32 slot, r.gen, lo32 nonce, 0]).stageClose
  if memErr then e.memFail h 0xA4 []
  else
    (e.emit (.hostWrite addr (.attest slot r nv.lc.code nv.vaultGen pcc d.opMs d.key.debugged pub nonce d.key.measure seq
      sig))).complete h 0xA4 0 []

/-- Bytes 0 to 95 of a log seal (R485). -/
def logSealBytes (fz : Fuse) (nv : Nv) (nonce : Nat) : List Byte :=
  leBytes 4 0x10000 ++ leBytes 8 fz.serial ++ leBytes 10 (nv.sec.next - 1) ++ leBytes 2 0 ++ beBytes 32 nv.digest ++ leBytes 8 0
    ++ leBytes 32 nonce

/-- Execute a command of the P5 class (R419, R420, R485). -/
def State.p5Run (h : CmdHdr) (op : P5Op) (s : State) : State :=
  match op with
  | .attest slot nonce addr memErr =>
    match s.dev.slotKey slot with
    | some r => s.mapDev (Dev.attest s.fuse s.nv h slot nonce addr memErr r)
    | none => s.mapDev (Dev.keyRefuse h 0xA4 (6, 1, 5) slot)
  | .cert addr memErr =>
    s.mapDev (fun d => if memErr then d.memFail h 0xA5 [] else (d.emit (.hostWrite addr (.cert s.nv.certLen d.key.pub))).complete h 0xA5 0 [BitVec.ofNat 32 s.nv.certLen])
  | .seal nonce addr memErr =>
    s.mapDev (fun d =>
      if memErr then d.memFail h 0xC2 [] else
      let sig := Config.sign d.hallmark (logSealBytes s.fuse s.nv nonce)
      (d.emit (.hostWrite addr (.logSeal s.fuse.serial (s.nv.sec.next - 1) s.nv.digest nonce sig))).complete h 0xC2 0 [])

/-- A command of the P5 class starts: it waits while P5 is suspended (R463). -/
def State.p5Start (h : CmdHdr) (op : P5Op) (s : State) : State :=
  if s.dev.anl.step = 0 then s.p5Run h op
  else s.mapDev (fun d => { d with anl := { d.anl with p5wait := d.anl.p5wait ++ [(h, op, d.raw)] } })

/-! ### Installation (R407, R409, R412, R413) -/

/-- The copy of a slot its journal bit selects: true, copy 1. -/
def Bd.copyOf (slot : Nat) (b : Bd) : Bool := b.journal.contains slot

/-- A key's record as an installation writes it. -/
def Dev.newKey (nv : Nv) (b : Bd) (slot origin typ usage : Nat) (keyId hostTag : Word) (kcv key : Nat) (d : Dev) : KeyRec :=
  { copy := !b.copyOf slot, typ := typ, origin := origin, usage := usage, keyId := keyId, gen := nv.genOf slot + 1,
    kcv := kcv % 2 ^ 24, instMs := d.opMs % 2 ^ 32, instPcc := d.fld Reg.PWR_PCC 0 24, hostTag := hostTag, key := key }

/-- An installation begins: its new key stands in the shadow copy until the flip. -/
def State.install (h : CmdHdr) (code slot : Nat) (k : KeyRec) (ctr : Option Nat) (s : State) : State :=
  let c := KMap.getD s.nv.store slot { c0 := none, c1 := none }
  let c : KeyCopies := if k.copy then { c with c1 := some k } else { c with c0 := some k }
  { s with nv := { s.nv with store := KMap.put s.nv.store slot c }
           dev := { s.dev with key := { s.dev.key with install := s.dev.key.install ++ [
             { hdr := h, code := code, slot := slot, newKey := k, counter := ctr }] } } }

/-- Erase the shadow copy of a slot. -/
def Nv.eraseShadow (copy : Bool) (slot : Nat) (nv : Nv) : Nv :=
  { nv with store := KMap.modify nv.store slot (fun (c : KeyCopies) =>
      if copy then { c with c1 := none } else { c with c0 := none }) }

/-- What the users of a slot see of a replacement (R409, R356). -/
def State.replaced (slot : Nat) (old : Option KeyRec) (s : State) : State :=
  let s := match old with
    | some r =>
      if r.usage = 16 then s.mapDev (fun d => { d with key := { d.key with grace := KMap.put d.key.grace slot (r, d.raw + 100000000) } })
      else s
    | none => s
  if s.fuse.part.hasFlg && s.dev.fld Reg.FLG_SEC 8 8 == slot && (s.dev.keyFor 5 slot).isSome then
    { s with nv := { s.nv with hopCtr := 0 }
             dev := { s.dev with flg := { s.dev.flg with
               ctr := 0, ended := false, upFc := 0, nodes := s.dev.flg.nodes.map (fun p => (p.1, { p.2 with lastFc := 0 })) } } }
  else s

/-- The journal bit of a slot flips: the new key is used from now on (R407 step 4). -/
def State.flip (slot : Nat) (k : KeyRec) (ctr : Option Nat) (s : State) : State :=
  let old := s.dev.slotKey slot
  let k : KeyRec := { k with instMs := s.dev.opMs % 2 ^ 32 }
  let c := KMap.getD s.nv.store slot { c0 := none, c1 := none }
  let c : KeyCopies := if k.copy then { c with c1 := some k } else { c with c0 := some k }
  let j := s.bd.journal.filter (fun n => n != slot)
  let d := s.dev
  let d := { d with key := { d.key with plate := KMap.put d.key.plate slot k } }
  let d := (d.wrapAdd Reg.KEY_FLIPS 1).setReg Reg.KEY_LAST_FLIP_LO (lo32 d.raw)
  let d := (d.setReg Reg.KEY_LAST_FLIP_HI (hi32 d.raw)).raise Reg.KEY_EVT 0
  let d := d.post 0x81 [BitVec.ofNat 32 (slot + k.typ * 256 + k.origin * 4096
    + (usageBit (BitVec.ofNat 16 k.usage)).getD 0 * 65536), k.keyId, k.gen, BitVec.ofNat 32 k.kcv]
  let s : State := { s with
    nv := { s.nv with store := KMap.put s.nv.store slot c, gens := KMap.put s.nv.gens slot k.gen,
                      importCtr := ctr.getD s.nv.importCtr }
    bd := { s.bd with journal := if k.copy then insertBy (fun a b => decide (a ≤ b)) slot j else j }
    dev := d }
  s.replaced slot old

/-- `KEY_DESTROY` once its checks hold (R414). -/
def State.destroyKey (h : CmdHdr) (slot : Nat) (s : State) : State :=
  let p := match s.dev.slotKey slot with
    | some r => [BitVec.ofNat 32 slot, r.keyId, r.gen, 0]
    | none => [BitVec.ofNat 32 slot, 0, 0, 0]
  { s with nv := { s.nv with store := KMap.del s.nv.store slot }
           dev := (({ s.dev with key := { s.dev.key with plate := KMap.del s.dev.key.plate slot } }).post 0x82 p).complete h 0xA2 0 [] }

/-- `KEY_IMPORT` once its checks hold: the failures met during execution, then the installation (R413, Table 13.6). -/
def State.importKey (h : CmdHdr) (a : KeyArgs) (b : ImportBlob) (s : State) : State :=
  if b.memErr then s.mapDev (Dev.memFail h 0xA1 [])
  else if b.counter.toNat ≤ s.nv.importCtr || !b.tagOk || !b.kcvOk then s.mapDev (Dev.keyEnd h 0xA1 7 9)
  else
    let k := s.dev.newKey s.nv s.bd a.slot 2 a.typ a.usage.toNat a.keyId a.hostTag b.kcv.toNat b.key
    s.install h 0xA1 a.slot k (some b.counter.toNat)

/-- Execute a key command that no other command holds back. -/
def State.keyExec (h : CmdHdr) (op : KeyOp) (s : State) : State :=
  match keyCheck s.nv s.dev op with
  | some f => s.mapDev (Dev.keyRefuse h op.code f (op.slots.headD 0xFFFF))
  | none =>
    match op with
    | .gen a =>
      let key := Config.drbg s.dev.free
      let s := s.mapDev (fun d => { d with free := d.free + 1, key := { d.key with rngRuns := 0 } })
      s.install h 0xA0 a.slot
        (s.dev.newKey s.nv s.bd a.slot 1 a.typ a.usage.toNat a.keyId a.hostTag (Config.kcv a.typ key) key) none
    | .imp a _ b => s.importKey h a b
    | .destroy k => s.destroyKey h k
    | .pubKey k addr memErr =>
      match s.dev.slotKey k with
      | some r => s.mapDev (fun d => if memErr then d.memFail h 0xA3 []
          else (d.emit (.hostWrite addr (.pubKey (Config.pubOf r.key)))).complete h 0xA3 0 [BitVec.ofNat 32 r.kcv])
      | none => s
    | .attest k nonce addr memErr => s.p5Start h (.attest k nonce addr memErr)

/-- A key command starts: it waits while an earlier one names one of its slots (R411). -/
def State.keyStart (h : CmdHdr) (op : KeyOp) (s : State) : State :=
  if op.slots.any (fun k => s.dev.busySlots.contains k) then
    s.mapDev (fun d => { d with key := { d.key with waiting := d.key.waiting ++ [(h, op)] } })
  else s.keyExec h op

/-- Commands that waited start, in their order, as far as their slots have become free. -/
def State.keyResume (s : State) : State :=
  let w := s.dev.key.waiting
  w.foldl (fun e x => e.keyStart x.1 x.2) (s.mapDev (fun d => { d with key := { d.key with waiting := [] } }))

/-- A host command whose meaning reaches beyond the main domain: the checks of orders 2 to 4, then `body`. -/
def State.cmd (h : CmdHdr) (code : Nat) (slots : List Nat) (legal : List OpState) (body : State → State) (s : State) : State :=
  let d := s.dev.cmd h code slots true legal id
  if s.dev.mayStart h code && (s.dev.gate h code slots true legal).isNone then body s else { s with dev := d }

/-- Every key and attestation command in progress or waiting ends with a status and a reason (R410, R433). -/
def Dev.abortKeys (status reason : Nat) (d : Dev) : Dev :=
  let ins := d.key.install.map (fun x => (x.hdr, x.code))
  let wait := d.key.waiting.map (fun x => (x.1, x.2.code))
  let p5 := d.anl.p5wait.map (fun x => (x.1, match x.2.1 with | .attest _ _ _ _ => 0xA4 | .cert _ _ => 0xA5 | .seal _ _ _ => 0xC2))
  let d := { d with key := { d.key with install := [], waiting := [] }, anl := { d.anl with p5wait := [] } }
  (ins ++ wait ++ p5).foldl (fun e x => e.keyEnd x.1 x.2 (if x.2 = 0xC2 then 7 else status) reason) d

/-- The working plate is zeroized (R431, R424): `keep0` keeps slot 0. -/
def Dev.zeroize (keep0 : Bool) (d : Dev) : Dev :=
  { d with key := { d.key with plate := if keep0 then d.key.plate.filter (fun p => p.1 == 0) else [], grace := [],
                               attestOk := keep0 && d.key.attestOk, pub := if keep0 then d.key.pub else 0 } }

/-! ### Update messages (R424 to R429) -/

/-- The signer a type needs in a life-cycle state; none where the type is not accepted (Table 13.11). -/
def msgSigner (lc : LifeCycle) (typ : Nat) : Option Nat :=
  match lc, typ with
  | .blank, 1 => some 0
  | .provisioned, 2 => some 1
  | .provisioned, 3 => some 1
  | .field, 3 => some 1
  | .blank, 4 => some 0
  | .ret, 4 => some 0
  | .provisioned, 4 => some 1
  | .field, 4 => some 1
  | .provisioned, 5 => some 1
  | .field, 5 => some 1
  | .provisioned, 6 => some 1
  | .field, 6 => some 1
  | .provisioned, 7 => some 1
  | .ret, 7 => some 0
  | .ret, 8 => some 0
  | _, _ => none

/-- The states in which a path takes a type (R427, R429). -/
def msgPath (flash : Bool) (op : OpState) (typ : Nat) : Bool :=
  if flash then true
  else if typ = 6 then op == .config || op.running
  else decide (typ ≤ 5) && op == .config

/-- The first check of Table 13.12 that fails; 0: the message is accepted. -/
def msgReason (fz : Fuse) (nv : Nv) (flash : Bool) (op : OpState) (m : UpdateMsg) : Nat :=
  if !m.lenOk then 1
  else if !m.formatOk then 2
  else if m.typ = 0 ∨ 8 < m.typ ∨ m.payloadOk = false then 3
  else if m.serial.toNat ≠ fz.serial then 4
  else if m.counter.toNat ≤ nv.updCtr then 5
  else if msgSigner nv.lc m.typ ≠ some m.signer ∨ msgPath flash op m.typ = false then 6
  else if !m.sigOk then 7
  else if (m.typ = 1 ∨ m.typ = 6) ∧ m.keyOk = false then 8
  else 0

/-- The life-cycle state after an accepted message. -/
def msgNext (lc : LifeCycle) (typ : Nat) : LifeCycle :=
  match typ with
  | 1 => .provisioned | 2 => .field | 3 => .ret | 4 => .scrap | 8 => .blank | _ => lc

/-- A transition or `RESEAL` destroys every working key (R424). -/
def State.eraseKeys (keepHallmark : Bool) (s : State) : State :=
  { s with nv := { s.nv with store := [], gens := [] }, dev := s.dev.zeroize keepHallmark }

/-- A new vault root (R398). -/
def State.drawRoot (s : State) : State :=
  { s with nv := { s.nv with vaultGen := s.nv.vaultGen + 1 }, bd := { s.bd with root := some (Config.newRoot s.dev.free) }
           dev := { s.dev with free := s.dev.free + 1 } }

/-- The tamper latch is cleared (R434). -/
def Bd.clearLatch (b : Bd) : Bd := { b with causes := 0, count := 0, backup := false, time := 0, logged := false }

/-- `TMP_LATCH`. -/
def Bd.latchWord (b : Bd) : Word := BitVec.ofNat 32 (b.causes % 128 + b.count % 256 * 256 + (if b.backup then 65536 else 0))

/-- The tamper latch is committed as one record, at the first BOOT after it was set (R434). -/
def State.noteLatch (s : State) : State :=
  if s.bd.causes = 0 ∨ s.bd.logged then s
  else
    { s with bd := { s.bd with logged := true }
             dev := s.dev.postLate 0x80 [s.bd.latchWord, BitVec.ofNat 32 s.bd.time, BitVec.ofNat 32 (s.dev.fld Reg.PWR_PCC 0 24), 0] }

/-- The effect of an accepted message (Table 13.11). -/
def State.msgEffect (m : UpdateMsg) (s : State) : State :=
  let s : State := { s with nv := { s.nv with updCtr := m.counter.toNat } }
  let s := if m.typ ≤ 5 ∨ m.typ = 8 then s.eraseKeys (m.typ != 4) else s
  let s := if m.typ = 1 ∨ m.typ = 5 then s.drawRoot else s
  let s : State := if m.typ = 3 ∨ m.typ = 4 then { s with bd := { s.bd with root := none } } else s
  let s : State := if m.typ = 5 then
      let s := s.noteLatch
      { s with bd := s.bd.clearLatch } else s
  { s with nv := { s.nv with
      lc := msgNext s.nv.lc m.typ
      authKey := if m.typ = 1 ∨ m.typ = 6 then some m.key else if m.typ = 8 then none else s.nv.authKey
      helperOk := s.nv.helperOk && m.typ != 4
      debugNext := s.nv.debugNext || m.typ == 7 } }

/-- The record and the registers of a message's outcome (R426). -/
def State.msgNote (m : UpdateMsg) (reason : Nat) (flash : Bool) (s : State) : State :=
  s.mapDev (fun d =>
    let w := BitVec.ofNat 32 (m.typ % 256 + reason * 256 + (if flash then 65536 else 0))
    (d.setReg Reg.TMP_UPD_LAST w).post 0x85
      [w + BitVec.ofNat 32 (m.signer % 256 * 16777216), m.counter, BitVec.ofNat 32 s.nv.lc.code, 0])

/-- A message of the flash area, processed in BOOT (R427). -/
def State.flashMsg (m : UpdateMsg) (s : State) : State :=
  match msgReason s.fuse s.nv true s.dev.op m with
  | 0 => (s.msgEffect m).msgNote m 0 true
  | 5 => s.mapDev (fun d => d.bump Reg.TMP_UPD_STALE 1)
  | r => s.msgNote m r true

/-- A message of one type found in the flash area while BOOT examines it; at any other time there is none to process. -/
def State.flashRow (typ : Nat) (m : UpdateMsg) (s : State) : State :=
  if s.dev.op = .boot ∧ m.typ = typ then s.flashMsg m else s

end Sys2Proof.Machine
end

