-- ==== Sys2Proof/Machine/Key.lean ====
section
/-! DEFINITION. The meanings of the key, Hallmark and access commands, of the flash update messages and of the events of
the key plate (13_security.md). -/

namespace Sys2Proof.Machine

/-- `KEY_GENERATE` (R412). -/
def execKeyGenerate (h : CmdHdr) (a : KeyArgs) (s : State) : Out :=
  .next (s.cmd h 0xA0 [a.slot] legalCRD (State.keyStart h (.gen a)))

/-- `KEY_IMPORT` (R413); its address is checked for alignment through what the blob reports. -/
def execKeyImport (h : CmdHdr) (a : KeyArgs) (tslot addr : Nat) (blob : ImportBlob) (s : State) : Out :=
  .next (s.cmd h 0xA1 [a.slot, tslot] legalCRD
    (State.keyStart h (.imp a tslot { blob with aligned := blob.aligned && addr % 4 == 0 })))

/-- The check of an installation has ended: the journal bit flips, or the shadow is given up (R407). -/
def State.journalFlip (slot : Nat) (katOk : Bool) (s : State) : State :=
  match s.dev.key.install.find? (fun x => x.slot == slot) with
  | none => s
  | some x =>
    let s := s.mapDev (fun d => { d with key := { d.key with install := d.key.install.filter (fun y => y.slot != slot) } })
    let s :=
      if katOk then
        (s.flip slot x.newKey x.counter).mapDev (fun d => d.complete x.hdr x.code 0
          [lo32 d.raw, hi32 d.raw, BitVec.ofNat 32 x.newKey.kcv, x.newKey.gen])
      else
        { s with nv := s.nv.eraseShadow x.newKey.copy slot }.mapDev (Dev.keyEnd x.hdr x.code 7 8)
    s.keyResume

/-- `KEY_JOURNAL_FLIP`. -/
def execKeyJournalFlip (slot : Nat) (katOk : Bool) (s : State) : Out := .next (s.journalFlip slot katOk)

/-- `KEY_DESTROY` (R414). -/
def execKeyDestroy (h : CmdHdr) (slot : Nat) (s : State) : Out :=
  .next (s.cmd h 0xA2 [slot] legalCRD (State.keyStart h (.destroy slot)))

/-- `KEY_PUBLIC` (R415). -/
def execKeyPublic (h : CmdHdr) (slot addr : Nat) (memErr : Bool) (s : State) : Out :=
  .next (s.cmd h 0xA3 [slot] legalCRD (State.keyStart h (.pubKey slot addr memErr)))

/-- `HLM_ATTEST` (R419). -/
def execHlmAttest (h : CmdHdr) (slot nonce addr : Nat) (memErr : Bool) (s : State) : Out :=
  .next (s.cmd h 0xA4 [slot] legalCRD (State.keyStart h (.attest slot nonce addr memErr)))

/-- `HLM_CERT` once its checks 2 to 4 hold (R420). -/
def State.certCmd (h : CmdHdr) (addr len : Nat) (memErr : Bool) (s : State) : State :=
  if len < s.nv.certLen then s.mapDev (fun d => d.complete h 0xA5 2 [BitVec.ofNat 32 s.nv.certLen])
  else if !s.nv.keysUsable || !s.dev.key.attestOk then s.mapDev (Dev.keyRefuse h 0xA5 (6, 1, 4) 0xFFFF)
  else s.p5Start h (.cert addr memErr)

/-- `HLM_CERT`. -/
def execHlmCert (h : CmdHdr) (addr len : Nat) (memErr : Bool) (s : State) : Out :=
  .next (s.cmd h 0xA5 [] legalCRD (State.certCmd h addr len memErr))

/-- `PROVISION` from the flash area (R427, Table 13.11). -/
def execProvision (m : UpdateMsg) (s : State) : Out := .next (s.flashRow 1 m)

/-- `ADVANCE` from the flash area. -/
def execAdvance (m : UpdateMsg) (s : State) : Out := .next (s.flashRow 2 m)

/-- `RETURN` from the flash area. -/
def execReturn (m : UpdateMsg) (s : State) : Out := .next (s.flashRow 3 m)

/-- `SCRAP` from the flash area. -/
def execScrap (m : UpdateMsg) (s : State) : Out := .next (s.flashRow 4 m)

/-- `RESEAL` from the flash area. -/
def execReseal (m : UpdateMsg) (s : State) : Out := .next (s.flashRow 5 m)

/-- `ROTATE_AUTHORITY` from the flash area. -/
def execRotateAuthority (m : UpdateMsg) (s : State) : Out := .next (s.flashRow 6 m)

/-- `DEBUG_OPEN` from the flash area. -/
def execDebugOpen (m : UpdateMsg) (s : State) : Out := .next (s.flashRow 7 m)

/-- `REBLANK` from the flash area. -/
def execReblank (m : UpdateMsg) (s : State) : Out := .next (s.flashRow 8 m)

/-! ### The access control table (R437) -/

/-- Write a word of the access control table; its record carries the old and the new value. -/
def Dev.actStore (h : CmdHdr) (target ctx word off : Nat) (v : Word) (d : Dev) : Dev :=
  let old := d.reg off
  ((d.setReg off v).post 0x86 [BitVec.ofNat 32 (target + ctx * 256 + word * 65536), v, old, BitVec.ofNat 32 h.ring]).complete h 0xA7 0 []

/-- A permission word as it is stored: context 0 keeps its bit for code 0xA7. -/
def permWord (ctx word : Nat) (v : Word) : Word := if ctx = 0 ∧ word = 5 then v ||| 0x80#32 else v

/-- `ACT_WRITE` once its checks 2 to 4 hold. -/
def Dev.actBody (h : CmdHdr) (target ctx word : Nat) (v : Word) (d : Dev) : Dev :=
  if 2 < target ∨ 7 < ctx ∨ 7 < word then d.complete h 0xA7 2 []
  else if target = 0 then d.actStore h 0 ctx word (Reg.ACT_PERM (ctx * 8 + word)) (permWord ctx word v)
  else if target = 1 then d.actStore h 1 ctx word (Reg.ACT_CTX_SLOTS ctx) (v &&& 0xFFFF#32)
  else d.actStore h 2 ctx word Reg.ACT_LOCK (v &&& 0x1F#32)

/-- `ACT_WRITE` is issued from context 0 only. -/
def Dev.actCmd (h : CmdHdr) (target ctx word : Nat) (v : Word) (d : Dev) : Dev :=
  if d.ctxOf h.ring = 0 then d.cmd h 0xA7 [] true legalCRD (Dev.actBody h target ctx word v)
  else d.cmd h 0xA7 [] true [.config, .run, .degraded, .safe] (fun d => d.refuse h 0xA7 2 4 0xFFFF [])

/-- `ACT_WRITE` of a permission word; a target above 2 completes with `BAD_ARG`. -/
def execActWrite (h : CmdHdr) (target ctx word : Nat) (v : Word) (s : State) : Out := s.onDev (Dev.actCmd h target ctx word v)

/-- `ACT_WRITE` of a slot range. -/
def execActWriteSlotRange (h : CmdHdr) (ctx : Nat) (v : Word) (s : State) : Out := s.onDev (Dev.actCmd h 1 ctx 0 v)

/-- `ACT_WRITE` of the lock word (R439, R493). -/
def execActWriteLock (h : CmdHdr) (v : Word) (s : State) : Out := s.onDev (Dev.actCmd h 2 0 0 v)

/-! ### Events -/

/-- A health test of the random generator fails (R418): the third failure in a row stops it. Which test failed is a free
value of its record. -/
def Dev.rngFailure (d : Dev) : Dev :=
  let n := d.key.rngRuns + 1
  if d.key.rngFail || !d.op.mainOn then d
  else if n < 3 then { d with key := { d.key with rngRuns := n } }
  else
    let (t, d) := d.drawN 80
    (({ d with key := { d.key with rngRuns := n, rngFail := true } }).raise Reg.KEY_EVT 1).post 0x87 [BitVec.ofNat 32 t, 0, 0, 0]

/-- `RNG_HEALTH_FAIL`. -/
def execRngHealthFail (s : State) : Out := s.onDev Dev.rngFailure

/-- The management plane installs a SAK of a port (R97, R401, R407): association `sa` of port `port`, whose slot is
248 + 2 × port + sa, with the receive channels MKA then holds. The installation runs to its flip, and the port receives and
sends under it from then on. -/
def State.sakInstall (port sa key : Nat) (keyId : Word) (scs : List Nat) (s : State) : State :=
  if 3 < port ∨ 1 < sa ∨ s.nv.keysUsable = false ∨ !(legalCRD.contains s.dev.op) then s
  else
    let slot := 248 + 2 * port + sa
    let k := s.dev.newKey s.nv s.bd slot 3 2 2 keyId 0 (Config.kcv 2 key) key
    (s.flip slot k none).mapDev (fun d => 
      let p := d.port port
      d.setPort port { p with txSa := some sa, rxSc := (scs.filter (fun c => decide (c < 16))).eraseDups.take 16,
                              pn := p.pn.filter (fun q => q.1 % 2 != sa) })

/-- `MKA_SAK_INSTALL`. -/
def execMkaSakInstall (port sa key : Nat) (keyId : Word) (scs : List Nat) (s : State) : Out :=
  .next (s.sakInstall port sa key keyId scs)

/-- 100 ms after its replacement, a `BRAZE_LINK` key leaves the working plate (R409). -/
def Dev.graceEnd (slot : Nat) (d : Dev) : Dev :=
  match KMap.get? d.key.grace slot with
  | some (_, due) => if due ≤ d.raw then { d with key := { d.key with grace := KMap.del d.key.grace slot } } else d
  | none => d

/-- `BRAZE_KEY_GRACE_END`. -/
def execBrazeKeyGraceEnd (slot : Nat) (s : State) : Out := s.onDev (Dev.graceEnd slot)

/-- A debug instruction arrives (R423): boundary scan always works; any other is ignored and counted while debug is
closed. What it does while debug is open lies with the debug unit. -/
def State.debugClosed (s : State) : Bool := !(s.nv.lc == .blank || (s.dev.key.debug && (s.nv.lc == .provisioned || s.nv.lc == .ret)))

/-- `DEBUG_INSTRUCTION`. -/
def execDebugInstruction (boundary : Bool) (s : State) : Out :=
  s.onDev (fun d => if d.op.mainOn && !boundary && s.debugClosed then d.bump Reg.TMP_DBG_DENIED 1 else d)

end Sys2Proof.Machine
end

