-- ==== Sys2Proof/Machine/PtpOps.lean ====
section
/-! DEFINITION. The PTP port instances (02_time_base.md, R56 to R64): intervals, received messages, the offset, the port
used for source 1, and the messages a port originates. -/

namespace Sys2Proof.Machine

/-- A signed 4-bit log interval of `TBU_PORTn_PTP`, 0 outside its range, in ns. -/
def logNs (v : Nat) (lo hi : Int) : Nat :=
  let s := signedOf 4 v
  if s < lo ∨ hi < s then 1000000000 else if 0 ≤ s then 1000000000 * 2 ^ s.toNat else 1000000000 / 2 ^ (-s).toNat

/-- The Sync interval of a port. -/
def Dev.syncNs (n : Nat) (d : Dev) : Nat := logNs (d.fld (Reg.TBU_PORT_PTP n) 12 4) (-4) 1
/-- The Announce interval of a port. -/
def Dev.annNs (n : Nat) (d : Dev) : Nat := logNs (d.fld (Reg.TBU_PORT_PTP n) 16 4) (-3) 2
/-- The Pdelay interval of a port. -/
def Dev.pdelayNs (n : Nat) (d : Dev) : Nat := logNs (d.fld (Reg.TBU_PORT_PTP n) 20 4) (-4) 1
/-- `EN`. -/
def Dev.ptpEn (n : Nat) (d : Dev) : Bool := d.rbit (Reg.TBU_PORT_PTP n) 0
/-- `ROLE`, 3 acting as 0. -/
def Dev.ptpRole (n : Nat) (d : Dev) : Nat := d.fld (Reg.TBU_PORT_PTP n) 1 2 % 3
/-- `PORT_STATE`: 3 DISABLED, 4 LISTENING, 6 MASTER, 7 PASSIVE, 8 UNCALIBRATED, 9 SLAVE. -/
def Dev.ptpState (n : Nat) (d : Dev) : Nat := d.fld (Reg.TBU_PORT_PTP n) 28 4
/-- Set `PORT_STATE`. -/
def Dev.setPtpState (n st : Nat) (d : Dev) : Dev := d.setField (Reg.TBU_PORT_PTP n) 28 4 st
/-- Raw time without an Announce after which a port's master is gone (R69). -/
def Dev.annTimeout (n : Nat) (d : Dev) : Nat := max 2 (d.fld (Reg.TBU_PORT_PTP n) 24 3) * d.annNs n

/-- `EN` of a port instance has been written: it starts LISTENING, or is DISABLED. -/
def Dev.ptpEnable (n : Nat) (on : Bool) (d : Dev) : Dev :=
  if on then (d.setPtp n { PtpS.new with lastAnn := d.raw, lastSync := d.raw }).setPtpState n (if d.ptpRole n = 2 then 6 else 4)
  else (d.setPtp n PtpS.new).setPtpState n 3

/-- Spread of the recent offsets of a port (R58): the last `QUAL_INTERVALS` of them. -/
def Dev.spread (n : Nat) (d : Dev) : Int :=
  match (d.ptpS n).offs.take (max 2 (d.fld Reg.TBU_SRC_CTRL 17 4)) with
  | [] => 0
  | o :: t => t.foldl max o - t.foldl min o

/-- The two ports of a pair that follow one grandmaster: the one with the smaller spread is used, the other PASSIVE (R58). -/
def Dev.ptpPair (pair : Nat) (d : Dev) : Dev :=
  let a := 2 * pair
  let b := 2 * pair + 1
  let live (n : Nat) : Bool := decide (7 ≤ d.ptpState n) && d.ptpEn n
  if live a && live b && (d.ptpS a).gm == (d.ptpS b).gm then
    let (w, l) := if d.spread b < d.spread a then (b, a) else (a, b)
    let d := if d.ptpState w = 7 then d.setPtpState w (if d.ptpState l = 9 then 9 else 8) else d
    let d := d.setPtpState l 7
    if d.tbu.ptpPort = l then { d with tbu := { d.tbu with ptpPort := w } } else d
  else d

/-- The UTC figures of the selected source (R77, R79): an offset and the announced leap, which replaces one that came from
a source before. -/
def Dev.utcFrom (off : Option Int) (leap61 leap59 : Bool) (d : Dev) : Dev :=
  let d := match off with
    | some o => (d.setField Reg.TBU_UTC 0 8 (o % 256).toNat).setField Reg.TBU_UTC 11 1 1
    | none => d
  if leap61 || leap59 then d.setLeap 1 leap59
  else if d.tbu.leapSrc = 1 then { d with tbu := { d.tbu with leapSrc := 0 } }.setField Reg.TBU_UTC 8 2 0
  else d

/-- A port becomes the one used for source 1 and its state follows whether the source is selected. -/
def Dev.ptpUse (n : Nat) (d : Dev) : Dev :=
  let sel := d.tbu.src == 1 && (d.srcS 1).qualified
  ({ d with tbu := { d.tbu with ptpPort := n } }).setPtpState n (if sel then 9 else 8)

/-- An Announce (R54, R57): the grandmaster is followed when the best master clock algorithm chooses it, and one offset per
Announce interval counts towards the qualification of source 1. -/
def Dev.ptpAnnounce (n gm cls : Nat) (better : Bool) (off : Int) (valid l61 l59 : Bool) (inacc : Nat) (d : Dev) : Dev :=
  let x := d.ptpS n
  if d.ptpRole n = 2 then d
  else if !better then
    if d.ptpRole n = 0 then d.setPtpState n 6 else d
  else
    let other := decide (x.gm ≠ gm) || decide (d.ptpState n < 7)
    let x := if other then { x with offs := [], fresh := none, t2 := none } else x
    let d := d.setPtp n { x with lastAnn := d.raw, gm := gm, class_ := cls, utcOff := off, utcValid := valid, leap61 := l61,
                                 leap59 := l59, inacc := inacc }
    let d := if other then d.setPtp n { d.ptpS n with lastSync := d.raw } else d
    let rest := [0, 1, 2, 3].filter (fun q => q != n && decide (7 ≤ d.ptpState q) && (d.ptpS q).gm != gm)
    let d := rest.foldl (fun e q => e.setPtpState q (if e.rbit Reg.TBU_CTRL 3 && e.ptpRole q == 0 then 6 else 4)) d
    let d := if other then (if decide (7 ≤ d.ptpState (n ^^^ 1)) && (d.ptpS (n ^^^ 1)).gm == gm then d.setPtpState n 7 else d.ptpUse n) else d
    let d := d.ptpPair (n / 2)
    if d.ptpState n = 7 then d
    else
      let d := if d.tbu.src = 1 && d.tbu.ptpPort = n then d.utcFrom (if valid then some off else none) l61 l59 else d
      match (d.ptpS n).fresh, (d.srcS 1).qualified with
      | some o, false =>
        let d := (d.setPtp n { d.ptpS n with fresh := none }).measure 1 o
        if (d.srcS 1).qualified then d.ptpUse n else d
      | _, _ => d

/-- An offset of a port (R64): it counts for the choice between the ports of its pair, and for source 1 when the port is
the one in use. -/
def Dev.ptpOffset (n : Nat) (o : Int) (d : Dev) : Dev :=
  let x := d.ptpS n
  let d := (d.setPtp n { x with offs := (o :: x.offs).take 15, fresh := some o, lastSync := d.raw, t2 := none }).ptpPair (n / 2)
  if 8 ≤ d.ptpState n && (d.srcS 1).qualified && d.tbu.ptpPort = n then (d.measure 1 o).ptpUse n else d

/-- A PTP message of an enabled port instance arrives (row 1 of Table 3.1). -/
def Dev.ptpReceive (n : Nat) (m : PtpMsg) (d : Dev) : Dev :=
  if !d.ptpEn n then d
  else
    let x := d.ptpS n
    let at_ := d.t16 - (d.fld (Reg.TBU_PORT_RXLAT n) 0 24 * 256 : Nat)
    let asym := signedOf 32 (d.reg (Reg.TBU_PORT_ASYM n)).toNat * 256
    match m with
    | .announce gm cls better off valid l61 l59 inacc => d.ptpAnnounce n gm cls better off valid l61 l59 inacc
    | .sync two origin corr =>
      if d.ptpState n < 7 then d
      else if two then d.setPtp n { x with t2 := some (at_ - corr), lastSync := d.raw }
      else d.ptpOffset n (at_ - origin - corr - x.delay - asym)
    | .followUp origin corr =>
      match x.t2 with
      | some t2 => if d.ptpState n < 7 then d else d.ptpOffset n (t2 - origin - corr - x.delay - asym)
      | none => d
    | .pdelayReq =>
      d.enqueue n .express { body := .ptp 3 (d.fld (Reg.TBU_PORT_PTP n) 4 8) at_ 0 none, prp := none, len := 72, cls := 0, host := none }
    | .pdelayResp t2 t3 =>
      match x.t1p with
      | some t1 => d.setPtp n { x with t1p := none, delay := Int.tdiv ((at_ - t1) - (t3 - t2)) 2 }
      | none => d

/-- The class a master advertises (R60); a free value where the rule gives none. -/
def Dev.clockClass (d : Dev) : Nat × Dev :=
  if d.tbu.sync = 0 then (248, d)
  else if d.tbu.sync = 3 then (if d.uncert ≤ d.fld Reg.TBU_HOLD 16 16 * 100 then 7 else 187, d)
  else if d.tbu.sync = 2 && (d.tbu.src == 2 || d.tbu.src == 3) then (6, d)
  else if d.tbu.sync = 2 && d.tbu.src == 1 && d.rbit Reg.TBU_CTRL 3 then ((d.ptpS d.tbu.ptpPort).class_, d)
  else d.drawN 5

/-- A port is master: it is in MASTER, or LISTENING with the Announce timeout passed; an ordinary clock that follows a
master on one port sends on none. -/
def Dev.ptpMaster (n : Nat) (d : Dev) : Bool :=
  let follows := [0, 1, 2, 3].any (fun q => decide (7 ≤ d.ptpState q))
  (d.rbit Reg.TBU_CTRL 3 || !follows) &&
    (d.ptpState n == 6 || (d.ptpState n == 4 && d.ptpRole n == 0 && decide ((d.ptpS n).lastAnn + d.annTimeout n ≤ d.raw)))

/-- A port originates a message at its interval (R59). -/
def Dev.ptpSend (n : Nat) (kind : PtpTx) (d : Dev) : Dev :=
  let x := d.ptpS n
  let dom := d.fld (Reg.TBU_PORT_PTP n) 4 8
  let mk (k : Nat) (a b : Int) (tlv : Option Nat) (len cls : Nat) : TxFrame :=
    { body := .ptp k dom a b tlv, prp := none, len := len, cls := cls, host := none }
  if !d.ptpEn n || !d.portUp n || !d.op.mainOn || d.op == .boot then d
  else
    match kind with
    | .sync =>
      if d.ptpMaster n && decide (x.nextSync ≤ d.raw) then
        (d.setPtp n { x with nextSync := d.raw + d.syncNs n }).enqueue n .express (mk 0 0 0 none 64 0)
      else d
    | .announce =>
      if d.ptpMaster n && decide (x.nextAnn ≤ d.raw) then
        let d := (d.setPtp n { x with nextAnn := d.raw + d.annNs n }).setPtpState n 6
        let up := d.rbit Reg.TBU_CTRL 3 && d.tbu.src == 1
        let (own, d) := if up then ((d.ptpS d.tbu.ptpPort).inacc + 50, d) else d.drawN 4
        let tlv := if d.rbit (Reg.TBU_PORT_PTP n) 3 then some own else none
        let (cls, d) := d.clockClass
        d.enqueue n .preempt (mk 11 (cls : Nat) ((d.reg Reg.TBU_UTC).toNat % 65536 : Nat) tlv 84 1)
      else d
    | .pdelayReq =>
      if x.nextReq ≤ d.raw then
        (d.setPtp n { x with nextReq := d.raw + d.pdelayNs n }).enqueue n .express (mk 2 0 0 none 72 0)
      else d

/-- Whether source 1 has missed its Announce or Sync messages (R69). -/
def Dev.ptpSilent (n : Nat) (d : Dev) : Bool :=
  let x := d.ptpS n
  decide (x.lastAnn + d.annTimeout n ≤ d.raw) || decide (x.lastSync + 3 * d.syncNs n ≤ d.raw)

/-- The port of source 1 is silent: the other port of its pair takes over when it follows the same grandmaster, otherwise
the source is lost. -/
def Dev.ptpLost (d : Dev) : Dev :=
  let n := d.tbu.ptpPort
  let m := n ^^^ 1
  let d := d.setPtpState n (if d.ptpRole n = 0 then 6 else 4)
  if d.ptpState m = 7 && !d.ptpSilent m && (d.ptpS m).gm == (d.ptpS n).gm then d.ptpUse m else d.loseSrc 1

end Sys2Proof.Machine
end

