-- ==== Sys2Proof/Machine/Flg.lean ====
section
/-! DEFINITION. The meanings of Filigree's commands (11_filigree_mesh.md). The outgoing hop counter is kept in MRAM in
steps of 65,536 (R356): each meaning that can send moves the step with it. -/

namespace Sys2Proof.Machine

/-- A meaning of Filigree: the main domain changes, and the counter step in MRAM follows the counter. -/
def State.onFlg (f : Dev → Dev) (s : State) : Out :=
  let d := f s.dev
  .next { s with dev := d, nv := { s.nv with hopCtr := max s.nv.hopCtr (d.flg.ctr / 65536) } }

/-- `FLG_FRAME_RECEIVED` (R338). -/
def execFlgFrameReceived (f : FlgFrame) (s : State) : Out := s.onFlg (Dev.flgReceive f)

/-- An enhanced beacon at a multiple of `BCN_MS` (R341). -/
def Dev.beaconStep (d : Dev) : Dev :=
  if !d.flgTxOn || decide (d.tick < d.flg.nextBcn) then d
  else
    let bcn : Int := (d.bcnMs * 1000000 : Nat)
    let d := { d with flg := { d.flg with nextBcn := (d.tick / bcn + 1) * bcn } }
    let f := d.mkFrame 0 0xFFFF none none false []
    d.radioSend f false none none none

/-- `FLG_BEACON`. -/
def execFlgBeacon (s : State) : Out := s.onFlg Dev.beaconStep

/-- A channel access failure (R347): the frame fails with reason 1, and a beacon is skipped. -/
def Dev.ccaFail (x : FlgTx) (rest : List FlgTx) (d : Dev) : Dev :=
  let d := ({ d with flg := { d.flg with queue := rest } }).bump Reg.FLG_CCA_FAIL 1
  let d := if x.f.kind = 0 then d.bump Reg.FLG_BCN_SKIPPED 1 else d
  (d.txEnd x 1).radioNext

/-- A back-off expires with the readings of the clear channel assessment (R347). -/
def Dev.backoffStep (rssi : List Int) (d : Dev) : Dev :=
  match d.flg.queue with
  | [] => d
  | x :: rest =>
    if !d.flgTxOn || d.flg.air.isSome || !x.ready || decide (d.raw < x.due) then d
    else
      let lim := signedOf 8 (d.fld Reg.FLG_LBT 16 8)
      if rssi.all (fun r => decide (r < lim)) then ({ d with flg := { d.flg with queue := rest } }).radioGo x
      else if d.fld Reg.FLG_LBT 12 3 < x.nb + 1 then d.ccaFail x rest
      else
        let (y, d) := d.backoff { x with nb := x.nb + 1, be := min (x.be + 1) (d.fld Reg.FLG_LBT 8 4) }
        { d with flg := { d.flg with queue := y :: rest } }

/-- `FLG_BACKOFF`. -/
def execFlgBackoff (rssi : List Int) (s : State) : Out := s.onFlg (Dev.backoffStep rssi)

/-- The Enh-Ack that is due first is sent (R348). -/
def Dev.ackStep (d : Dev) : Dev :=
  match d.flg.acks with
  | [] => d
  | (due, dst, seq, pend) :: rest =>
    if !d.flgTxOn || decide (d.raw < due) then d
    else
      let d := { d with flg := { d.flg with acks := rest } }
      let f := d.mkFrame 2 dst none none pend []
      let (c, d) := d.takeCtr
      let lat := d.fld Reg.FLG_RLP_TXLAT 0 24
      let d := { d with flg := { d.flg with ackPred := some (d.raw + lat) } }
      (d.emit (.radio { f with seq := seq, counter := c, timing := some (d.timingIe (d.tick + (lat : Int))) })).wrapAdd
        Reg.FLG_TX_FRAMES 1

/-- `FLG_ACK_TURNAROUND`. -/
def execFlgAckTurnaround (s : State) : Out := s.onFlg Dev.ackStep

/-- `WAIT_US` after the frame ended without an acknowledgement (R349). -/
def Dev.ackTimeoutStep (d : Dev) : Dev :=
  match d.flg.air with
  | none => d
  | some a =>
    match a.sfd with
    | none => d
    | some t =>
      let wait := clampNat 1000 65535 (d.fld Reg.FLG_ACK 16 13 * 8) * 1000
      if !a.tx.uni || decide (d.raw < t + d.airNs a.tx.f.len + wait) then d
      else ({ d with flg := { d.flg with air := none } }).noAck a.tx

/-- `FLG_ACK_TIMEOUT`. -/
def execFlgAckTimeout (s : State) : Out := s.onFlg Dev.ackTimeoutStep

/-- The oldest held frame whose time has passed expires (R350, R351); a command that waits for it ends with reason 3. -/
def Dev.heldExpiry (d : Dev) : Dev :=
  match d.flg.held.find? (fun x => decide (x.due ≤ d.raw)) with
  | none => d
  | some x =>
    let d := { d with flg := { d.flg with queue := d.flg.queue.filter (fun q => q.held != some x.id) } }
    let d := (d.unhold x.id).flgFinish x.hdr (some x.node) 3
    (d.modNode x.node (fun y => { y with bufDrop := min 65535 (y.bufDrop + 1) })).bump Reg.FLG_BUF_DROP 1

/-- `FLG_HELD_FRAME_EXPIRY`. -/
def execFlgHeldFrameExpiry (s : State) : Out := s.onFlg Dev.heldExpiry

/-- A node without an accepted frame for 3 contact intervals becomes LOST (R352). -/
def Dev.nodeLost (n : Nat) (d : Dev) : Dev :=
  let x := d.flgNode n
  if !d.flgOn || x.st != 2 || decide (d.raw ≤ x.heardRaw + 3 * d.contactNs n) then d
  else
    let d := (d.setNodeState n 3).dropHeld n 4 true
    let mine := d.flg.queue.filter (fun q => q.node == some n)
    let d := { d with flg := { d.flg with queue := d.flg.queue.filter (fun q => q.node != some n) } }
    let d := mine.foldl (fun d q => d.flgFinish q.hdr (some n) 4) d
    match d.flg.air with
    | some a =>
      if a.tx.node = some n then
        ({ d with flg := { d.flg with air := some { a with tx := { a.tx with hdr := none } } } }).flgFinish a.tx.hdr (some n) 4
      else d
    | none => d

/-- `FLG_NODE_LOST`. -/
def execFlgNodeLost (n : Nat) (s : State) : Out := s.onFlg (Dev.nodeLost n)

/-- A parent beacon has not come within the 10 ms around its expected SFD (R353). -/
def Dev.beaconMissed (d : Dev) : Dev :=
  match d.flg.expect with
  | none => d
  | some t =>
    if !d.flgOn || !d.isRouter || d.flg.up != 2 || decide (d.raw ≤ t + 5000000) then d
    else if 3 ≤ d.flg.missed + 1 then d.orphan
    else { d with flg := { d.flg with missed := d.flg.missed + 1, expect := some (t + d.bcnMs * 1000000) } }

/-- `FLG_PARENT_BEACON_MISSED`. -/
def execFlgParentBeaconMissed (s : State) : Out := s.onFlg Dev.beaconMissed

/-- A flood is sent again after its random delay (R354). -/
def Dev.relayStep (d : Dev) : Dev :=
  match d.flg.relay.find? (fun r => decide (r.1 ≤ d.raw)) with
  | none => d
  | some r =>
    let d := { d with flg := { d.flg with relay := d.flg.relay.erase r } }
    d.radioSend r.2 false none none none

/-- `FLG_FLOOD_RELAY`. -/
def execFlgFloodRelay (s : State) : Out := s.onFlg Dev.relayStep

/-- `FLG_SEEN_EXPIRY`: identifiers held for `SEEN_S` leave the seen cache (R354). -/
def execFlgSeenExpiry (s : State) : Out :=
  s.onFlg (fun d => { d with flg := { d.flg with seen := d.flg.seen.filter (fun x => decide (d.raw < x.2.2)) } })

/-- A rising edge of `RLP_SFD` (R336): the SFD of the acknowledgement or the frame on the air, compared with its prediction, or of a
frame that is being received. The stamp is uncertain by 8 ns (log entry 10). -/
def Dev.sfdEdge (d : Dev) : Dev :=
  let (u, d) := d.drawI 72
  let stamp := ((d.raw : Int) + (u % 17 - 8)).toNat
  let late (pred : Nat) (d : Dev) : Dev :=
    let dev := ((stamp : Int) - (pred : Int)).natAbs
    let tol := zeroActs 1 (d.fld Reg.FLG_RLP_CTRL 8 8) * 1000
    (if tol < dev then d.bump Reg.FLG_SFD_LATE 1 else d).keepMax Reg.FLG_SFD_DEV dev 4294967295
  match d.flg.ackPred, d.flg.air with
  | some p, _ => late p { d with flg := { d.flg with ackPred := none } }
  | none, some a =>
    if a.sfd.isSome then { d with flg := { d.flg with sfd := stamp } }
    else
      let d := late a.pred d
      if a.tx.uni then { d with flg := { d.flg with air := some { a with sfd := some stamp } } }
      else (({ d with flg := { d.flg with air := none } }).txEnd a.tx 0).radioNext
  | none, none => { d with flg := { d.flg with sfd := stamp } }

/-- `RLP_SFD_EDGE`. -/
def execRlpSfdEdge (s : State) : Out := s.onFlg (fun d => if d.flgOn then d.sfdEdge else d)

/-- No SFD within 2 ms of a prediction: a radio link fault of cause 1 (R337). -/
def Dev.sfdTimeout (d : Dev) : Dev :=
  let past (p : Nat) : Bool := decide (p + 2000000 < d.raw)
  let air := match d.flg.air with
    | some a => a.sfd.isNone && past a.pred
    | none => false
  let ack := match d.flg.ackPred with
    | some p => past p
    | none => false
  if air || ack then d.rlpFault 1 0 else d

/-- `RLP_SFD_TIMEOUT`. -/
def execRlpSfdTimeout (s : State) : Out := s.onFlg (fun d => if d.flgOn then d.sfdTimeout else d)

/-- The transceiver's reset ends: `CONFIG` and `RX_ON` again (R337). -/
def Dev.rlpResetEnd (d : Dev) : Dev :=
  match d.flg.rst with
  | some t =>
    if d.raw < t then d
    else
      let d := ({ d with flg := { d.flg with rst := none } }).emit (.rlpReset false)
      if d.flgOn then d.rlpConfig.radioNext else d
  | none => d

/-- `RLP_RESET_END`. -/
def execRlpResetEnd (s : State) : Out := s.onFlg Dev.rlpResetEnd

/-- A host payload of this device for a node, or for every node (Table 11.8). -/
def Dev.hostE2e (data : List Byte) (d : Dev) : E2e × Dev :=
  let rc := d.flg.rcOut + 1
  let d := { d with flg := { d.flg with rcOut := rc } }
  ({ typ := 2, epoch := d.flgEpoch, rc := BitVec.ofNat 32 rc, micOk := true, tick := 0, stat := 0, pay := none, psize := 0,
     data := data, child := 0, depth := 0 }, d)

/-- `FLG_SEND` once its checks 2 to 4 hold (R360). -/
def Dev.flgSendCmd (h : CmdHdr) (node : Nat) (force : Bool) (len : Nat) (data : List Byte) (memErr : Bool) (d : Dev) : Dev :=
  let every := decide (node = 0xFFFF)
  let flood := every || force || !(d.flgNode node).direct
  if (2047 < node ∧ !every) ∨ len < 1 ∨ 128 < len then d.complete h 0x90 2 []
  else if !every && !force && (d.flgNode node).st != 2 then d.refuse h 0x90 6 1 0xFFFF []
  else if memErr then d.memFail h 0x90 []
  else if !d.flgOn || d.flg.ended then d.complete h 0x90 7 [0, 0, 1]
  else if d.flg.up = 1 && flood then d.complete h 0x90 7 [0, 0, 5]
  else
    let (e, d) := d.hostE2e (data.take len)
    if flood then d.ownFlood (if every then 2 ^ 64 - 1 else nEui d.act node) e (some (h, 0x90))
    else if nSleepy d.act node && !d.canHold node then d.complete h 0x90 3 []
    else
      let m : MeshIe := { origin := d.ownEui, dest := nEui d.act node, ttl := zeroActs 1 (d.fld Reg.FLG_FLOOD 0 4), flood := false,
                          up := false, seq := 0 }
      d.toChild node 1 (some m) (some e) [] (some (h, 0x90))

/-- `FLG_SEND`. -/
def execFlgSend (h : CmdHdr) (node : Nat) (force : Bool) (_addr len : Nat) (data : List Byte) (memErr : Bool) (s : State) : Out :=
  s.onFlg (fun d => d.cmd h 0x90 [] s.fuse.part.hasFlg [.run, .degraded] (Dev.flgSendCmd h node force len data memErr))

/-- `FLG_DISASSOC` once its checks 2 to 4 hold (R361). -/
def Dev.flgDisassocCmd (h : CmdHdr) (node : Nat) (d : Dev) : Dev :=
  if 2047 < node then d.complete h 0x91 2 []
  else if !((d.flgNode node).st == 2 && (d.flgNode node).direct) then d.refuse h 0x91 6 1 0xFFFF []
  else if nSleepy d.act node && !d.canHold node then d.complete h 0x91 3 []
  else if !d.flgOn || d.flg.ended then (d.setNodeState node 1).complete h 0x91 0 []
  else d.toChild node 4 none none [] (some (h, 0x91))

/-- `FLG_DISASSOC`. -/
def execFlgDisassoc (h : CmdHdr) (node : Nat) (s : State) : Out :=
  s.onFlg (fun d => d.cmd h 0x91 [] s.fuse.part.hasFlg [.run, .degraded] (Dev.flgDisassocCmd h node))

end Sys2Proof.Machine
end

