-- ==== Sys2Proof/Machine/ValOps.lean ====
section
/-! DEFINITION. Validation of a stream table commit (R118, R521): the checks of Table 3.11 on stream entries, of R161 and R162
on channels, and of Tables 7.2, 8.3, 10.3 and 11.6, on a snapshot `t` of the staged tables. Only what is in use is judged.
The first failing object is the lowest of the first table that fails, in the order stream entries, homing, channels, nodes,
Densitometer, Shutter, Publisher; its reason is its lowest. -/

namespace Sys2Proof.Machine

/-- Whether a word has a bit of a mask set. -/
def hasBits (w : Word) (mask : Nat) : Bool := w.toNat &&& mask != 0

/-- The reason of the first check that fails. -/
def firstBad (cs : List (Bool × Nat)) : Option Nat := (cs.find? (fun c => c.1)).map (fun c => c.2)

/-- The first object of a list that fails, with its offset, and its reason. -/
def firstObj (off : Nat) (is : List Nat) (f : Nat → Option Nat) : Option (Nat × Nat) :=
  is.findSome? (fun i => (f i).map (fun r => (i + off, r)))

/-- Phasors, analogues and digital words of an entry's layout (kind 2: one phasor). -/
def layoutOf (e : List Word) : Nat × Nat × Nat := if eKind e = 2 then (1, 0, 0) else (ePh e, eAn e, eDg e)

/-- A valid entry of kind 0, 2, 3 or 4 of a table. -/
def phasorEntry (t : SMap) (i : Nat) : Option (List Word) :=
  let e := entryIn t i
  if eValid e && eKind e != 1 then some e else none

/-! ### Stream entries (Table 3.11) -/

/-- Two entries have the same lookup key. -/
def sameKey (a b : List Word) : Bool :=
  eKind a == eKind b &&
    (match eKind a with
    | 0 => ePair a == ePair b && (ew a 0).bit 5 == (ew b 0).bit 5 && eAddr a == eAddr b && ew a 1 == ew b 1
    | 1 => ePair a == ePair b && eAddr a % 2 ^ 48 == eAddr b % 2 ^ 48 && eId a == eId b
    | _ => eId a == eId b)

/-- Reserved bits of an entry (Table 3.7). -/
def streamRsvd (e : List Word) : Bool :=
  hasBits (ew e 0) 0xFC0000C0 || hasBits (ew e 8) 0x8000FFFC || hasBits (ew e 10) 0xFFFF00C0 ||
    (eKind e == 0 && !(ew e 0).bit 5 && (ew e 3 != 0 || ew e 4 != 0 || ew e 5 != 0)) ||
    (eKind e == 1 && (hasBits (ew e 3) 0xFFFF0000 || ew e 4 != 0 || ew e 5 != 0))

/-- Channels of a kind 1 entry: first and past the last. -/
def svRange (e : List Word) : Nat × Nat := ((ew e 6).field 21 9, (ew e 6).field 21 9 + ePh e)

/-- Reason 8 at entry `i`: its channels overlap those of an earlier entry or exceed the part's, or the total of streams or
of channels at 96,000 samples/s is exceeded with it. -/
def svTooMany (fz : Fuse) (t : SMap) (i : Nat) (valid : List Nat) : Bool :=
  let e := entryIn t i
  let upto := (valid.filter (fun j => decide (j ≤ i) && eKind (entryIn t j) == 1)).map (fun j => (j, entryIn t j))
  let r := svRange e
  decide (fz.part.channels < r.2) ||
    upto.any (fun p => p.1 != i && decide ((svRange p.2).1 < r.2) && decide (r.1 < (svRange p.2).2)) ||
    decide (64 < upto.length) ||
    decide (16 < ((upto.filter (fun p => eRate p.2 == 4)).map (fun p => ePh p.2)).sum)

/-- `SRC_ID` out of range for the kind (R162, Table 11.6). -/
def srcBad (fz : Fuse) (t : SMap) (e : List Word) : Bool :=
  match eKind e with
  | 2 => decide (2 * fz.part.channels ≤ eId e) || !chEn t (eId e / 2)
  | 3 => decide (511 < eId e)
  | 4 => decide (2047 < eId e) || !nEn t (eId e)
  | _ => false

/-- The checks of a valid stream entry. -/
def Dev.streamBad (fz : Fuse) (t : SMap) (valid : List Nat) (i : Nat) (d : Dev) : Option Nat :=
  let e := entryIn t i
  let k := eKind e
  let limits := match k with
    | 1 => ePh e == 0 || decide (24 < ePh e) || eAn e == 0 || decide (8 < eAn e)
    | 2 => false
    | _ => decide (64 < ePh e) || decide (16 < eAn e) || decide (16 < eDg e) || (k == 4 && decide (144 < ePayload e))
  let tb := (ew e 7).toNat
  let integer := !(eFmt e).testBit 1 || !(eFmt e).testBit 2
  let scBad := (ew e 10).bit 1 && [2 * ePair e, 2 * ePair e + 1].any (fun p => !(d.port p).rxSc.contains ((ew e 10).field 2 4))
  firstBad
    [(decide (4 < k), 1), (k == 4 && !fz.part.hasFlg, 2),
     (decide ((if k = 1 then 4 else if k = 4 then 3 else 11) < eRate e), 3), (limits, 4),
     (k == 0 && (tb == 0 || decide (16777215 < tb)), 5),
     (valid.any (fun j => decide (j < i) && sameKey (entryIn t j) e), 6),
     (k == 0 && integer && decide (32768 < eScale e + ePh e + eAn e), 7),
     (k == 1 && svTooMany fz t i valid, 8),
     (k != 1 && !eAuto e && decide (fz.part.tiles ≤ eTile e), 9),
     (decide (k ≤ 1) && scBad, 10),
     ((k == 3 && (d.keyFor 4 (eKeySlot e)).isNone) || (k == 4 && eKeySlot e != nKey t (eId e)), 11),
     (streamRsvd e, 13), (srcBad fz t e, 14)]

/-! ### Channels and nodes (R161, Table 11.6) -/

/-- The checks of an enabled channel. -/
def chanBad (fz : Fuse) (t : SMap) (c : Nat) : Option Nat :=
  let k := chTrk t c
  firstBad [(decide (fz.part.channels ≤ k) || !chEn t k || chTrk t k != k, 4),
    (!F32.isFin (chIn t c 1) || !F32.lt 0 (chIn t c 1), 4), (hasBits (chIn t c 0) 0xFE0000C0, 13)]

/-- The checks of an enabled node. -/
def Dev.nodeBad (t : SMap) (n : Nat) (d : Dev) : Option Nat :=
  let e := nEui t n
  firstBad [(e == 0 || e == 2 ^ 64 - 1, 4), ((nodesIn t).any (fun m => decide (m < n) && nEui t m == e), 6),
    ((d.keyFor 6 (nKey t n)).isNone, 11),
    (hasBits (nodeW t n 0) 0xF8 || [4, 5, 6, 7].any (fun w => nodeW t n w != 0), 13)]

/-! ### The Densitometer's tables (Table 7.2) -/

/-- Enabled signals, ascending. -/
def signalsIn (t : SMap) : List Nat := sigsWith t 0

/-- Whether phasor `ph` lies in the layout of stream `s`. -/
def phasorIn (t : SMap) (s ph : Nat) : Bool :=
  match phasorEntry t s with
  | some e => decide (ph < (layoutOf e).1)
  | none => false

/-- The checks of an enabled signal. -/
def Dev.signalBad (fz : Fuse) (t : SMap) (i : Nat) (d : Dev) : Option Nat :=
  let w := sigW t i 0
  let q := w.field 3 3
  let sel := w.field 6 9
  let s := w.field 15 13
  let modal := w.bit 1
  let beyond :=
    if q = 4 then decide (fz.part.signals / 2 ≤ sel)
    else match phasorEntry t s with
      | none => true
      | some e =>
        (if q = 1 ∨ q = 2 then decide ((layoutOf e).1 ≤ sel) else if q = 3 then decide ((layoutOf e).2.1 ≤ sel) else false)
          || (modal && decide (rateOf (eRate e) < d.aRate))
  let many := modal && decide (fz.part.signals < ((signalsIn t).filter (fun j => decide (j ≤ i) && (sigW t j 0).bit 1)).length)
  firstBad [(decide (4 < q) || (w.bit 2 && q != 1 && q != 2) || beyond || many, 4), (hasBits w 0xF0000000, 13)]

/-- The checks of an enabled branch. -/
def branchBad (t : SMap) (b : Nat) : Option Nat :=
  let w (n : Nat) : Word := brW t b n
  let off (n : Nat) : Bool := !phasorIn t ((w n).field 0 13) ((w n).field 13 6)
  firstBad [(off 1 || off 2 || !F32.isFin (w 3) || F32.eq (w 3) 0, 4),
    (hasBits (w 0) 0xFFFFF00E || hasBits (w 1) 0xFFF80000 || hasBits (w 2) 0xFFF80000, 13)]

/-- Enabled flags, ascending. -/
def flagsIn (t : SMap) : List Nat := (List.range 64).filter (fun f => (flagW t f 0).bit 0)

/-- `ARG` out of range for `COND` (Table 7.9). -/
def argBad (t : SMap) (cond arg : Nat) : Bool :=
  match cond with
  | 1 => !((sigW t arg 0).bit 0 && (sigW t arg 0).bit 1) || decide (4095 < arg)
  | 2 => !((sigW t arg 0).bit 0 && (sigW t arg 0).bit 1) || decide (4095 < arg)
  | 3 => decide (14 < arg) && arg != 65535
  | 5 => decide (4 < arg)
  | _ => arg != 0

/-- The checks of an enabled flag. -/
def flagBad (t : SMap) (f : Nat) : Option Nat :=
  let w (n : Nat) : Word := flagW t f n
  let cond := (w 0).field 1 3
  firstBad [(decide (5 < cond) || decide ((w 1).field 16 16 ≤ (w 1).field 0 16) || !F32.isFin (w 2) || !F32.isFin (w 3) ||
      F32.lt (w 3) 0 || argBad t cond ((w 4).field 0 16), 4),
    (hasBits (w 0) 0xF0 || hasBits (w 4) 0xFFFF0000, 13)]

/-! ### Shutter's tables (Table 8.3) -/

/-- Native rate of an SV channel under a table; 0 when nothing feeds it. -/
def svRateIn (t : SMap) (c : Nat) : Nat :=
  match (validIn t).find? (fun i => let e := entryIn t i; eKind e == 1 && decide ((svRange e).1 ≤ c) && decide (c < (svRange e).2)) with
  | some i => svRate (eRate (entryIn t i))
  | none => 0

/-- B_g x 256 (R277). -/
def groupRate (t : SMap) (g : Nat) : Nat :=
  ((svOf t g).map (fun c => (4 * 256 + 32) * svRateIn t c)).sum
    + ((phOf t g).map (fun p => (20 * 256 + 32) * rateOf (eRate (entryIn t (phChan t p).1)))).sum

/-- The DRAM areas of a group in MiB: base and size of ring and store. -/
def groupAreas (t : SMap) (g : Nat) : List (Nat × Nat) :=
  [((gW t g 5).field 0 13, (gW t g 5).field 16 14), ((gW t g 6).field 0 13, (gW t g 6).field 16 14)]

/-- Two areas overlap. -/
def overlap (a b : Nat × Nat) : Bool := decide (a.1 < b.1 + b.2) && decide (b.1 < a.1 + a.2)

/-- Reserved bits of a capture group entry. -/
def groupRsvd (t : SMap) (g : Nat) : Bool :=
  [(0, 0xF0C0), (1, 0xFFFE0000), (2, 0xFFF00000), (3, 0xC000), (4, 0xF000F000), (5, 0xC000E000), (6, 0xC000E000), (7, 0xF800F0),
   (8, 0xFFFF0000)].any (fun p => hasBits (gW t g p.1) p.2)
    || [9, 10, 11, 12, 13, 14].any (fun w => gW t g w != 0)

/-- Enabled groups, ascending. -/
def groupsIn (t : SMap) : List Nat := (List.range 16).filter (fun g => gEn t g)

/-- The checks of an enabled group. -/
def Dev.groupBad (fz : Fuse) (t : SMap) (g : Nat) (d : Dev) : Option Nat :=
  let post := (gW t g 2).field 0 20
  let pre := (gW t g 1).field 0 17
  let code := (gW t g 0).field 8 4
  let areas := groupAreas t g
  let others := ((groupsIn t).filter (fun h => h != g)).flatMap (fun h => groupAreas t h)
  let spill := if d.spillEn then [(d.fld Reg.EAS_SPILL_BASE 0 13, 12 * fz.part.tiles)] else []
  let dram := d.fld Reg.MEM_CFG 0 13
  let maskCh := (gW t g 7).field 8 11
  let maskIn := if (gW t g 7).bit 0 then (phOf t g).contains maskCh else (svOf t g).contains maskCh
  firstBad [((svOf t g).isEmpty && (phOf t g).isEmpty || decide (60000 < pre) || post == 0 || decide (600000 < post) ||
      (code != 0 && !fz.part.hasSwg) || decide (6 < code) ||
      decide ((gW t g 5).field 16 14 * 1048576 * 256000 < groupRate t g * (pre + 2000)) || (gW t g 6).field 16 14 == 0 ||
      areas.any (fun a => (others ++ spill).any (fun b => overlap a b) || decide (dram < a.1 + a.2)) ||
      ((gW t g 0).bit 5 && !maskIn), 4),
    (groupRsvd t g, 13)]

/-- Enabled triggers, ascending. -/
def trigsIn (t : SMap) : List Nat := (List.range 64).filter (fun n => (tW t n 0).bit 0)

/-- The checks of an enabled trigger. -/
def trigBad (t : SMap) (n : Nat) : Option Nat :=
  let w := tW t n 0
  let typ := w.field 1 2
  let g := w.field 3 4
  let ch := (tW t n 1).field 0 11
  let kindBad := if typ = 1 then false
    else (if w.bit 7 then !(phOf t g).contains ch || decide (4 < w.field 10 3) else !(svOf t g).contains ch || w.field 10 3 != 0)
      || decide ((if typ = 0 then 2 else 1) < w.field 8 2)
  let terms := patTerms t n
  let termBad (q : Nat) : Bool :=
    let v := tW t q 0
    !v.bit 0 || v.field 1 2 != 2 || v.field 3 4 != g ||
      (match terms with | p :: _ => v.bit 7 != (tW t p.1 0).bit 7 | [] => false)
  firstBad [(typ == 3 || !gEn t g || kindBad || (typ == 1 && terms.any (fun p => termBad p.1)) || !F32.isFin (tW t n 2) ||
      !F32.isFin (tW t n 3) || F32.lt (tW t n 3) 0, 4),
    (hasBits w 0xFF00E000 || hasBits (tW t n 1) 0xFF00F800 || tW t n 6 != 0, 13)]

/-- SV channels in use by the channel map, ascending. -/
def svMapped (t : SMap) : List Nat :=
  t.filterMap (fun p => if 0x341000 ≤ p.1 ∧ p.1 < 0x341800 ∧ p.2.field 0 16 ≠ 0 then some ((p.1 - 0x341000) / 4) else none)

/-- The checks of a mapped SV channel. -/
def svMapBad (fz : Fuse) (t : SMap) (c : Nat) : Option Nat :=
  firstBad [(decide (fz.part.channels ≤ c) || !chEn t c, 4), (hasBits (SMap.get zeroW t (0x341000 + 4 * c)) 0xFFFF0000, 13)]

/-- Enabled phasor channels, ascending. -/
def phMapped (t : SMap) : List Nat :=
  t.filterMap (fun p =>
    if 0x342000 ≤ p.1 ∧ p.1 < 0x346000 ∧ (p.1 - 0x342000) % 8 = 0 ∧ p.2.bit 0 = true then some ((p.1 - 0x342000) / 8) else none)

/-- The checks of an enabled phasor channel. -/
def phMapBad (t : SMap) (p : Nat) : Option Nat :=
  let w := SMap.get zeroW t (0x342000 + 8 * p)
  firstBad [(!phasorIn t (w.field 1 13) (w.field 14 6), 4),
    (hasBits w 0xFFF00000 || hasBits (SMap.get zeroW t (0x342004 + 8 * p)) 0xFFFF0000, 13)]

/-! ### The Publisher's tables (Table 10.3) -/

/-- Octets a member adds to a set's payload. -/
def memberOctets (t : SMap) (s : Nat) (m : PoolMember) : Nat :=
  2 + 8 * m.nph + (if oForm t s = 0 && (outIn t s 0).bit 12 then 4 else 8) + 4 * m.nan + 2 * m.ndg

/-- UDP payload of a set's frame or SPDU. -/
def setOctets (t : SMap) (s : Nat) : Nat :=
  ((oMembers t s).map (memberOctets t s)).sum + (if oForm t s = 0 then 16 else 5 + Config.rsvOverhead)

/-- Two sets publish under the same identity. -/
def sameSet (t : SMap) (a b : Nat) : Bool :=
  oForm t a == oForm t b && decide (oForm t a < 2) && oPair t a == oPair t b && (outIn t a 0).bit 4 == (outIn t b 0).bit 4 &&
    [2, 3, 4, 5].all (fun w => outIn t a w == outIn t b w) && (outIn t a 1).field 16 16 == (outIn t b 1).field 16 16 &&
    (if oForm t a = 0 then (outIn t a 1).field 0 16 == (outIn t b 1).field 0 16
     else [12, 13, 14, 15].all (fun w => outIn t a w == outIn t b w))

/-- Reserved bits and values of an output set. -/
def setRsvd (t : SMap) (s : Nat) : Bool :=
  [(0, 0xFFFE0000), (7, 0xFF00F000), (8, 0xFC000000), (9, 0xFF00F000)].any (fun p => hasBits (outIn t s p.1) p.2) ||
    oForm t s == 3 || oAmend t s == 3 ||
    (decide (oForm t s < 2) && !(outIn t s 0).bit 4 && (outIn t s 3 != 0 || outIn t s 4 != 0 || outIn t s 5 != 0))

/-- The checks of an enabled output set. -/
def Dev.setBad (t : SMap) (s : Nat) (d : Dev) : Option Nat :=
  let ms := oMembers t s
  let sum (f : PoolMember → Nat) : Nat := (ms.map f).sum
  let before := (setsIn t).filter (fun q => decide (q < s))
  let form := oForm t s
  let range := oCount t s == 0 || decide (4096 < oBase t s + oCount t s) ||
    (form == 2 && (before.any (fun q => oForm t q == 2) || decide (64 < sum (fun m => m.nph)) || decide (16 < sum (fun m => m.nan)) ||
      decide (16 < sum (fun m => m.ndg)))) ||
    (decide (form < 2) && decide ((if (outIn t s 0).bit 4 then 1414 else 1434) < setOctets t s))
  firstBad [(decide (11 < oRate t s), 3), (range, 4), (before.any (fun q => sameSet t q s), 6),
    (((outIn t s 0).bit 14 && (d.keyFor 2 (oTagSlot t s)).isNone) || ((outIn t s 0).bit 15 && (d.keyFor 3 (oSealSlot t s)).isNone), 11),
    (setRsvd t s, 13)]

/-- The checks of pool entry `m` as a member of a set of rate `f`. -/
def memberBad (t : SMap) (f m : Nat) : Option Nat :=
  let p := poolMember t m
  let w0 := SMap.get zeroW t (0x364000 + 8 * m)
  let bad := match phasorEntry t p.stream with
    | none => true
    | some e =>
      let (ph, an, dg) := layoutOf e
      rateOf (eRate e) % f != 0 || decide (ph < p.first + p.nph) || decide (an < p.nan) || decide (dg < p.ndg)
  firstBad [(bad, 4), (hasBits w0 0xC0000000 || hasBits (SMap.get zeroW t (0x364004 + 8 * m)) 0xFFFFFFC0, 13)]

/-- The first member pool entry that fails in the range of some enabled set. -/
def poolBad (t : SMap) : Option (Nat × Nat) :=
  let used := sortBy (fun a b => decide (a.1 ≤ b.1)) ((setsIn t).flatMap (fun s =>
    (List.range (oCount t s)).map (fun j => (oBase t s + j, rateOf (oRate t s)))))
  used.findSome? (fun p => (memberBad t p.2 p.1).map (fun r => (p.1 + 0xF000, r)))

/-! ### Homing and the whole validation -/

/-- Valid streams of a table that need a home. -/
def homed (t : SMap) : List Nat := (validIn t).filter (fun i => eKind (entryIn t i) != 1)

/-- The streams UNHOMED now. -/
def Dev.unhomedNow (d : Dev) : List Nat :=
  (d.eas.unhomed.filter (fun p => p.2.2.isNone)).map (fun p => p.1)

/-- The homing decision for a table (R147, R148, R151). -/
def Dev.homingFor (fz : Fuse) (t : SMap) (late : Bool) (d : Dev) : Homing :=
  let keep (i : Nat) : Bool :=
    let a := d.entry i
    let b := entryIn t i
    eValid a && eTile a == eTile b && eAuto a == eAuto b
  homing (d.op == .degraded) d.spillEn late (fun i => entryIn t i) (homed t) d.eas.homes d.unhomedNow keep (d.tilesOk fz)

/-- The first failure of a snapshot: the object as the completion names it, and the reason. -/
def Dev.validate (fz : Fuse) (t : SMap) (d : Dev) : Option (Nat × Nat) :=
  let valid := validIn t
  let nodes := if fz.part.hasFlg then nodesIn t else []
  firstObj 0 valid (fun i => d.streamBad fz t valid i)
    <|> ((d.homingFor fz t false).failed.map (fun i => (i, 12)))
    <|> firstObj 0x8000 (chansIn t) (chanBad fz t)
    <|> firstObj 0x9000 nodes (fun n => d.nodeBad t n)
    <|> firstObj 0xA000 (signalsIn t) (fun i => d.signalBad fz t i)
    <|> firstObj 0xC000 (branchesIn t) (branchBad t)
    <|> firstObj 0xC400 (flagsIn t) (flagBad t)
    <|> firstObj 0xD000 (groupsIn t) (fun g => d.groupBad fz t g)
    <|> firstObj 0xD100 (trigsIn t) (trigBad t)
    <|> firstObj 0xD200 (svMapped t) (svMapBad fz t)
    <|> firstObj 0xD800 (phMapped t) (phMapBad t)
    <|> firstObj 0xE000 (setsIn t) (fun s => d.setBad t s)
    <|> poolBad t

end Sys2Proof.Machine
end

