-- ==== Sys2Proof/Machine/TabOps.lean ====
section
/-! DEFINITION. Staged and active tables (Table 16.2): which window words are configuration words of the tables that follow
`STM_CTRL.VIEW` and of those that follow `SFL_CTRL.VIEW`, the copies a commit and a reload make, and the steps that the two
commit commands share (R117 to R120, R202). -/

namespace Sys2Proof.Machine

/-- Configuration words of the tables that follow `STM_CTRL.VIEW`: first offset, offset past the last, words of an entry, and
how many of them, from word 0 on, hold configuration. -/
def viewTables : List (Nat × Nat × Nat × Nat) :=
  [(0x200000, 0x280000, 16, 12), (0x280000, 0x2A0000, 1, 1), (0x2A0000, 0x2A4000, 8, 4), (0x320000, 0x328000, 2, 2),
   (0x328000, 0x328800, 8, 6), (0x32A000, 0x32E000, 8, 5), (0x340000, 0x340400, 16, 16), (0x340400, 0x340C00, 8, 8),
   (0x341000, 0x341800, 1, 1), (0x342000, 0x346000, 2, 2), (0x348000, 0x350000, 1, 1), (0x360000, 0x364000, 16, 16),
   (0x364000, 0x36C000, 2, 2), (0x380000, 0x3A0000, 16, 8)]

/-- The same for the tables that follow `SFL_CTRL.VIEW` (R194, R198). -/
def ruleTables : List (Nat × Nat × Nat × Nat) :=
  [(0x2C0000, 0x300000, 16, 16), (0x300000, 0x302000, 8, 4), (0x302000, 0x304000, 1, 1), (0x304000, 0x314000, 1, 1)]

/-- Whether an offset is a configuration word of some tables. -/
def cfgWord (ts : List (Nat × Nat × Nat × Nat)) (off : Nat) : Bool :=
  ts.any (fun r => decide (r.1 ≤ off) && decide (off < r.2.1) && decide ((off - r.1) / 4 % r.2.2.1 < r.2.2.2))

/-- `dst` with the words that `sel` selects taken from `src`. -/
def copyWords (sel : Nat → Bool) (src dst : SMap) : SMap :=
  (src.filter (fun p => sel p.1)).foldl (fun m p => SMap.put zeroW m p.1 p.2) (dst.filter (fun p => !sel p.1))

/-- The words that `sel` selects. -/
def onlyWords (sel : Nat → Bool) (t : SMap) : SMap := t.filter (fun p => sel p.1)

/-- The words of the tables that follow `STM_CTRL.VIEW`. -/
def viewWords (t : SMap) : SMap := onlyWords (cfgWord viewTables) t

/-- The words of the tables that follow `SFL_CTRL.VIEW`. -/
def ruleWords (t : SMap) : SMap := onlyWords (cfgWord ruleTables) t

/-! ### Instants (R117 to R119) -/

/-- The first point of the commit grid at or after an instant in ns. -/
def gridUp (t : Int) : Int := (gridNs (firstGrid (t * 65536)) : Nat)

/-- Derived time in ns, rounded up. -/
def Dev.tickUp (d : Dev) : Int := intCeilDiv d.derived 281474976710656

/-- The earliest legal instant of a validation that ends now. -/
def Dev.earliest (d : Dev) : Int := gridUp (d.tickUp + 1000000)

/-- The instant a commit asks for, rounded up to the grid. -/
def commitInstant (p : CommitArgs) : Int := gridUp ((p.sec : Int) * 1000000000 + (p.ns : Int))

/-- A given instant lies before `lo` or more than 549 s ahead. -/
def Dev.badInstant (lo inst : Int) (d : Dev) : Bool := decide (inst < lo) || decide (d.derived + 549 * 1000000000 * 281474976710656 <
  inst * 281474976710656)

/-- The words of a failure: first failing object and reason (Table 12.8). -/
def failWords (obj reason : Nat) : List Word := [BitVec.ofNat 32 (obj % 65536 + reason * 65536)]

/-- The words of a commit applied (Table 12.8). -/
def appliedWords (inst : Int) (changed unhomed : Nat) : List Word :=
  let s := (inst / 1000000000).toNat
  [lo32 s, BitVec.ofNat 32 (s / 4294967296 % 65536), BitVec.ofInt 32 (inst % 1000000000), BitVec.ofNat 32 changed,
   BitVec.ofNat 32 (unhomed % 65536)]

/-- Store an instant in three registers from `lo` on. -/
def Dev.putInstant (lo : Nat) (inst : Int) (d : Dev) : Dev :=
  let s := (inst / 1000000000).toNat
  ((d.setReg lo (lo32 s)).setReg (lo + 4) (BitVec.ofNat 32 (s / 4294967296 % 65536))).setReg (lo + 8) (BitVec.ofInt 32 (inst % 1000000000))

/-! ### Groups in the committed table (R201) -/

/-- Groups that name each stream: `GRP_COUNT` (Table 3.7) and `MEMBERS` (Table 6.5) follow every commit. -/
def Dev.refreshGroups (d : Dev) : Dev :=
  let gs := (List.range 256).filter (fun g => (grpW d.act g 0).bit 0)
  let mem := gs.map (fun g => (g, groupMembers d.act d.act g))
  let shown := sortBy (fun a b => decide (a ≤ b)) (d.act.filterMap (fun p =>
    if 0x200000 ≤ p.1 ∧ p.1 < 0x280000 ∧ (p.1 - 0x200000) / 4 % 16 = 12 ∧ p.2.field 24 8 ≠ 0 then some ((p.1 - 0x200000) / 64)
    else none))
  let d := shown.foldl (fun (e : Dev) i => e.setActField (stmOff i 12) 24 8 0) d
  let d := mem.foldl (fun (e : Dev) g => (g.2.map (fun q => q.1)).eraseDups.foldl (fun (e : Dev) i =>
    e.setActField (stmOff i 12) 24 8 (min 255 ((e.actW (stmOff i 12)).field 24 8 + 1))) e) d
  (List.range 256).foldl (fun (e : Dev) g =>
    let n := match mem.find? (fun p => p.1 == g) with | some p => p.2.length | none => 0
    if (grpW e.act g 4).field 0 11 = n then e else e.setActField (0x300000 + 32 * g + 16) 0 11 n) d

/-- `TWIN_STATE` goes to the partner at every commit (R328). -/
def Dev.twinNote (d : Dev) : Dev := if d.isTwin then (d.brzTwin d.twinState).noteMismatch else d

end Sys2Proof.Machine
end

