-- ==== Sys2Proof/Machine/Stm.lean ====
section
/-! DEFINITION. The meanings of the stream table's commands (03_network_ingest.md, R117 to R124), with what applying a commit
does to every unit whose tables follow `STM_CTRL.VIEW`. -/

namespace Sys2Proof.Machine

/-! ### `STREAM_STALE` (Table 3.8) -/

/-- `STREAM_STALE`: an ACTIVE stream has accepted nothing for `STALE_SLOTS` reporting periods, whatever keeps its frames away. -/
def execStreamStale (i : Nat) (s : State) : Out :=
  s.onDev (fun d =>
    let e := d.entry i
    if d.op.mainOn && eValid e && d.streamState i == 2 && decide (KMap.getD d.stm.lastRx i 0 + d.staleNs e ≤ d.raw) then
      d.setStreamState i 3
    else d)

/-! ### Fetching and withdrawing (R118 to R120, R122) -/

/-- The bits of `STM_STATUS`. -/
def Dev.stmStatus (pending validating : Bool) (d : Dev) : Dev :=
  d.setReg Reg.STM_STATUS (BitVec.ofNat 32 ((if pending then 1 else 0) + (if validating then 2 else 0)))

/-- A commit ends: nothing is pending. -/
def Dev.stmUnpend (d : Dev) : Dev := ({ d with stm := { d.stm with pend := none } }).stmStatus false false

/-- `STM_COMMIT` once its checks 2 to 4 hold (R118 to R120). -/
def Dev.stmFetch (h : CmdHdr) (p : CommitArgs) (d : Dev) : Dev :=
  if decide (1 < p.mode) || (p.mode == 1 && d.op != .config && d.badInstant d.earliest (commitInstant p)) then
    d.complete h 0x20 2 (failWords 0xFFFF 15)
  else if d.stm.pend.isSome then d.refuse h 0x20 6 1 0xFFFF []
  else
    let x : PendCommit := { hdr := h, args := p, snap := viewWords d.stg, validating := true, inst := 0, homes := [] }
    ({ d with stm := { d.stm with pend := some x } }).stmStatus true true

/-- `STM_COMMIT`. -/
def execStmCommit (h : CmdHdr) (p : CommitArgs) (s : State) : Out :=
  s.onDev (fun d => d.cmd h 0x20 [] true legalCRD (Dev.stmFetch h p))

/-- The pending commit is withdrawn (R120): it completes with `ABORTED`. -/
def Dev.stmWithdraw (d : Dev) : Dev :=
  match d.stm.pend with
  | none => d
  | some p => d.stmUnpend.complete p.hdr 0x20 7 []

/-- `STM_CANCEL` once its checks 2 to 4 hold. -/
def Dev.stmCancel1 (h : CmdHdr) (d : Dev) : Dev :=
  if d.stm.pend.isNone then d.refuse h 0x21 6 1 0xFFFF [] else d.stmWithdraw.complete h 0x21 0 []

/-- `STM_CANCEL`. -/
def execStmCancel (h : CmdHdr) (s : State) : Out := s.onDev (fun d => d.cmd h 0x21 [] true legalCRD (Dev.stmCancel1 h))

/-- `STM_RELOAD` once its checks 2 to 4 hold (R122). -/
def Dev.stmReload1 (h : CmdHdr) (d : Dev) : Dev :=
  if d.stm.pend.isSome then d.refuse h 0x22 6 1 0xFFFF []
  else ({ d with stg := copyWords (cfgWord viewTables) d.act d.stg }).complete h 0x22 0 []

/-- `STM_RELOAD`. -/
def execStmReload (h : CmdHdr) (s : State) : Out := s.onDev (fun d => d.cmd h 0x22 [] true legalCRD (Dev.stmReload1 h))

/-! ### Applying a commit: the stream table (R121, R123, R147, R150, R151) -/

/-- Entries with a non-zero configuration word, ascending. -/
def stmIdx (t : SMap) : List Nat :=
  (t.filterMap (fun p => if 0x200000 ≤ p.1 ∧ p.1 < 0x280000 ∧ (p.1 - 0x200000) / 4 % 16 < 12 then some ((p.1 - 0x200000) / 64)
    else none)).eraseDups

/-- Whether a commit changes an entry (R121). -/
def entryChanged (old new : SMap) (i : Nat) : Bool :=
  let a := entryIn old i
  let b := entryIn new i
  a != b || poolIn old a != poolIn new a || poolIn old b != poolIn new b

/-- Entries that a commit changes, ascending. -/
def changedEntries (old new : SMap) : List Nat :=
  (sortBy (fun a b => decide (a ≤ b)) (stmIdx old ++ stmIdx new)).eraseDups.filter (entryChanged old new)

/-- A commit that changes an entry puts it in WAITING: it has become valid, or its key or layout is another (Table 3.8). -/
def waitsAgain (a b : List Word) : Bool :=
  eValid b && (!eValid a || !sameKey a b || (ew a 6).field 0 21 != (ew b 6).field 0 21)

/-- Versions after a commit (R121): the previous versions left by the commit before are discarded, and every changed entry
keeps the one it had. -/
def nextVersions (prev : KMap PrevVer) (old : SMap) (changed : List Nat) (inst : Int) : KMap PrevVer :=
  changed.foldl (fun (m : KMap PrevVer) i =>
    let e := entryIn old i
    KMap.put m i { inst := inst, words := if eValid e then some e else none, pool := poolIn old e, gone := false })
    (prev.map (fun (p : Nat × PrevVer) => (p.1, { p.2 with gone := true })))

/-- The homing in force from a commit on (R146, R151): what validation decided, or with a tile of it gone, a new decision;
and whether it had to be decided again. -/
def Dev.commitHoming (fz : Fuse) (p : PendCommit) (d : Dev) : Bool × KMap Nat × List Nat :=
  if p.homes.all (fun q => d.tileOk q.2 fz) then
    (false, p.homes, (homed p.snap).filter (fun i => !KMap.has p.homes i))
  else
    let hm := d.homingFor fz p.snap true
    (true, hm.homes, hm.unhomed)

/-- Streams newly placed on tiles, of which those that find 256 streams with normal cells are spill-only (R137, R155): `old` are
those that keep their tile and their cells. -/
def spillOnly (old : KMap Nat) (spill : List Nat) (new : KMap Nat) : List Nat :=
  (new.foldl (fun (x : KMap Nat × List Nat) (p : Nat × Nat) =>
    if decide (256 ≤ (x.1.filter (fun q => q.2 == p.2 && !x.2.contains q.1)).length) then (KMap.put x.1 p.1 p.2, x.2 ++ [p.1])
    else (KMap.put x.1 p.1 p.2, x.2)) (old, spill)).2

/-- The homes take effect: streams that moved, streams placed from UNHOMED, and streams left without a home. -/
def Dev.setHomes (homes : KMap Nat) (un : List Nat) (inst : Int) (d : Dev) : Dev :=
  let old := d.eas.homes
  let moved := (homes.filter (fun p => KMap.get? old p.1 != some p.2)).map (fun (p : Nat × Nat) => (p.1, (inst, KMap.get? old p.1)))
  let stays (p : Nat × Nat) : Bool := KMap.get? old p.1 == some p.2
  let spill := spillOnly (homes.filter stays) (d.eas.spill.filter (fun i => KMap.has homes i && KMap.get? old i == KMap.get? homes i))
    (homes.filter (fun p => !stays p))
  let was := d.unhomedNow
  let unh := was.foldl (fun (m : KMap (Int × Option Int)) i =>
    if un.contains i then m else KMap.modify m i (fun x => (x.1, some inst))) d.eas.unhomed
  let unh := un.foldl (fun (m : KMap (Int × Option Int)) i => if was.contains i then m else KMap.put m i (inst, none)) unh
  let d := { d with eas := { d.eas with homes := homes, moved := moved, spill := spill, unhomed := unh } }
  homes.foldl (fun (e : Dev) p => if KMap.get? old p.1 = some p.2 then e else e.showHome p.1 p.2) d

/-- States and versions of the stream entries after the tables have changed from `old`. -/
def Dev.streamsApplied (old : SMap) (changed un was : List Nat) (d : Dev) : Dev :=
  let d := changed.foldl (fun (e : Dev) i =>
    let a := entryIn old i
    let b := e.entry i
    let e := e.setActField (stmOff i 12) 8 1 0
    if !eValid b then e.setStreamState i 0
    else if waitsAgain a b && !un.contains i then
      ({ e with stm := { e.stm with fails := KMap.del e.stm.fails i } }).setStreamState i 1
    else e) d
  let d := un.foldl (fun (e : Dev) i => e.setStreamState i 5) d
  (was.filter (fun i => !un.contains i && eValid (d.entry i))).foldl (fun (e : Dev) i => e.setStreamState i 1) d

/-! ### Applying a commit: the other units -/

/-- Whether a commit changes what resets a channel: the kind 1 entry that feeds it, or its `EN`, `FNOM` or `TRK_CH`
(Table 5.5). -/
def chanReset (old : SMap) (changed : List Nat) (c : Nat) (d : Dev) : Bool :=
  let a := chIn old c 0
  let b := chIn d.act c 0
  let feeds (e : List Word) : Bool := eValid e && eKind e == 1 && decide ((svRange e).1 ≤ c) && decide (c < (svRange e).2)
  a.bit 0 != b.bit 0 || a.bit 1 != b.bit 1 || a.field 16 9 != b.field 16 9 ||
    changed.any (fun i => feeds (entryIn old i) || feeds (d.entry i))

/-- The Phasor chain takes a commit (R160, R168, R177): a channel newly in use starts at f_nom and is placed, one no longer
in use gives up its place, and every channel that Table 5.5 names takes a reset at the commit instant. -/
def Dev.phxApplied (old : SMap) (changed : List Nat) (inst : Int) (d : Dev) : Dev :=
  let d := ((chansIn old).filter (fun c => !chEn d.act c)).foldl (fun (e : Dev) c =>
    e.setPhx c { PhxCh.new with resets := (e.phxCh c).resets, lastUs := (e.phxCh c).lastUs }) d
  ((chansIn d.act).filter (fun c => chanReset old changed c d)).foldl (fun (e : Dev) c =>
    let x := e.phxCh c
    let fresh := !chEn old c
    let e := if fresh then e.setPhx c { e.phxFresh e.act c with resets := x.resets, trP := inst - 1, trM := inst - 1, shed := e.phx.allP2 }
      else e.setPhx c { x with rate := e.svChanRate c, hist := [], taken := 0, lost := 0, detN := 0,
                               ft := if chNom old c = chNom e.act c then x.ft else nomF32 e.act c }
    let q := (e.phxCh c).at_ c
    if fresh && e.phx.failed.contains q.1 then (e.phxPlace c).2 else e.phxReset c true true (inst * 65536)) d

/-- The Densitometer takes a commit (Table 7.11, R246): a changed modal signal, or the stream of one, restarts identification
and forced oscillations; changed branches and flags begin again. -/
def Dev.dnsApplied (old : SMap) (changed : List Nat) (d : Dev) : Dev :=
  let modal (t : SMap) (i : Nat) : Bool := (sigW t i 0).bit 0 && (sigW t i 0).bit 1
  let names (t : SMap) (i : Nat) : Bool := modal t i && (sigW t i 0).field 3 3 != 4 && changed.contains ((sigW t i 0).field 15 13)
  let sigs := ((modalSigs old ++ modalSigs d.act).filter (fun i =>
    [0, 1].any (fun w => sigW old i w != sigW d.act i w) || names old i || names d.act i))
  let brs := (branchesIn old ++ branchesIn d.act).filter (fun b => [0, 1, 2, 3, 4].any (fun w => brW old b w != brW d.act b w))
  let fls := (List.range 64).filter (fun f => [0, 1, 2, 3, 4, 5].any (fun w => flagW old f w != flagW d.act f w))
  let d := { d with dns := { d.dns with branches := d.dns.branches.filter (fun p => !brs.contains p.1) } }
  let d := fls.foldl (fun (e : Dev) f =>
    let e := e.setFlagS f { e.flagS f with pcount := 0, dcount := 0 }
    if (flagW e.act f 0).bit 0 || !e.flagVal f then e else (e.flagChange f false 65535 0 e.tick).localChange) d
  if d.op.running && !sigs.isEmpty then d.dnsRestartNoted true true false else d

/-- Shutter takes a commit (R261, R267). -/
def Dev.shtApplied (d : Dev) : Dev :=
  let fresh := d.shtTab
  (List.range 16).foldl (fun (e : Dev) g =>
    let x := e.grp g
    if groupDef fresh g = groupDef x.tab g then e.setGrp g { x with tab := if x.st = 2 ∨ x.st = 3 then x.tab else fresh }
    else if x.st = 2 ∨ x.st = 3 then e
    else if x.st = 0 then
      if gEn fresh g && e.op.running then (e.setGrp g { x with st := 1, tab := fresh }).startHistory g
      else e.setGrp g { x with tab := fresh }
    else if !gEn fresh g then e.setGrp g { x with st := 0, tab := fresh, trigs := [] }
    else (e.setGrp g { x with tab := fresh }).startHistory g) d

/-- The Publisher takes a commit: the chain of a changed set starts again (R317). -/
def Dev.pubApplied (old : SMap) (d : Dev) : Dev :=
  ((List.range 256).filter (fun s => (oEn old s || oEn d.act s) &&
    ((List.range 16).any (fun w => outIn old s w != outIn d.act s w) || oMembers old s != oMembers d.act s))).foldl
    (fun (e : Dev) s => e.chainReset s) d

/-- Filigree takes a commit (R344). -/
def Dev.flgApplied (old : SMap) (d : Dev) : Dev :=
  (sortBy (fun a b => decide (a ≤ b)) (nodesIn old ++ nodesIn d.act)).eraseDups.foldl (fun (e : Dev) n =>
    if !nEn e.act n then ((e.dropHeld n 4 false).setNodeState n 0).modNode n (fun x => { x with direct := false })
    else if !nEn old n then (e.setNodeState n 1).modNode n (fun x => { x with heardRaw := e.raw })
    else
      let x := e.flgNode n
      let differs := [1, 2].any (fun w => nodeW old n w != nodeW e.act n w) || (nodeW old n 0).field 0 16 != (nodeW e.act n 0).field 0 16
      if differs && x.st == 2 && x.direct then
        let e := e.radioSend (e.mkFrame 4 (shortOf n) none none false []) true (some n) none none
        ((e.dropHeld n 4 false).setNodeState n 1).modNode n (fun x => { x with lastFc := 0, lastRc := 0 })
      else e) d

/-! ### Applying a commit: the whole -/

/-- The validated commit is applied at `inst` (R119 to R121, R151), and completes. -/
def Dev.stmApply (fz : Fuse) (p : PendCommit) (inst : Int) (d : Dev) : Dev :=
  let old := d.act
  let (late, homes, un) := d.commitHoming fz p
  let was := d.unhomedNow
  let new := copyWords (cfgWord viewTables) p.snap d.act
  let changed := changedEntries old new
  let d := { d with act := new, stm := { d.stm with pend := none, prevOut := old, inst := inst,
                                                    prev := nextVersions d.stm.prev old changed inst } }
  let d := d.stmStatus false false
  let d := (d.setHomes homes un inst).streamsApplied old changed un was
  let d := (d.setReg Reg.STM_ACTIVE_COUNT (BitVec.ofNat 32 (validIn d.act).length)).putInstant Reg.STM_LAST_SEC_LO inst
  let d := d.phxApplied old changed inst
  let d := d.dnsApplied old changed
  let d := (d.shtApplied.pubApplied old).flgApplied old
  let d := d.refreshGroups.twinNote
  d.complete p.hdr 0x20 (if late then 8 else 0) (appliedWords inst changed.length un.length)

/-- Validation ends (R118, R119): a failure completes the commit; otherwise it applies at once in CONFIG, or its instant is
fixed. -/
def Dev.stmValidated (fz : Fuse) (p : PendCommit) (d : Dev) : Dev :=
  match d.validate fz p.snap with
  | some (obj, reason) => d.stmUnpend.complete p.hdr 0x20 2 (failWords obj reason)
  | none =>
    let p := { p with validating := false, homes := (d.homingFor fz p.snap false).homes }
    if d.op = .config then d.stmApply fz { p with inst := d.tick } d.tick
    else
      let inst := if p.args.mode = 1 then commitInstant p.args else d.earliest
      if d.badInstant d.earliest inst then d.stmUnpend.complete p.hdr 0x20 2 (failWords 0xFFFF 15)
      else
        (({ d with stm := { d.stm with pend := some { p with inst := inst } } }).stmStatus true false).putInstant
          Reg.STM_PEND_SEC_LO inst

/-- `STM_VALIDATION_END`. -/
def execStmValidationEnd (s : State) : Out :=
  s.onFlg (fun d => match d.stm.pend with
    | some p => if p.validating && legalCRD.contains d.op then d.stmValidated s.fuse p else d
    | none => d)

/-- `STM_COMMIT_APPLY`: derived time has reached the instant of the pending commit (R119, R120). -/
def execStmCommitApply (s : State) : Out :=
  s.onFlg (fun d => match d.stm.pend with
    | some p => if !p.validating && decide (p.inst ≤ d.tick) && legalCRD.contains d.op then d.stmApply s.fuse p p.inst else d
    | none => d)

end Sys2Proof.Machine
end

