-- ==== Sys2Proof/Machine/Tbu.lean ====
section
/-! DEFINITION. The meanings of the Time Base Unit's commands (02_time_base.md). -/

namespace Sys2Proof.Machine

/-! ### Strobes (R51, R76, R128, R191, R519) -/

/-- A slot strobe: the set of the slot takes its time-base values while its first image is still to come (R519), the sequencer
opens the set L slots ahead (R128), and a slot begins for local rules (R191). -/
def Dev.strobe (rc k : Nat) (d : Dev) : Dev :=
  let d := match d.openSet? rc k with
    | some s => if s.done then d else d.putSet { s with refv := some d.refVals }
    | none => d
  let d := if d.op.alarm then d.localSlot rc k else d
  if d.op.running then (d.openSet rc (k + d.leadSlots)).inputsChanged else d

/-- `SLOT_STROBE` of rate code `rc` and slot `k`: strobes fire in order, each once derived time has reached its slot time. -/
def execSlotStrobe (rc k : Nat) (s : State) : Out :=
  s.onDev (fun d =>
    if d.op.mainOn && decide (rc < 12) && KMap.getD d.tbu.nextSlot rc 0 == k && decide ((slot16 (rateOf rc) k : Nat) ≤ d.t16) then
      ({ d with tbu := { d.tbu with nextSlot := KMap.put d.tbu.nextSlot rc (k + 1) } }).strobe rc k
    else d)

/-- `PRE_SLOT_STROBE`: 12 µs before a slot time; what it wakes shows in no state of the block. -/
def execPreSlotStrobe (rc k : Nat) (s : State) : Out :=
  s.onDev (fun d =>
    if d.op.mainOn && decide (rc < 12) && KMap.getD d.tbu.nextPre rc 0 == k &&
        decide ((slot16 (rateOf rc) k : Nat) ≤ d.t16 + 12000 * 65536) then
      { d with tbu := { d.tbu with nextPre := KMap.put d.tbu.nextPre rc (k + 1) } }
    else d)

/-! ### PTP messages, loss of a source, holdover (R59, R69, R70) -/

/-- `PTP_MESSAGE_TX`. -/
def execPtpMessageTx (port : Nat) (kind : PtpTx) (s : State) : Out :=
  s.onDev (fun d => if port < 4 then d.ptpSend port kind else d)

/-- A PTP port that follows a silent master goes back to listening. -/
def Dev.ptpQuiet (n : Nat) (d : Dev) : Dev :=
  if d.ptpState n < 7 || !d.ptpSilent n then d
  else if n = d.tbu.ptpPort && (d.srcS 1).qualified then d.ptpLost
  else
    let d := d.setPtpState n (if d.ptpRole n = 0 then 6 else 4)
    if n = d.tbu.ptpPort then d.setSrc 1 { d.srcS 1 with offs := [] } else d

/-- `SOURCE_LOSS_TIMEOUT`: PTP misses its Announce or Sync messages; another source misses three intervals (R69). -/
def execSourceLossTimeout (src : Nat) (s : State) : Out :=
  s.onDev (fun d =>
    if !d.op.mainOn then d
    else if src = 1 then [0, 1, 2, 3].foldl (fun (e : Dev) n => if e.ptpEn n then e.ptpQuiet n else e) d
    else if decide (2 ≤ src) && decide (src ≤ 4) && decide ((d.srcS src).lastRaw + 3000000000 ≤ d.raw) then
      if (d.srcS src).qualified then d.loseSrc src else d.setSrc src { d.srcS src with offs := [] }
    else d)

/-- `TBU_UNCERT_REFRESH`, in HOLDOVER (R70). -/
def execTbuUncertRefresh (s : State) : Out :=
  s.onDev (fun d => if d.op.mainOn && d.tbu.sync == 3 then d.setReg Reg.TBU_UNCERT (BitVec.ofNat 32 (min d.holdoverU 0xFFFFFFFF)) else d)

/-! ### Timed events (R80 to R83) -/

/-- `PERIOD` in whole ns. -/
def Dev.tevPeriodNs (n : Nat) (d : Dev) : Nat := d.tevPeriod n / 65536

/-- Length of the pulse on `TMOn` (R83). -/
def Dev.tevWidth (n : Nat) (d : Dev) : Nat :=
  let w := max 10 (d.reg (Reg.TBU_TEV_WIDTH n)).toNat
  if d.tevMode n = 0 || decide (w < d.tevPeriodNs n) then w else d.tevPeriodNs n - 10

/-- A timed output goes active, until the end of its pulse. -/
def Dev.tevPulse (n : Nat) (d : Dev) : Dev :=
  ({ d with tbu := { d.tbu with pins := KMap.put d.tbu.pins n (d.raw + d.tevWidth n) } }).emit
    (.timedPin n (!d.rbit (Reg.TBU_TEV_CTRL n) 3))

/-- The destinations of a comparator that fires with target `t` (Table 2.9). -/
def Dev.tevDrive (n : Nat) (t : Int) (d : Dev) : Dev :=
  let c := Reg.TBU_TEV_CTRL n
  let d := if d.rbit c 4 && decide (n < 4) then d.tevPulse n else d
  let d := if d.rbit c 5 then d.fixedTrigger (64 + n) t n none none else d
  let d := if d.rbit c 6 then
      let hold := zeroActs 1 (d.fld Reg.SFL_CTRL 8 8) * 1000000
      ({ d with sfl := { d.sfl with tevHold := KMap.put d.sfl.tevHold n (d.raw + hold) } }).localChange
    else d
  if d.rbit c 7 then d.msix 3 else d

/-- A comparator fires (R82): it drives its destinations and disarms or takes its next target; `stepped` at a forward step. -/
def Dev.tevFire (n : Nat) (stepped : Bool) (d : Dev) : Dev :=
  match KMap.get? d.tbu.tevs n with
  | none => d
  | some x =>
    let c := Reg.TBU_TEV_CTRL n
    let d := d.wrapAdd (Reg.TBU_TEV_COUNT n) 1
    let d := if stepped then d.setField c 9 1 1 else d
    let d := d.tevDrive n x.target
    let mode := d.tevMode n
    if mode = 0 then ({ d with tbu := { d.tbu with tevs := KMap.del d.tbu.tevs n } }).setField c 0 1 0
    else
      let y := if stepped then x.rewind mode (d.tevPeriod n) (d.t16 + 1) else x.advance mode (d.tevPeriod n)
      { d with tbu := { d.tbu with tevs := KMap.put d.tbu.tevs n y } }

/-- A comparator's target has been reached (R80). -/
def Dev.tevDue (n : Nat) (d : Dev) : Bool :=
  match KMap.get? d.tbu.tevs n with
  | some x => decide (x.target ≤ d.tick * 65536)
  | none => false

/-- `TEV_FIRE`. -/
def execTevFire (n : Nat) (s : State) : Out :=
  s.onDev (fun d => if d.op.mainOn && d.tevDue n then d.tevFire n false else d)

/-- `TEV_PULSE_END`. -/
def execTevPulseEnd (n : Nat) (s : State) : Out :=
  s.onDev (fun d => match KMap.get? d.tbu.pins n with
    | some e =>
      if d.raw < e then d
      else ({ d with tbu := { d.tbu with pins := KMap.del d.tbu.pins n } }).emit (.timedPin n (d.rbit (Reg.TBU_TEV_CTRL n) 3))
    | none => d)

/-- A comparator is armed (R80): its target is the instant nearest to now with the low 40 bits of `TARGET`; one that is past
fires at once. -/
def Dev.tevArmNow (n : Nat) (d : Dev) : Dev :=
  let t40 := d.fld (Reg.TBU_TEV_TARGET_HI n) 0 8 * 4294967296 + (d.reg (Reg.TBU_TEV_TARGET_LO n)).toNat
  let ahead := signedOf 40 (((t40 : Int) - d.tick) % 1099511627776).toNat
  let t := (d.tick + ahead) * 65536
  let d := { d with tbu := { d.tbu with tevs := KMap.put d.tbu.tevs n { first := t, target := t, base := t } } }
  if ahead ≤ 0 then ((d.setField (Reg.TBU_TEV_CTRL n) 8 1 1).raise Reg.TBU_EVT 5).tevFire n false else d

/-- A write of `TBU_TEVn_CTRL` (Table 2.9). -/
def Dev.writeTev (n : Nat) (v : Word) (d : Dev) : Dev :=
  let c := Reg.TBU_TEV_CTRL n
  let was := d.rbit c 0
  let keep := (if d.rbit c 8 && !v.bit 8 then 256 else 0) + (if d.rbit c 9 && !v.bit 9 then 512 else 0)
  let low := v.field 0 8
  let low := if n < 4 then low else low - (if v.bit 4 then 16 else 0)
  let d := d.setReg c (BitVec.ofNat 32 (low + keep))
  if v.bit 0 && !was then d.tevArmNow n
  else if !v.bit 0 && was then { d with tbu := { d.tbu with tevs := KMap.del d.tbu.tevs n } }
  else d

/-- Whether BAR0 writes to units outside the host interface are accepted (Table 16.4). -/
def Dev.writable (d : Dev) : Bool := legalCRD.contains d.op

/-- `TEV_ARM`: a write of `TBU_TEVn_CTRL` that arms comparator `n`. -/
def execTevArm (n : Nat) (v : Word) (s : State) : Out :=
  s.onDev (fun d => if d.writable && decide (n < 8) && v.bit 0 && !d.rbit (Reg.TBU_TEV_CTRL n) 0 then d.writeTev n v else d)

/-! ### Steps (R72 to R76, R86) -/

/-- The shortest reporting period of the valid streams in ns, or 100 ms (R75). -/
def Dev.shortPeriod (d : Dev) : Nat :=
  ((homed d.act).map (fun i => 1000000000 / rateOf (eRate (d.entry i)))).foldl min 100000000

/-- The next beacon of the mesh falls on a multiple of its interval in the new time. -/
def Dev.restartBeacon (d : Dev) : Dev :=
  let b : Int := (d.bcnMs * 1000000 : Nat)
  { d with flg := { d.flg with nextBcn := (d.tick / b + 1) * b } }

/-- Open sets whose slot time lies in the second after a step carry the step flag (R74). -/
def Dev.flagSets (d : Dev) : Dev :=
  { d with eas := { d.eas with sets := d.eas.sets.map (fun (s : SetS) =>
      { s with flag := s.flag || d.stepFlag (slotNs (rateOf s.rc) s.k) }) } }

/-- A large backward step (R145, R210): the open sets close, the passes of their first looks run, and alignment starts again, with
slot numbers whose old images no longer stand for them. -/
def Dev.realign (d : Dev) : Dev :=
  let d := d.stepSets
  let d := d.runPasses (4096 * (d.sfl.sets.length + 1))
  let old := d.eas.arch.filter (fun a => decide (((slotNs (rateOf a.rc) a.k : Nat) : Int) ≤ d.tick))
  ({ d with eas := { d.eas with arch := old } }).startAlign.inputsChanged

/-- A decided step is applied (R74, R75, R76, R82, R145, R250, R279). -/
def Dev.applyStep (st : StepDue) (d : Dev) : Dev :=
  let ns := match st.target with | some t => Int.tdiv (t * 281474976710656 - d.derived) 281474976710656 | none => st.ns
  let st := { st with ns := ns }
  let large := largeStep ns d.shortPeriod
  let skipped := if ns < 0 then [] else
    (d.tbu.tevs.filter (fun p => decide (d.tick * 65536 < p.2.target))).map (fun p => p.1)
  let d := { d with tbu := { d.tbu with stepDue := d.tbu.stepDue.tail } }
  let d := (d.stepTbu st large).flagSets
  let d := if large && d.op.running then d.realign else d
  let d := d.phxStep.shtStep large ns
  let d := if d.op.running then d.dnsRestartNoted true true true else d
  let d := d.restartBeacon
  let d := skipped.foldl (fun (e : Dev) n => if e.tevDue n then e.tevFire n true else e) d
  match st.hdr with
  | some h => d.complete h 0x10 0 ([lo32 d.raw, hi32 d.raw] ++ tickWords ns)
  | none => d

/-- `TIME_STEP_APPLY`. -/
def execTimeStepApply (s : State) : Out :=
  s.onDev (fun d => match d.tbu.stepDue with
    | st :: _ => if d.op.mainOn && decide (st.due ≤ d.raw) then d.applyStep st else d
    | [] => d)

/-- `TBU_STEP` once its checks 2 to 4 hold (R72, R73, R86). -/
def Dev.stepCmd (h : CmdHdr) (mode : Nat) (rel : Int) (sec ns : Nat) (d : Dev) : Dev :=
  if decide (1 < mode) || (mode == 0 && (rel == 0 || decide (d.tick + rel < 0))) || (mode == 1 && decide (1000000000 ≤ ns)) then
    d.complete h 0x10 2 []
  else
    let due := nextMs d.raw
    let x : StepDue := { ns := rel, target := if mode = 1 then some ((sec : Int) * 1000000000 + ns) else none, host := true,
                         hdr := some h, due := due }
    { d with tbu := { d.tbu with stepDue := d.tbu.stepDue.filter (fun s => s.host || s.due != due) ++ [x] } }

/-- `TBU_STEP`. -/
def execTbuStep (h : CmdHdr) (mode : Nat) (rel : Int) (sec ns : Nat) (s : State) : Out :=
  s.onDev (fun d => d.cmd h 0x10 [] true legalCRD (Dev.stepCmd h mode rel sec ns))

/-! ### Leap seconds (R77, R87) -/

/-- The pending leap takes effect (R77). -/
def Dev.leapNow (d : Dev) : Dev :=
  let old := utcOffset (d.reg Reg.TBU_UTC)
  let new := if d.rbit Reg.TBU_UTC 9 then old - 1 else old + 1
  let d := { d with tbu := { d.tbu with leapAt := some (d.leapTick, old), leapOccur := some d.raw, leapSrc := 0 } }
  let d := ((d.setField Reg.TBU_UTC 0 8 (new % 256).toNat).setField Reg.TBU_UTC 8 1 0).setField Reg.TBU_UTC 10 1 1
  (d.raise Reg.TBU_EVT 3).timeSource 4 d.tbu.src

/-- `LEAP_SECOND`. -/
def execLeapSecond (s : State) : Out :=
  s.onDev (fun d => if d.op.mainOn && d.rbit Reg.TBU_UTC 8 && decide (d.leapTick ≤ d.tick) then d.leapNow else d)

/-- `LEAP_OCCURRED_EXPIRY`: 24 h after the leap. -/
def execLeapOccurredExpiry (s : State) : Out :=
  s.onDev (fun d => match d.tbu.leapOccur with
    | some r =>
      if r + 86400000000000 ≤ d.raw then ({ d with tbu := { d.tbu with leapOccur := none } }).setField Reg.TBU_UTC 10 1 0 else d
    | none => d)

/-- `TBU_LEAP` once its checks 2 to 4 hold (R87). -/
def Dev.leapCmd (h : CmdHdr) (v : Nat) (d : Dev) : Dev :=
  let last := d.utcSecond % 86400 == 86399 || (d.rbit Reg.TBU_UTC 8 && decide (d.leapTick - 1000000000 ≤ d.tick))
  if 2 < v || last then d.complete h 0x11 2 []
  else if v = 0 then
    (({ d with tbu := { d.tbu with leapSrc := 0 } }).setField Reg.TBU_UTC 8 2 0).complete h 0x11 0 []
  else (d.setLeap 0 (v == 2)).complete h 0x11 0 []

/-- `TBU_LEAP`. -/
def execTbuLeap (h : CmdHdr) (v : Nat) (s : State) : Out := s.onDev (fun d => d.cmd h 0x11 [] true legalCRD (Dev.leapCmd h v))

/-! ### References and the backup counter (R65, R66, R84) -/

/-- A reference measurement: an edge at `t` (2^-16 ns of derived time) that marks UTC second `utc`. One that is out of band
once the source is qualified is counted (R65). -/
def Dev.refMeasure (n : Nat) (t : Int) (utc : Int) (d : Dev) : Dev :=
  let o := t - (utc + utcOffset (d.reg Reg.TBU_UTC)) * 65536000000000
  let x := d.srcS n
  let pred := if n = d.tbu.src then d.tbuErr else x.lastOff
  let bad := x.qualified && decide (d.fld Reg.TBU_SRC_CTRL 21 11 * 65536 < (o - pred).natAbs)
  (if bad then d.bump Reg.TBU_PPS_REJECT 1 else d).measure n o

/-- `PPS_EDGE`: with `MSG_REFERS` = 1 the sentence held names it, otherwise it waits for its sentence. -/
def execPpsEdge (falling : Bool) (s : State) : Out :=
  s.onDev (fun d =>
    if !d.op.mainOn || !d.rbit Reg.TBU_REFIN_CTRL 0 || d.rbit Reg.TBU_REFIN_CTRL 1 != falling then d
    else
      let t := d.t16 - signedOf 32 (d.reg Reg.TBU_PPS_DELAY).toNat * 65536
      if d.rbit Reg.TBU_REFIN_CTRL 2 then
        match d.tbu.ppsSec with
        | some (r, u) =>
          let e := { d with tbu := { d.tbu with ppsSec := none } }
          if d.raw ≤ r + 900000000 then e.refMeasure 2 t (u : Nat) else e
        | none => d
      else { d with tbu := { d.tbu with pps := some (d.raw, t) } })

/-- `GNSS_SENTENCE`: a good one within 900 ms of the pulse it names gives a measurement. -/
def execGnssSentence (g : NmeaSentence) (s : State) : Out :=
  s.onDev (fun d =>
    if !d.op.mainOn || !d.rbit Reg.TBU_REFIN_CTRL 0 || !g.checksumOk then d
    else if d.rbit Reg.TBU_REFIN_CTRL 2 then { d with tbu := { d.tbu with ppsSec := some (d.raw, g.utcSecond) } }
    else
      match d.tbu.pps with
      | some (r, t) =>
        let e := { d with tbu := { d.tbu with pps := none } }
        if d.raw ≤ r + 900000000 then e.refMeasure 2 t (g.utcSecond : Nat) else e
      | none => d)

/-- Days from 1970-01-01 to 1 January of a year. -/
def daysToYear (y : Nat) : Int := 365 * ((y : Int) - 1970) + (((y - 1) / 4 - (y - 1) / 100 + (y - 1) / 400 : Nat) : Int) - 477

/-- The UTC second an IRIG-B frame names: its own year, or `YEAR_HINT` (R66). -/
def Dev.irigSecond (g : IrigFrame) (d : Dev) : Int :=
  if g.hasYear then (g.seconds : Int) else daysToYear (d.fld Reg.TBU_UTC 16 16) * 86400 + (g.seconds : Int)

/-- The extension of an IRIG-B frame (R66, R77, R79): TAI-UTC, and the leap announced by the selected source. -/
def Dev.irigExt (g : IrigFrame) (d : Dev) : Dev :=
  match g.ext with
  | some (off, pend, del) =>
    if !d.rbit Reg.TBU_REFIN_CTRL 9 then d
    else if d.tbu.src = 3 then d.utcFrom (some off) (pend && !del) (pend && del)
    else if d.tbu.src = 0 then (d.setField Reg.TBU_UTC 0 8 (off % 256).toNat).setField Reg.TBU_UTC 11 1 1
    else d
  | none => d

/-- `IRIG_FRAME`. -/
def execIrigFrame (g : IrigFrame) (s : State) : Out :=
  s.onDev (fun d =>
    if !d.op.mainOn || !d.rbit Reg.TBU_REFIN_CTRL 8 then d
    else
      let d := d.irigExt g
      d.refMeasure 3 (d.t16 - signedOf 32 (d.reg Reg.TBU_IRIG_DELAY).toNat * 65536) (d.irigSecond g))

/-- Derived time is copied to the backup real-time counter (R84). -/
def State.copyRtc (s : State) : State :=
  { s with bd := { s.bd with rtcNs := s.dev.tick.toNat },
           dev := { s.dev with tbu := { s.dev.tbu with lastRtc := s.dev.raw } } }

/-- `BACKUP_RTC_COPY`: once per second while LOCKED. -/
def execBackupRtcCopy (s : State) : Out :=
  .next (if s.dev.op.mainOn && s.dev.tbu.sync == 2 && decide (s.dev.tbu.lastRtc + 1000000000 ≤ s.dev.raw) then s.copyRtc else s)

/-! ### Register writes with rows of their own -/

/-- A snapshot of the raw counter and derived time (Table 2.4). -/
def Dev.tbuSnapNow (d : Dev) : Dev :=
  let t := d.tick
  let sec := (t / 1000000000).toNat
  let d := (d.setReg Reg.TBU_SNAP_RAW_LO (lo32 d.raw)).setReg Reg.TBU_SNAP_RAW_HI (hi32 d.raw)
  let d := (d.setReg Reg.TBU_SNAP_SEC_LO (lo32 sec)).setReg Reg.TBU_SNAP_SEC_HI (BitVec.ofNat 32 (sec / 4294967296 % 65536))
  (d.setReg Reg.TBU_SNAP_NS (BitVec.ofInt 32 (t % 1000000000))).setReg Reg.TBU_SNAP_FRAC (BitVec.ofInt 32 (d.t16 % 65536))

/-- `TBU_SNAP`. -/
def execTbuSnap (v : Word) (s : State) : Out := s.onDev (fun d => if d.writable && v.bit 0 then d.tbuSnapNow else d)

/-- A host write of `TBU_RATE_LO` or `_HI`, with the servo off (R47, R67). -/
def Dev.writeRate (hi : Bool) (v : Word) (d : Dev) : Dev :=
  if d.rbit Reg.TBU_CTRL 0 then d
  else
    let r := (d.tbu.rate % 1099511627776).toNat
    let r := if hi then r % 4294967296 + v.field 0 8 * 4294967296 else r / 4294967296 * 4294967296 + v.toNat
    let d := { d with tbu := { d.tbu with err := d.tbuErr, errRaw := d.raw, freq := signedOf 40 r } }
    d.setRate (signedOf 40 r)

/-- `TBU_RATE_WRITE`. -/
def execTbuRateWrite (hi : Bool) (v : Word) (s : State) : Out := s.onDev (fun d => if d.writable then d.writeRate hi v else d)

/-- A write of `TBU_CTRL` (Table 2.5): the servo going off drops the phase term (R67), and `REARM_STEP` arms a step (R72). -/
def Dev.writeTbuCtrl (v : Word) (d : Dev) : Dev :=
  let off := d.rbit Reg.TBU_CTRL 0 && !v.bit 0
  let arm := v.bit 2 || d.rbit Reg.TBU_CTRL 2
  let w := BitVec.ofNat 32 (v.toNat % 16 - (if v.bit 2 then 4 else 0) + (if arm then 4 else 0) + v.field 8 8 * 256)
  let d := d.setReg Reg.TBU_CTRL w
  let d := if v.bit 2 then { d with tbu := { d.tbu with armed := true } } else d
  if off then d.dropPhase else d

/-- `SERVO_DISABLE`: a write of `TBU_CTRL` that turns `SERVO_EN` from 1 to 0. -/
def execServoDisable (v : Word) (s : State) : Out :=
  s.onDev (fun d => if d.writable && d.rbit Reg.TBU_CTRL 0 && !v.bit 0 then d.writeTbuCtrl v else d)

/-- `REARM_STEP`: a write of `TBU_CTRL` with 1 in `REARM_STEP`. -/
def execRearmStep (v : Word) (s : State) : Out := s.onDev (fun d => if d.writable && v.bit 2 then d.writeTbuCtrl v else d)

end Sys2Proof.Machine
end

