-- ==== Sys2Proof/Machine/LifeOps.lean ====
section
/-! DEFINITION. The operations behind the changes of operating state (01_architecture.md, 14_power_annealer_startup.md):
what ends the commands in progress, entering SAFE, HOLDUP and BOOT, switching off, and the reservoir's arithmetic. -/

namespace Sys2Proof.Machine

/-! ### Commands in progress (R43, R120, R410, R433) -/

/-- The pending rule commit is no longer pending. -/
def Dev.sflUnpend (d : Dev) : Dev := ({ d with sfl := { d.sfl with pend := none } }).setField Reg.SFL_STATUS 0 2 0

/-- The pending rule commit is withdrawn: it completes with `ABORTED` (R202). -/
def Dev.sflWithdraw (d : Dev) : Dev :=
  match d.sfl.pend with
  | none => d
  | some p => d.sflUnpend.complete p.hdr 0x40 7 []

/-- Both pending commits are withdrawn. -/
def Dev.withdrawCommits (d : Dev) : Dev := d.stmWithdraw.sflWithdraw

/-- Steps that the host has asked for and that are not yet applied are given up. -/
def Dev.abortSteps (d : Dev) : Dev :=
  let hs := d.tbu.stepDue.filterMap (fun s => s.hdr)
  let d := { d with tbu := { d.tbu with stepDue := d.tbu.stepDue.filter (fun s => s.hdr.isNone) } }
  hs.foldl (fun (e : Dev) h => e.complete h 0x10 7 []) d

/-- Host frames on their way to a port are given up. -/
def Dev.abortHostTx (d : Dev) : Dev :=
  d.net.hostTx.foldl (fun (e : Dev) p => e.complete p.1 0x08 7 []) { d with net := { d.net with hostTx := [] } }

/-- Flushes under way are given up; what they discarded stays discarded. -/
def Dev.abortFlushes (d : Dev) : Dev :=
  d.spq.foldl (fun (e : Dev) p => match p.2.flush with
    | some (h, _, _) => (e.setSpq p.1 { e.spqQ p.1 with flush := none }).complete h 0x09 7 []
    | none => e) d

/-- A swap of the twin roles is given up. -/
def Dev.abortSwap (d : Dev) : Dev :=
  d.brz.swap.foldl (fun (e : Dev) h => e.complete h 0x80 7 []) { d with brz := { d.brz with swap := [] } }

/-- Caps that wait for a period boundary are given up. -/
def Dev.abortCaps (d : Dev) : Dev :=
  d.anl.pendCap.foldl (fun (e : Dev) p => e.complete p.1 0xD0 7 []) { d with anl := { d.anl with pendCap := [] } }

/-- Switch the bleed of the reservoir (R448, R470). -/
def Dev.setBleed (on : Bool) (d : Dev) : Dev :=
  if d.pwr.bleed = on then d else ({ d with pwr := { d.pwr with bleed := on } }).emit (.resBleed on)

/-- A check of the reservoir is given up. -/
def Dev.abortCheck (d : Dev) : Dev :=
  match d.pwr.check with
  | some c =>
    let d := ({ d with pwr := { d.pwr with check := none } }).setField Reg.PWR_STATUS 7 1 0
    (d.setBleed d.pwr.ovEp).complete c.hdr 0xD1 7 []
  | none => d

/-- A stop of the data plane is given up. -/
def Dev.abortStop (d : Dev) : Dev :=
  match d.host.stopping with
  | some h => ({ d with host := { d.host with stopping := none } }).complete h 0x03 7 []
  | none => d

/-- Every Swage context is closed; its commands and buffers end with `ABORTED`. -/
def Dev.abortSwg (d : Dev) : Dev := [0, 1, 2, 3].foldl (fun (e : Dev) n => e.swgAbort 7 n) d

/-- Every command in progress but the key commands and host steps ends with `ABORTED`. -/
def Dev.abortWork (d : Dev) : Dev :=
  d.withdrawCommits.abortFlushes.abortSwap.abortCaps.abortCheck.abortStop.abortSwg

/-! ### Pads (Table 17.4) -/

/-- The pads take their levels of BOOT and of the states without a main supply. -/
def Dev.padsOff (d : Dev) : Dev :=
  let d := (List.range 8).foldl (fun (e : Dev) n => e.turnOff n) d
  let d := d.tbu.pins.foldl (fun (e : Dev) p => e.emit (.timedPin p.1 false)) d
  let d := if d.rbit Reg.FLG_CTRL 0 then d.emit (.rlpReset true) else d
  let d := if d.rbit Reg.PWR_STATUS 1 then d.emit (.resSwitch false) else d
  let d := d.setBleed false
  if d.pwr.thermLo then d.emit (.thermPin false) else d

/-- The radio stops: `RLP_RST_N` is low (R359). -/
def Dev.radioOff (d : Dev) : Dev :=
  if d.rbit Reg.FLG_CTRL 0 then d.flgStop.emit (.rlpReset true) else d

/-! ### SAFE (R36, R432, Table 1.7) -/

/-- The data plane and the alarm path are off: open sets, waiting frames, passes, messages and capture histories are
gone. -/
def Dev.dataPlaneOff (d : Dev) : Dev :=
  { d with
    eas := { d.eas with sets := [], cells := [], tiles := d.eas.tiles.map (fun (p : Nat × TileS) => (p.1, { p.2 with inq := [] })) }
    sfl := { d.sfl with passes := [], sets := [], msg := none, disagree := none, testing := [], tevHold := [] }
    pub := { d.pub with delayed := [] }
    sht := { d.sht with groups := d.sht.groups.map (fun (p : Nat × ShtGroup) => (p.1, { p.2 with st := 0, chans := [], held := [], trigs := [] })),
                        evs := [] }
    brz := { d.brz with pending := none, cmps := [], checkDue := none } }

/-- Whether a frame is a PTP message. -/
def TxFrame.isPtp (f : TxFrame) : Bool := match f.body with | .ptp _ _ _ _ _ => true | _ => false

/-- Frames that wait on the ports are dropped but for PTP messages. -/
def Dev.dropQueues (d : Dev) : Dev :=
  { d with net := { d.net with ports := d.net.ports.map (fun (p : Nat × PortS) =>
      (p.1, { p.2 with express := p.2.express.filter TxFrame.isPtp, preempt := p.2.preempt.filter TxFrame.isPtp, held := none })) } }

/-- Whether a frame ends with a tag made under a key of the plate. -/
def TxBody.tagged : TxBody → Bool
  | .goose _ _ _ _ _ _ _ _ _ tag => tag.isSome
  | .rsv _ _ _ _ _ _ _ _ _ _ _ tag => tag.isSome
  | .companion _ _ _ _ _ _ _ _ _ _ => true
  | .ptp _ _ _ _ _ | .prpSup _ | .c37 _ _ _ _ | .seal _ _ _ _ _ _ _ _ _ | .host _ => false

/-- A tamper ends the frames in transmission whose ICV or tag is not yet appended with an invalid FCS (Table 13.14). -/
def Dev.cutFrames (d : Dev) : Dev :=
  [0, 1, 2, 3].foldl (fun (e : Dev) n =>
    let p := e.port n
    if p.cur.any (fun c => e.rbit (Reg.NET_MACSEC_CTRL n) 0 || c.frame.body.tagged) then
      ((e.setPort n { p with cur := none }).emit (.badFcs n)).startNext n
    else e) d

/-- Enter SAFE: `reason` of Table 1.10 or a tamper, `order` of its event (Table 1.9). No key stays in the working plate. -/
def Dev.enterSafe (reason order : Nat) (d : Dev) : Dev :=
  let d := d.offerRole 2
  let d := ((d.abortKeys 7 0).abortWork.abortSteps).abortHostTx
  let d := (d.radioOff.dataPlaneOff.dropQueues).zeroize false
  (d.setOp .safe reason order).refreshAlms

/-- An unrecoverable fault (Table 1.10): SAFE from the states that Table 1.8 names; elsewhere it is recorded only (R38). -/
def Dev.unrecoverable (reason : Nat) (d : Dev) : Dev :=
  if legalCRD.contains d.op || d.op == .holdup then d.enterSafe reason 3
  else if d.op.mainOn then
    d.post 0x0002 [BitVec.ofNat 32 (d.op.code * 257 + (if d.op = .safe then d.reason else 0) * 65536), BitVec.ofNat 32 d.deg, 3, 0]
  else d

/-! ### The reservoir (R445 to R450) -/

/-- `PWR_RES_CTRL.EN`. -/
def Dev.resEn (d : Dev) : Bool := d.rbit Reg.PWR_RES_CTRL 0

/-- `C_UF`. -/
def Dev.cDecl (d : Dev) : Nat := d.fld Reg.PWR_RES_CAP 0 16

/-- C_meas, 0 until measured. -/
def Dev.cMeas (d : Dev) : Nat := d.fld Reg.PWR_RES_CMEAS 0 16

/-- V_ceil in mV, rounded down (R447). With no capacitance declared or measured the energy sets no limit. -/
def Dev.vCeil (d : Dev) : Nat :=
  let v := min (100 * min 160 (d.fld Reg.PWR_RES_CTRL 16 8)) 16000
  let c := max d.cDecl d.cMeas
  if c = 0 then v
  else
    let x := clampNat 1 200 (d.fld Reg.PWR_RES_CTRL 8 8) * 20000000000 / c
    min v (isqrt (Nat.log2 x / 2 + 1) x 0)

/-- C_min of R450 in uF. -/
def Dev.cMin (d : Dev) : Nat := if d.cMeas = 0 then d.cDecl else min d.cDecl d.cMeas

/-- Twice E_avail, in nJ x 10^-3: C_min (V_res^2 - V_MIN^2) with C in uF and V in mV (R450). -/
def Dev.twoAvail (d : Dev) : Nat :=
  let vmin := 500 * zeroActs 1 (d.fld Reg.PWR_RES_CTRL 24 4)
  d.cMin * (d.pwr.resMv * d.pwr.resMv - vmin * vmin)

/-- E_avail in mJ, rounded down. -/
def Dev.eAvail (d : Dev) : Nat := d.twoAvail / 2000000000

/-- E_need as a fraction of mJ: numerator over 10 x `EFF_10PCT` (R450). -/
def Dev.eNeed (d : Dev) : Nat × Nat := (20000 + 42 * d.fld Reg.PWR_RES_CAP 16 16, 10 * min 10 (zeroActs 5 (d.fld Reg.PWR_RES_CTRL 28 4)))

/-- `HOLDUP_READY`. -/
def Dev.holdupReady (d : Dev) : Bool := d.resEn && decide (d.eNeed.1 * 2000000000 ≤ d.twoAvail * d.eNeed.2)

/-- Show the reservoir: `PWR_RES_V`, `PWR_RES_E` and the status bits that follow from them. -/
def Dev.showRes (d : Dev) : Dev :=
  let d := d.setReg Reg.PWR_RES_V (BitVec.ofNat 32 (min 65535 d.pwr.resMv + d.vCeil * 65536))
  let d := d.setReg Reg.PWR_RES_E (BitVec.ofNat 32 (min 65535 d.eAvail + min 65535 (ceilDiv d.eNeed.1 d.eNeed.2) * 65536))
  d.setField Reg.PWR_STATUS 2 1 (if d.holdupReady then 1 else 0)

/-- Charging goes on or stops (`RES_CHARGING`). -/
def Dev.setCharging (on : Bool) (d : Dev) : Dev := d.setField Reg.PWR_STATUS 3 1 (if on then 1 else 0)

/-- Charging follows R446 with its hysteresis of 1 %; a check (R470) bleeds first and an over-voltage holds it off. -/
def Dev.chargeNow (d : Dev) : Dev :=
  let on := d.rbit Reg.PWR_STATUS 3
  let below := if on then decide (d.pwr.resMv < d.vCeil) else decide (d.pwr.resMv * 100 ≤ d.vCeil * 99)
  let bleeding := match d.pwr.check with | some c => c.bleeding | none => false
  d.setCharging (d.resEn && legalCRD.contains d.op && below && !bleeding && !d.pwr.ovEp)

/-- `PWR_VIN.FILTER_US` as it acts, in raw counts. -/
def Dev.vinFilter (d : Dev) : Nat := clampNat 10 1000 (d.fld Reg.PWR_VIN 16 10) * 1000

/-- `VIN_SNS` has been low for the whole filter time. -/
def Dev.vinLost (d : Dev) : Bool :=
  match d.pwr.vinLow with | some t => decide (t + d.vinFilter ≤ d.raw) | none => false

/-! ### HOLDUP (R43, R214, R280, R451 to R455, R462) -/

/-- Every recording capture closes now with a reason of Table 8.12; HOLDUP posts a record of each. -/
def Dev.closeRecordings (reason : Nat) (d : Dev) : Dev :=
  (List.range 16).foldl (fun (e : Dev) g => match e.recording g with
    | none => e
    | some c =>
      let e := e.closeCapture g reason (some (min c.endT e.t16))
      if reason = 2 then
        e.post 0x0021 ([BitVec.ofNat 32 c.id, BitVec.ofNat 32 (g + c.primary * 256)] ++ tickWords (Int.tdiv c.t0 65536))
      else e) d

/-- Enter HOLDUP: steps 2 to 4 of Table 14.3. -/
def Dev.enterHoldup (d : Dev) : Dev :=
  let d := (d.offerRole 2).withDnsState (Dev.setOp .holdup 0 2)
  let d := d.post 0x0030 [BitVec.ofNat 32 d.pwr.vinMv, BitVec.ofNat 32 d.pwr.resMv, BitVec.ofNat 32 d.eAvail, 0]
  let d := { d with sfl := { d.sfl with supply := true } }
  let d := (d.systemAlarm 16 0).refreshAlms
  let d := ((d.abortKeys 7 0).abortWork.closeRecordings 2).dropSets.radioOff
  let d := { d with phx := { d.phx with allP2 := true }, anl := { d.anl with holdup := true }, pub := { d.pub with delayed := [], withdrawn := true } }
  let d := (d.setField Reg.ANL_STATUS 19 1 1).setCharging false
  (d.setField Reg.CLK_STATUS 3 1 1).setField Reg.CLK_STATUS 2 1 0

/-! ### BOOT and switching off (R444, R454, R456) -/

/-- A pass through BOOT begins with a cause of Table 14.7 (R444): the main domain restarts; `order` is that of its event. -/
def State.enterBoot (cause order : Nat) (s : State) : State :=
  let was := s.dev.padsOff
  let n := min 0xFFFFFF (1 + max s.bd.pcc s.nv.pcc)
  let dbg := s.nv.debugNext && (s.nv.lc == .provisioned || s.nv.lc == .ret)
  let hop := min 65535 (s.nv.hopCtr + 1)
  let d := Dev.atBoot s.fuse n cause (min (hop * 65536) 4294967295) dbg (dbg || s.nv.lc == .blank)
  let d := { d with free := was.free, out := was.out, pwr := { d.pwr with resMv := was.pwr.resMv, vinMv := was.pwr.vinMv } }
  let d := if was.op.mainOn then
      let d := d.setReg Reg.GLB_STATE_EVT (was.reg Reg.GLB_STATE_EVT)
      let d := d.setField Reg.GLB_STATE_EVT 16 16 (d.fld Reg.GLB_STATE_EVT 16 16 + 1)
      let d := (d.raise Reg.GLB_STATE_EVT 0).setReg Reg.RST_WDT (was.reg Reg.RST_WDT)
      d.post 0x0002 [BitVec.ofNat 32 (was.op.code + 512), 0, BitVec.ofNat 32 order, 0]
    else d
  { s with nv := { s.nv with pcc := n, debugNext := false, hopCtr := hop }, bd := { s.bd with pcc := n, onVbat := false }, dev := d }

/-- The main domain switches off (BACKUP); the backup domain runs from `VBAT`. -/
def State.switchOff (s : State) : State :=
  let was := s.dev.padsOff
  let d := Dev.por
  { s with bd := { s.bd with onVbat := true }
           dev := { d with op := .backup, free := was.free, out := was.out, pwr := { d.pwr with resMv := was.pwr.resMv } } }

/-- Steps 5 and 6 of Table 14.3: staging is committed, derived time is copied, the working plate is zeroized and the
HOLDUP-in-progress bit is cleared. -/
def State.lastWork (s : State) : State :=
  let (nv, d) := commitAll 1024 s.nv s.dev
  let s : State := { s with nv := nv, dev := d }
  let s := s.copyRtc
  { s with bd := { s.bd with holdup := false }, dev := s.dev.zeroize false }

end Sys2Proof.Machine
end

