-- ==== Sys2Proof/Machine/Anneal.lean ====
section
/-! DEFINITION. The meanings of the Annealer's commands (14_power_annealer_startup.md). Temperatures are in 0.25 °C, as the
sensors give them. -/

namespace Sys2Proof.Machine

/-! ### Sensors (R459, R461) -/

/-- A sensor's reading and the raw count at which it last changed. -/
def takeReading (now : Nat) (old : Option (Int × Nat)) (v : Int) : Int × Nat :=
  match old with
  | some (w, t) => if v = w then (w, t) else (v, now)
  | none => (v, now)

/-- The readings after a period's. -/
def takeReadings (now : Nat) (old : List (Int × Nat)) (temps : List Int) : List (Int × Nat) :=
  (List.range 9).filterMap (fun i => temps[i]?.map (takeReading now old[i]?))

/-- Whether a reading lies within -50 to 150 °C. -/
def inRange (v : Int) : Bool := decide (-200 ≤ v) && decide (v ≤ 600)

/-- Whether a sensor is excluded: out of range, or unchanged for 1 s while another moved. -/
def excluded (now : Nat) (rs : List (Int × Nat)) (i : Nat) : Bool :=
  match rs[i]? with
  | none => true
  | some (v, t) =>
    !inRange v || (decide (t + 1000000000 ≤ now)
      && (List.range 9).any (fun j => j != i && (match rs[j]? with | some (_, u) => decide (now < u + 1000000000) | none => false)))

/-- The highest valid reading and its sensor. -/
def hottest (rs : List (Int × Nat)) (valid : List Nat) : Option (Int × Nat) :=
  valid.foldl (fun b i => match rs[i]?, b with
    | some (v, _), some (w, j) => if w < v then some (v, i) else some (w, j)
    | some (v, _), none => some (v, i)
    | none, b => b) none

/-- The sensors are read: `ANL_TSENSn`, `ANL_TJ`, and a record for every sensor newly excluded. Answers Tj. -/
def Dev.readSensors (temps : List Int) (d : Dev) : Option Int × Dev :=
  let first := d.anl.readings.isEmpty
  let rs := takeReadings d.raw d.anl.readings temps
  let valid := (List.range 9).filter (fun i => !excluded d.raw rs i)
  let lost := (List.range 9).filter (fun i => excluded d.raw rs i && (first || d.rbit Reg.ANL_TJ (16 + i)))
  let hot := hottest rs valid
  let d := { d with anl := { d.anl with readings := rs } }
  let d := (List.range 9).foldl (fun (e : Dev) i => match rs[i]? with
    | some (v, _) => e.setReg (Reg.ANL_TSENS i) (BitVec.ofInt 32 (v % 65536))
    | none => e) d
  let bits := (valid.map (fun i => 2 ^ i)).sum
  let d := match hot with
    | some (v, i) => d.setReg Reg.ANL_TJ (BitVec.ofNat 32 ((v / 4 % 256).toNat + i * 256 + bits * 65536))
    | none => d.setField Reg.ANL_TJ 16 9 0
  let tj := BitVec.ofInt 32 (match hot with | some (v, _) => v / 4 | none => 0)
  let d := lost.foldl (fun (e : Dev) i => (e.raise Reg.ANL_EVT 5).post 0x33 [3, tj, BitVec.ofNat 32 i, 0]) d
  (hot.map (fun p => p.1), d)

/-- `THERM_N` is driven low or released. -/
def Dev.driveTherm (low : Bool) (d : Dev) : Dev :=
  if d.pwr.thermLo = low then d
  else
    let d := ({ d with pwr := { d.pwr with thermLo := low } }).emit (.thermPin low)
    let d := d.setField Reg.ANL_STATUS 18 1 (if low then 1 else 0)
    if low then d.raise Reg.ANL_EVT 4 else d

/-- Tj passes the thresholds of R461, each with a record per episode. -/
def Dev.thermal (tj : Option Int) (d : Dev) : Dev :=
  match tj with
  | none => d.driveTherm true
  | some t =>
    let w := BitVec.ofInt 32 (t / 4)
    let sensor := BitVec.ofNat 32 (d.fld Reg.ANL_TJ 8 4)
    let warn := decide (400 ≤ t)
    let d := if warn && !d.anl.warnEp then (d.raise Reg.ANL_EVT 1).post 0x33 [1, w, sensor, 0] else d
    let shed := decide (440 ≤ t)
    let d := if shed && !d.rbit Reg.ANL_STATUS 17 then d.raise Reg.ANL_EVT 2 else d
    let d := d.setField Reg.ANL_STATUS 17 1 (if shed then 1 else 0)
    let trip := decide (500 ≤ t)
    let d := if trip && !d.anl.tripEp then d.post 0x33 [2, w, sensor, 0] else d
    let d := if trip then d.driveTherm true else if t < 460 then d.driveTherm false else d
    { d with anl := { d.anl with warnEp := warn, tripEp := trip || (d.anl.tripEp && decide (460 ≤ t)) } }

/-! ### The ladder (Table 14.6) -/

/-- The ladder stands at a step of its first six. -/
def Dev.setStep (n : Nat) (d : Dev) : Dev :=
  let d := { d with anl := { d.anl with step := n }, sht := { d.sht with p4shed := decide (2 ≤ n) } }
  let d := d.setField Reg.SWG_STATUS 0 1 (if 2 ≤ n then 1 else 0)
  if d.dns.anlLevel = n - 2 then d else d.setAnlLevel (n - 2)

/-- Channels of a step of P2. -/
def Dev.p2Step (d : Dev) : Nat := zeroActs 1 (d.fld Reg.ANL_CTRL 24 6)

/-- The ladder is fully shed. -/
def Dev.allShed (d : Dev) : Bool := decide (6 ≤ d.anl.step) && d.nextShed.isNone

/-- Nothing is shed. -/
def Dev.noneShed (d : Dev) : Bool := d.anl.step == 0 && d.anl.p2.isEmpty

/-- A step has been taken in either direction. -/
def Dev.stepTaken (d : Dev) : Dev :=
  let d := ({ d with anl := { d.anl with lastStep := d.raw } }).wrapAdd Reg.ANL_STEPS 1
  (d.setField Reg.ANL_STATUS 0 6 d.anl.step).setField Reg.ANL_STATUS 6 10 d.anl.p2.length

/-- Shed one step. -/
def Dev.shedStep (d : Dev) : Dev :=
  let d := if d.anl.step < 6 then d.setStep (d.anl.step + 1)
    else (List.range d.p2Step).foldl (fun (e : Dev) _ => e.shedOne) d
  d.stepTaken.raise Reg.ANL_EVT 0

/-- Restore one step. -/
def Dev.restoreStep (d : Dev) : Dev :=
  let d := if d.anl.p2.isEmpty then d.setStep (d.anl.step - 1)
    else (List.range d.p2Step).foldl (fun (e : Dev) _ => e.restoreOne) d
  d.stepTaken

/-- The target of R459 in mW. -/
def Dev.anlTarget (d : Dev) : Nat := d.fld Reg.ANL_CAP 0 8 * 100 - d.fld Reg.ANL_CTRL 0 8 * 10

/-- The step of a period (R459): shed, restore or neither. -/
def Dev.ladder (a : AnnealerInput) (tj : Option Int) (d : Dev) : Dev :=
  let dwell := zeroActs 1 (d.fld Reg.ANL_CTRL 16 8) * 1000000
  let wait := zeroActs 1 (d.fld Reg.ANL_CTRL 8 8) * 10000000
  let hot := (match tj with | some t => decide (440 ≤ t) | none => false) && decide (d.anl.lastTherm + dwell ≤ d.raw)
  let cool := match tj with | some t => decide (t < 420) | none => false
  if decide (d.anlTarget < a.forecast) || hot then
    if d.allShed then d
    else
      let d := d.shedStep
      if hot then { d with anl := { d.anl with lastTherm := d.raw } } else d
  else if cool && !d.noneShed && decide (a.restored ≤ d.anlTarget) && decide (d.anl.lastStep + wait ≤ d.raw) then d.restoreStep
  else d

/-- A cap that cannot be met with the ladder fully shed (R460). -/
def Dev.capUnmet (a : AnnealerInput) (d : Dev) : Dev :=
  let cap := d.fld Reg.ANL_CAP 0 8
  if !(d.allShed && decide (cap * 100 < a.forecast)) then
    ({ d with anl := { d.anl with overSince := none, unmetEp := false } }).setField Reg.ANL_STATUS 16 1 0
  else
    let t := d.anl.overSince.getD d.raw
    let d := { d with anl := { d.anl with overSince := some t } }
    if d.anl.unmetEp || decide (d.raw < t + 1000000000) then d
    else
      let d := ({ d with anl := { d.anl with unmetEp := true } }).setField Reg.ANL_STATUS 16 1 1
      (d.raise Reg.ANL_EVT 3).post 0x34 [BitVec.ofNat 32 cap, BitVec.ofNat 32 a.forecast, BitVec.ofNat 32 a.floor, 0]

/-- The ladder step in force as a completion reports it: steps 7 onward shed P2. -/
def Dev.stepInForce (d : Dev) : Nat := d.anl.step + ceilDiv d.anl.p2.length d.p2Step

/-- The caps that waited for the period apply in order. -/
def Dev.takeCaps (d : Dev) : Dev :=
  d.anl.pendCap.foldl (fun (e : Dev) p => e.setField Reg.ANL_CAP 0 8 p.2) d

/-- Their commands complete (R469). -/
def Dev.capsDone (caps : List (CmdHdr × Nat)) (floor : Nat) (d : Dev) : Dev :=
  caps.foldl (fun (e : Dev) p => e.complete p.1 0xD0 (if p.2 * 100 < floor then 8 else 0)
    [BitVec.ofNat 32 floor, BitVec.ofNat 32 (min 255 e.stepInForce)]) { d with anl := { d.anl with pendCap := [] } }

/-- Which waiting commands of the P5 class run in a period (R463): those that fit its forecast, one cost after another, those
that waited for 1 s, and all once P5 is restored. Answers those that run and those that wait on. -/
def p5Pick (now : Nat) (restored : Bool) (target : Nat) : Nat → List (CmdHdr × P5Op × Nat) →
    List (CmdHdr × P5Op × Nat) × List (CmdHdr × P5Op × Nat)
  | _, [] => ([], [])
  | load, x :: rest =>
    if restored || decide (load + 300 ≤ target) || decide (x.2.2 + 1000000000 ≤ now) then
      let (r, w) := p5Pick now restored target (load + 300) rest
      (x :: r, w)
    else
      let (r, w) := p5Pick now restored target load rest
      (r, x :: w)

/-- A period of the Annealer but for the commands that waited for it (R459 to R462). -/
def Dev.period (a : AnnealerInput) (d : Dev) : Dev :=
  let caps := d.anl.pendCap
  let d := d.takeCaps
  let (tj, d) := d.readSensors a.temps
  let d := (d.setReg Reg.ANL_POWER (BitVec.ofNat 32 (min 65535 a.forecast))).setReg Reg.ANL_FLOOR (BitVec.ofNat 32 (min 65535 a.floor))
  let d := d.thermal tj
  if d.op = .holdup then d
  else ((d.ladder a tj).capUnmet a).capsDone caps a.floor

/-- The commands that waited for the period run (R463), and key commands that waited for one of them start (R411). -/
def State.p5Period (a : AnnealerInput) (s : State) : State :=
  let (run, wait) := p5Pick s.dev.raw (s.dev.anl.step == 0) s.dev.anlTarget a.forecast s.dev.anl.p5wait
  let s := s.mapDev (fun d => { d with anl := { d.anl with p5wait := wait } })
  if run.isEmpty then s else (run.foldl (fun (s : State) x => s.p5Run x.1 x.2.1) s).keyResume

/-- `ANNEALER_PERIOD`: while the management cluster restarts, the grants stay as they are (R464). -/
def execAnnealerPeriod (a : AnnealerInput) (s : State) : Out :=
  .next (if !s.dev.op.mainOn || s.dev.op == .boot || s.dev.mgmt.restart then s
    else (s.mapDev (Dev.period a)).p5Period a)

/-- `ANL_CAP_SET` once its checks 2 to 4 hold: the cap waits for the next period (R469). -/
def Dev.capCmd (h : CmdHdr) (cap : Nat) (d : Dev) : Dev :=
  if cap < 50 ∨ 150 < cap then d.complete h 0xD0 2 []
  else { d with anl := { d.anl with pendCap := d.anl.pendCap ++ [(h, cap)] } }

/-- `ANL_CAP_SET`. -/
def execAnlCapSet (h : CmdHdr) (cap : Nat) (s : State) : Out := s.onDev (Dev.cmd h 0xD0 [] true legalCRD (Dev.capCmd h cap))

end Sys2Proof.Machine
end

