-- ==== Sys2Proof/Machine/Plane.lean ====
section
/-! DEFINITION. The meanings of the device commands, of the resets of the host interface and of the management cluster,
and of tamper (01_architecture.md, 12_host_rings_queues.md, 13_security.md, 14_power_annealer_startup.md). -/

namespace Sys2Proof.Machine

/-! ### Starting and stopping the data plane (R44, R45, R211, R249, R267, R317, R330, R359) -/

/-- Every rule becomes CLEAR (R211); what its status words count is kept. -/
def Dev.clearRules (d : Dev) : Dev :=
  let rules := d.sfl.rules.map (fun (p : Nat × RuleS) => (p.1, { p.2 with
    st := 0, indet := false, held := false, acount := 0, dcount := 0, terms := [TermS.new, TermS.new, TermS.new] }))
  let d := { d with sfl := { d.sfl with rules := rules, sets := [], passes := [], changed := [] } }
  let d := (List.range 128).foldl (fun (e : Dev) n => (e.setReg (Reg.SFL_ASSERT n) 0).setReg (Reg.SFL_INDET n) 0) d
  d.setField Reg.SFL_STATUS 16 13 0

/-- Capture groups leave IDLE with the data plane (R267). -/
def Dev.startGroups (d : Dev) : Dev :=
  let fresh := d.shtTab
  (List.range 16).foldl (fun (e : Dev) g =>
    let x := e.grp g
    if gEn fresh g && x.st == 0 then (e.setGrp g { x with st := 1, tab := fresh }).startHistory g
    else e.setGrp g { x with tab := fresh }) d

/-- The tables of the last commit hold from now on (R45). -/
def Dev.tablesHold (d : Dev) : Dev :=
  let now := d.tick
  { d with stm := { d.stm with prev := d.stm.prev.map (fun (p : Nat × PrevVer) => (p.1, { p.2 with inst := min p.2.inst now }))
                               inst := min d.stm.inst now }
           sfl := { d.sfl with inst := min d.sfl.inst now } }

/-- A twin begins as STANDBY (R330, Table 10.10 cause 1). -/
def Dev.startTwin (d : Dev) : Dev :=
  if d.isTwin then
    (({ d with brz := { d.brz with since := none, causes := [], giveUp := false } }).setRole 2 1).twinWatch
  else d

/-- The Densitometer starts: every part restarts at the level asked for (R250, R252). -/
def Dev.startDns (d : Dev) : Dev :=
  (({ d with dns := { d.dns with level := d.dnsTarget } }).clearFlags).dnsRestart true true true

/-- The data plane starts: RUN, or DEGRADED with a failed unit (Table 1.8). -/
def Dev.startPlane (d : Dev) : Dev :=
  let d := d.withDnsState (fun (e : Dev) => (e.setOp (if e.deg = 0 then .run else .degraded) 0 5).startDns)
  let d := d.tablesHold.clearRules.refreshAlms
  let d := (setsIn d.act).foldl (fun (e : Dev) n => e.chainReset n) d
  (d.startGroups.startTwin.phxStart.flgStart).startAlign.inputsChanged

/-- `DEV_START`. -/
def execDevStart (h : CmdHdr) (s : State) : Out :=
  s.onFlg (Dev.cmd h 0x02 [] true [.config] (fun d => d.startPlane.complete h 0x02 0 []))

/-- `DEV_STOP` once its checks 2 to 4 hold: pending commits are withdrawn and the stop begins. A second one before the
first has completed is refused. -/
def Dev.stopCmd (h : CmdHdr) (d : Dev) : Dev :=
  match d.host.stopping with
  | some _ => d.refuse h 0x03 6 1 0xFFFF []
  | none =>
    let d := d.withdrawCommits.offerRole 2
    { d with host := { d.host with stopping := some h } }

/-- `DEV_STOP`. -/
def execDevStop (h : CmdHdr) (s : State) : Out := s.onDev (Dev.cmd h 0x03 [] true [.run, .degraded] (Dev.stopCmd h))

/-- Every frame that waits at a tile is placed. -/
def Dev.drainTiles (d : Dev) : Dev :=
  d.eas.tiles.foldl (fun (e : Dev) p => (List.range p.2.inq.length).foldl (fun (e : Dev) _ => e.tileTake p.1) e) d

/-- Outputs are inactive: pulses end and latches open (R211). -/
def Dev.quietAlms (d : Dev) : Dev :=
  { d with sfl := { d.sfl with alms := d.sfl.alms.map (fun (p : Nat × AlmS) => (p.1, { p.2 with pulseEnd := none, latched := false })) } }

/-- The groups become IDLE; what their captures still back-fill from is kept (R280). -/
def Dev.stopGroups (d : Dev) : Dev :=
  let d := d.closeRecordings 1
  { d with sht := { d.sht with groups := d.sht.groups.map (fun (p : Nat × ShtGroup) => (p.1, { p.2 with st := 0, trigs := [] })), evs := [] } }

/-- The data plane stops (R44, R211, R249, R280, R359). -/
def Dev.stopPlane (d : Dev) : Dev :=
  let d := d.drainTiles.stopSets
  let d := d.runPasses (4096 * (d.sfl.sets.length + 1))
  let live := (d.sfl.rules.filter (fun p => p.2.st != 0)).length
  let d := (d.clearRules.quietAlms.systemAlarm 64 live).propagate [] 64
  let d := ((d.stopGroups.clearFlags).flgStop).withDnsState (fun (e : Dev) => (e.setOp .config 0 5).timeAnchor)
  d.refreshAlms

/-- `DEV_STOP_DONE`: the data plane is idle, and the stop completes. -/
def execDevStopDone (s : State) : Out :=
  s.onFlg (fun d => match d.host.stopping with
    | none => d
    | some h =>
      if d.op.running then
        let d := d.stopPlane
        ({ d with host := { d.host with stopping := none } }).complete h 0x03 0 []
      else d)

/-- `DEV_RESET`: the completion is written, and the device passes through BOOT (R376). -/
def execDevReset (h : CmdHdr) (s : State) : Out :=
  .next (s.cmd h 0x04 [] [.config, .run, .degraded, .safe] (fun s =>
    State.enterBoot 3 5 { s with dev := s.dev.complete h 0x04 0 [] }))

/-! ### Resets of the host interface (R41, R396) -/

/-- A function-level reset (R396). -/
def Dev.flrReset (d : Dev) : Dev :=
  if !d.op.mainOn then d
  else
    let d := { d with host := { d.host with fetched := d.host.fetched.map (fun (f : Fetched) => { f with noCqe := true }) } }
    let d := [0, 1, 2, 3].foldl (fun (e : Dev) n => e.swgAbort 0 n) d.abortFlushes
    let d := { d with
      regs := d.regs.filter (fun p => !(decide (0x120000 ≤ p.1) && decide (p.1 < 0x140000)))
      spq := []
      host := { d.host with polling := false, polls := 0, kicked := false, nextPoll := 0, unmasked := [], pendBits := [],
                            coal := [], ringSent := [] } }
    (d.setField Reg.STM_CTRL 0 1 0).setField Reg.SFL_CTRL 0 1 0

/-- `FUNCTION_LEVEL_RESET`. -/
def execFunctionLevelReset (s : State) : Out := s.onDev Dev.flrReset

/-- `PCIE_PERST`: the host interface is reset as by a function-level reset (Table 14.7). -/
def execPciePerst (s : State) : Out := s.onDev Dev.flrReset

/-! ### The management cluster (R464, Tables 1.10 and 14.7) -/

/-- The management watchdog expires: the cluster restarts, or at the second expiry within 1 s the device enters SAFE. -/
def Dev.watchdog (d : Dev) : Dev :=
  if !d.op.mainOn then d
  else
    let second := match d.mgmt.lastWdt with | some t => decide (d.raw ≤ t + 1000000000) | none => false
    let d := d.setField Reg.RST_WDT 0 16 (min 65535 (d.fld Reg.RST_WDT 0 16 + 1))
    let d := { d with mgmt := { restart := true, lastWdt := some d.raw, wdtPosts := d.mgmt.wdtPosts + 1 } }
    if second then d.unrecoverable 8 else d

/-- `MGMT_WATCHDOG_EXPIRY`. -/
def execMgmtWatchdogExpiry (s : State) : Out := s.onDev Dev.watchdog

/-- The restart of the management cluster ends: each expiry posts its record. -/
def Dev.mgmtBack (d : Dev) : Dev :=
  if !d.mgmt.restart then d
  else
    let n := d.mgmt.wdtPosts
    let last := d.fld Reg.RST_WDT 0 16
    let d := { d with mgmt := { d.mgmt with restart := false, wdtPosts := 0 } }
    (List.range n).foldl (fun (e : Dev) i => e.post 0x35 [BitVec.ofNat 32 (last + 1 + i - n), 0, 0, 0]) d

/-- `MGMT_RESTART_DONE`. -/
def execMgmtRestartDone (s : State) : Out := s.onDev Dev.mgmtBack

/-! ### The raw counter's self-check (R85) -/

/-- `RAW_COUNTER_CHECK`: more than 0.05 % off, or without its reference, the time base has failed. -/
def execRawCounterCheck (count : Nat) (refOk : Bool) (s : State) : Out :=
  s.onDev (fun d =>
    if !d.op.mainOn then d
    else
      let d := d.setField Reg.CLK_STATUS 0 1 (if refOk then 1 else 0)
      if refOk && decide (999500000 ≤ count) && decide (count ≤ 1000500000) then d else d.unrecoverable 6)

/-! ### Tamper (R430 to R433, Tables 13.13 and 13.14) -/

/-- Bit of a tamper source. -/
def tamperBit : TamperSrc → Nat
  | .loop0 => 0 | .loop1 => 1 | .shield => 2 | .temp => 3 | .freq => 4 | .glitch => 5

/-- Whether a source detects in the operating state: the first two loops and the temperature need their enable bit, and
the glitch detector the main domain. -/
def State.tamperLive (src : TamperSrc) (s : State) : Bool :=
  match src with
  | .loop0 => s.bd.srcEn.bit 0
  | .loop1 => s.bd.srcEn.bit 1
  | .temp => s.bd.srcEn.bit 3
  | .glitch => s.dev.op.mainOn
  | .shield | .freq => true

/-- The latch takes a cause (R431). -/
def Bd.latch (bit : Nat) (mainOff : Bool) (b : Bd) : Bd :=
  let first := b.causes == 0
  { b with root := none, causes := b.causes ||| 2 ^ bit, count := min 255 (b.count + 1), backup := b.backup || mainOff
           time := if first then b.rtcNs / 1000000000 else b.time, logged := b.logged && !first }

/-- BOOT ends in SAFE, with its record (Table 15.3). -/
def Dev.bootSafe (reason order ms : Nat) (d : Dev) : Dev :=
  let d := (d.setField Reg.RST_CAUSE 4 1 1).setReg Reg.RST_BOOT_MS (BitVec.ofNat 32 (min 65535 ms))
  let d := (d.zeroize false).setOp .safe reason order
  d.post 0x0001 [d.reg Reg.RST_CAUSE, d.reg Reg.RST_BOOT_INFO, d.glbState, d.reg Reg.RST_BOOT_MS]

/-- What the main domain does at a tamper. -/
def Dev.tamper (d : Dev) : Dev :=
  let d := d.zeroize false
  if d.op = .boot then d.bootSafe 1 1 d.opMs
  else if legalCRD.contains d.op ∨ d.op = .holdup then ((d.abortKeys 6 10).cutFrames).enterSafe 2 1
  else d

/-- `TAMPER_DETECTED`. -/
def execTamperDetected (src : TamperSrc) (s : State) : Out :=
  .next (if s.dev.op = .off ∨ s.tamperLive src = false then s
    else { s with bd := s.bd.latch (tamperBit src) (!s.dev.op.mainOn), dev := s.dev.tamper })

/-! ### Update messages by command (R429) -/

/-- `KEY_UPDATE` once its checks 2 to 4 hold. -/
def State.updateCmd (h : CmdHdr) (m : UpdateMsg) (s : State) : State :=
  if m.memErr then s.mapDev (fun d => d.memFail h 0xA6 [])
  else
    match msgReason s.fuse s.nv false s.dev.op m with
    | 0 =>
      if (m.typ = 1 ∨ m.typ = 5) ∧ s.dev.key.rngFail then s.mapDev (fun d => d.keyEnd h 0xA6 3 7)
      else
        let s := (s.msgEffect m).msgNote m 0 false
        let s := s.mapDev (fun d => d.complete h 0xA6 0 [BitVec.ofNat 32 m.typ, m.counter])
        if m.typ ≤ 5 then s.enterBoot 6 5 else s
    | 6 => (s.msgNote m 6 false).mapDev (fun d => d.refuse h 0xA6 6 1 0xFFFF [0, 0, 6])
    | r => (s.msgNote m r false).mapDev (fun d => d.complete h 0xA6 2 [0, 0, BitVec.ofNat 32 r])

/-- `KEY_UPDATE`. -/
def execKeyUpdate (h : CmdHdr) (m : UpdateMsg) (s : State) : Out :=
  .next (s.cmd h 0xA6 [] legalCRD (State.updateCmd h m))

end Sys2Proof.Machine
end

