-- ==== Sys2Proof/Machine/Power.lean ====
section
/-! DEFINITION. The meanings of the supplies' and the hold-up reservoir's commands (14_power_annealer_startup.md). -/

namespace Sys2Proof.Machine

/-! ### Supplies and reset pins (R34, R440 to R444) -/

/-- `POWER_UP`: BOOT from OFF or BACKUP. -/
def execPowerUp (s : State) : Out :=
  .next (if s.dev.op = .off ∨ s.dev.op = .backup then s.enterBoot 1 0 else s)

/-- `VBAT_APPLIED`: OFF becomes BACKUP. -/
def execVbatApplied (s : State) : Out :=
  .next (if s.dev.op = .off then { s with bd := { s.bd with onVbat := true }, dev := { s.dev with op := .backup } } else s)

/-- `POR_N_RESET`: BOOT at once, with no HOLDUP and no alarm. -/
def execPorNReset (s : State) : Out := .next (if s.dev.op.mainOn then s.enterBoot 2 0 else s)

/-- `BROWNOUT`: a power-on reset at once; what stood in staging is lost, and the HOLDUP-in-progress bit stays (R455). -/
def execBrownout (s : State) : Out := .next (if s.dev.op.mainOn then s.enterBoot 5 0 else s)

/-- `BACKUP_SWITCHOVER`: the backup domain changes its source and loses nothing (R443). -/
def execBackupSwitchover (toVbat : Bool) (s : State) : Out := .next { s with bd := { s.bd with onVbat := toVbat } }

/-- `BACKUP_DOMAIN_SUPPLY_LOST`: without the main feed, the loss of `VBAT` is the loss of the backup domain (R397). -/
def execBackupDomainSupplyLost (s : State) : Out :=
  .next (if s.dev.op = .backup then { s with bd := Bd.fresh, dev := { s.dev with op := .off } } else s)

/-! ### The board's input (R451, R452, R453, R456) -/

/-- The reservoir feeds the held bus, or is released. -/
def Dev.switchRes (on : Bool) (d : Dev) : Dev :=
  (d.setField Reg.PWR_STATUS 0 2 (if on then 2 else 1)).emit (.resSwitch on)

/-- `VIN_SNS` falls below `UV_MV`. -/
def Dev.vinFalls (mv : Nat) (d : Dev) : Dev :=
  if d.op.mainOn && d.resEn && d.pwr.vinLow.isNone && decide (mv < d.fld Reg.PWR_VIN 0 16) then
    ({ d with pwr := { d.pwr with vinMv := mv, vinLow := some d.raw } }).switchRes true
  else d

/-- `VIN_UNDERVOLTAGE`. -/
def execVinUndervoltage (mv : Nat) (s : State) : Out := s.onDev (Dev.vinFalls mv)

/-- `VIN_SNS` recovers within the filter time: a dip. -/
def Dev.dipEnd (d : Dev) : Dev :=
  if d.pwr.vinLow.isSome && !d.vinLost && d.op.mainOn && d.op != .holdup then
    let d := ({ d with pwr := { d.pwr with vinLow := none } }).switchRes false
    ((d.bump Reg.PWR_DIPS 1).raise Reg.PWR_EVT 0).chargeNow.showRes
  else d

/-- `SUPPLY_DIP_END`. -/
def execSupplyDipEnd (s : State) : Out := s.onDev Dev.dipEnd

/-- HOLDUP is entered: the backup domain notes it (R455), and while a source is LOCKED derived time is copied (R84). -/
def State.toHoldup (s : State) : State :=
  let s := if s.dev.tbu.sync = 2 then s.copyRtc else s
  { s with bd := { s.bd with holdup := true }, dev := s.dev.enterHoldup }

/-- `SUPPLY_LOST`: the input stayed low for the whole filter time (R451). -/
def execSupplyLost (s : State) : Out :=
  .next (if legalCRD.contains s.dev.op && s.dev.resEn && s.dev.vinLost then s.toHoldup else s)

/-- `LAST_GASP_COMPLETE`: steps 5 to 7 of Table 14.3; BOOT when the supply is valid again (R35, R454). -/
def execLastGaspComplete (vinValid : Bool) (s : State) : Out :=
  .next (if s.dev.op = .holdup then (if vinValid then s.lastWork.enterBoot 4 0 else s.lastWork.switchOff) else s)

/-- `SAFE_SUPPLY_LOST`: SAFE commits its staging and copies derived time before it switches off; BOOT switches off at once
(R456). -/
def execSafeSupplyLost (s : State) : Out :=
  .next (if s.dev.op = .safe ∧ s.dev.resEn = true ∧ s.dev.vinLost = true then s.lastWork.switchOff
    else if s.dev.op = .boot then s.switchOff else s)

/-! ### Charging (R446 to R449) -/

/-- A measured capacitance: more than 10 % off the declared one is a mismatch (R449). -/
def Dev.measuredC (c : Nat) (d : Dev) : Dev :=
  let d := d.setReg Reg.PWR_RES_CMEAS (BitVec.ofNat 32 (min 65535 c))
  let diff := max c d.cDecl - min c d.cDecl
  if d.cDecl < 10 * diff then
    let d := (d.setField Reg.PWR_STATUS 4 1 1).raise Reg.PWR_EVT 1
    d.post 0x32 [2, BitVec.ofNat 32 d.pwr.resMv, BitVec.ofNat 32 c, BitVec.ofNat 32 d.cDecl]
  else d.setField Reg.PWR_STATUS 4 1 0

/-- A check of the reservoir that has measured completes (R470). -/
def Dev.checkEnd (c : Nat) (d : Dev) : Dev :=
  match d.pwr.check with
  | none => d
  | some k =>
    if k.bleeding then d
    else
      let d := ({ d with pwr := { d.pwr with check := none } }).setField Reg.PWR_STATUS 7 1 0
      d.complete k.hdr 0xD1 0 [BitVec.ofNat 32 c, BitVec.ofNat 32 d.vCeil, BitVec.ofNat 32 ((d.raw - k.startRaw) / 1000000)]

/-- The reservoir is read at a voltage, and the charge in progress may have measured a capacitance. -/
def Dev.readRes (mv : Nat) (cMeas : Option Nat) (d : Dev) : Dev :=
  let d := { d with pwr := { d.pwr with resMv := mv } }
  let d := match cMeas with
    | some c => if d.rbit Reg.PWR_STATUS 3 then (d.measuredC c).checkEnd (min 65535 c) else d
    | none => d
  d.chargeNow.showRes

/-- `RES_CHARGE_CONTROL`. -/
def execResChargeControl (mv : Nat) (cMeas : Option Nat) (s : State) : Out :=
  s.onDev (fun d => if legalCRD.contains d.op && d.resEn then d.readRes mv cMeas else d)

/-- The comparator finds the reservoir above 16.5 V: it bleeds, once per episode with a record (R448). -/
def Dev.overVoltage (mv : Nat) (d : Dev) : Dev :=
  if !d.op.mainOn || decide (mv ≤ 16500) then d
  else
    let first := !d.pwr.ovEp
    let d := ({ d with pwr := { d.pwr with resMv := mv, ovEp := true } }).setBleed true
    let d := (d.setField Reg.PWR_STATUS 6 1 1).chargeNow.showRes
    if first then (d.raise Reg.PWR_EVT 2).post 0x32 [1, BitVec.ofNat 32 mv, BitVec.ofNat 32 d.cMeas, BitVec.ofNat 32 d.cDecl] else d

/-- `RES_OVERVOLTAGE`. -/
def execResOvervoltage (mv : Nat) (s : State) : Out := s.onDev (Dev.overVoltage mv)

/-- The reservoir is below 16.0 V again. -/
def Dev.overVoltageEnd (mv : Nat) (d : Dev) : Dev :=
  if !d.pwr.ovEp || decide (16000 ≤ mv) then d
  else
    let d := { d with pwr := { d.pwr with resMv := mv, ovEp := false } }
    let bleeding := match d.pwr.check with | some c => c.bleeding | none => false
    ((d.setBleed bleeding).setField Reg.PWR_STATUS 6 1 0).chargeNow.showRes

/-- `RES_OVERVOLTAGE_END`. -/
def execResOvervoltageEnd (mv : Nat) (s : State) : Out := s.onDev (Dev.overVoltageEnd mv)

/-! ### The check of the reservoir (R470) -/

/-- `PWR_RES_CHECK` once its checks 2 to 4 hold. -/
def Dev.resCheck (h : CmdHdr) (d : Dev) : Dev :=
  if !d.resEn || d.pwr.check.isSome || d.rbit Reg.PWR_STATUS 1 then d.refuse h 0xD1 6 1 0xFFFF []
  else
    let d := { d with pwr := { d.pwr with check := some { hdr := h, startRaw := d.raw, startMv := d.pwr.resMv, bleeding := true } } }
    ((d.setField Reg.PWR_STATUS 7 1 1).setBleed true).setCharging false

/-- `PWR_RES_CHECK`. -/
def execPwrResCheck (h : CmdHdr) (s : State) : Out := s.onDev (Dev.cmd h 0xD1 [] true legalCRD (Dev.resCheck h))

/-- The reservoir has fallen by 1.0 V: it recharges, to be measured. -/
def Dev.bled (mv : Nat) (d : Dev) : Dev :=
  match d.pwr.check with
  | none => d
  | some c =>
    if c.bleeding && decide (mv + 1000 ≤ c.startMv) then
      let d := { d with pwr := { d.pwr with resMv := mv, check := some { c with bleeding := false } } }
      ((d.setBleed d.pwr.ovEp).chargeNow).showRes
    else d

/-- `RES_CHECK_BLEED_DONE`. -/
def execResCheckBleedDone (mv : Nat) (s : State) : Out := s.onDev (Dev.bled mv)

end Sys2Proof.Machine
end

