-- ==== Sys2Proof/Machine/Boot.lean ====
section
/-! DEFINITION. The meaning of `BOOT_COMPLETE` (Table 14.9): what a pass through BOOT does from the Hallmark key to CONFIG or
SAFE. The steps before it are those of entering BOOT and of the update messages. -/

namespace Sys2Proof.Machine

/-- A slot of the image is accepted (R467). -/
def imageAccepted (svnMin : Nat) (i : ImageSlot) : Bool :=
  i.magicOk && i.keyOk && i.sigOk && i.bodyOk && decide (svnMin ≤ i.svn)

/-- The image BOOT takes: slot A first, then slot B; the slot number and the image. -/
def bootImage? (svnMin : Nat) (r : BootReport) : Option (Nat × ImageSlot) :=
  if imageAccepted svnMin r.slotA then some (0, r.slotA)
  else if imageAccepted svnMin r.slotB then some (1, r.slotB)
  else none

/-! ### Step 5: the Hallmark key (R399, R423) -/

/-- The Hallmark key stands in slot 0, unless derivation fails, the life cycle is SCRAP or debug is open. -/
def State.deriveHallmark (r : BootReport) (s : State) : State :=
  if r.hallmarkOk && s.nv.helperOk && s.nv.lc != .scrap && !s.dev.key.debugged then
    s.mapDev (fun d =>
      let k : KeyRec := { copy := false, typ := 4, origin := 4, usage := 256, keyId := 0, gen := 0, kcv := Config.kcv 4 r.hallmarkKey % 2 ^ 24,
                          instMs := d.opMs, instPcc := d.fld Reg.PWR_PCC 0 24, hostTag := 0, key := r.hallmarkKey }
      { d with key := { d.key with plate := KMap.put d.key.plate 0 k, attestOk := true, pub := Config.pubOf r.hallmarkKey } })
  else s

/-! ### The proof log (R476) -/

/-- Records whose CRC fails are damaged. -/
def Partition.damage (nums : List Nat) (p : Partition) : Partition :=
  { p with recs := p.recs.map (fun (c : Committed) => { c with damaged := c.damaged || nums.contains c.num }) }

/-- Damaged records of a partition. -/
def Partition.damagedCount (p : Partition) : Nat := (p.recs.filter (fun c => c.damaged)).length

/-- BOOT examines both partitions. -/
def State.scanLog (r : BootReport) (s : State) : State :=
  let nv := { s.nv with gen := s.nv.gen.damage r.damagedGen, sec := s.nv.sec.damage r.damagedSec }
  let n := nv.gen.damagedCount + nv.sec.damagedCount
  let bad := nv.gen.bad.length + nv.sec.bad.length
  let d := s.dev.setReg Reg.PLG_DAMAGED (BitVec.ofNat 32 n)
  { s with nv := nv, dev := if n = 0 then d else d.post 0x3F [BitVec.ofNat 32 n, BitVec.ofNat 32 bad, 0, 0] }

/-! ### Step 7: what the backup domain held (R434, R435, R455) -/

/-- The life-cycle states whose vault must hold a root. -/
def LifeCycle.armed (lc : LifeCycle) : Bool := lc == .provisioned || lc == .field

/-- The HOLDUP-in-progress bit is examined and cleared. -/
def State.checkHoldup (s : State) : State :=
  if s.bd.holdup then
    { s with bd := { s.bd with holdup := false }, dev := (s.dev.raise Reg.PWR_EVT 3).postLate 0x31 [0, 0, 0, 0] }
  else s

/-- A vault without a root and without a latched cause has lost its supply. -/
def State.checkVault (s : State) : State :=
  if s.nv.lc.armed && s.bd.root.isNone && s.bd.causes == 0 then { s with bd := s.bd.latch 6 true } else s

/-- The latch is committed; answers the SAFE reason that it gives, or clears it. -/
def State.checkLatch (s : State) : Option Nat × State :=
  let s := s.noteLatch
  if s.bd.causes = 0 then (none, s)
  else if s.nv.lc.armed then (some (if s.bd.backup then 3 else 1), s)
  else (none, { s with bd := s.bd.clearLatch })

/-! ### Step 9: keys, access control table, board block (R408, R438, R445, R496) -/

/-- One slot's current copy is unwrapped; its shadow copy is erased. -/
def State.unwrapSlot (bad : List Nat) (s : State) (p : Nat × KeyCopies) : State :=
  let copy := s.bd.copyOf p.1
  let s : State := { s with nv := s.nv.eraseShadow (!copy) p.1 }
  if s.dev.key.debugged || !s.nv.keysUsable then s
  else match (if copy then p.2.c1 else p.2.c0) with
    | none => s
    | some k =>
      if bad.contains p.1 then
        s.mapDev (fun d => ((d.bump Reg.KEY_LOST 1).raise Reg.KEY_EVT 2).post 0x83 [BitVec.ofNat 32 p.1, k.keyId, 0, 0])
      else s.mapDev (fun d => { d with key := { d.key with plate := KMap.put d.key.plate p.1 k } })

/-- Every slot of the key store is unwrapped. -/
def State.unwrapKeys (bad : List Nat) (s : State) : State := s.nv.store.foldl (State.unwrapSlot bad) s

/-- Whether an offset is one of the access control table. -/
def isAct (off : Nat) : Bool :=
  (decide (0x10000 ≤ off) && decide (off < 0x10100)) || (decide (0x10100 ≤ off) && decide (off < 0x10120)) || off == 0x10200

/-- The default table of R438. -/
def actDefault : List (Nat × Word) :=
  (List.range 8).flatMap (fun c =>
    (List.range 8).map (fun w => (Reg.ACT_PERM (c * 8 + w),
      if c = 0 then 0xFFFFFFFF#32 else if w = 0 then 0xFFFFFFEF#32 else if w = 5 then 0 else 0xFFFFFFFF#32))
    ++ [(Reg.ACT_CTX_SLOTS c, if c = 0 then 0xF701#32 else 1#32)])

/-- The access control table is loaded: from the image, or the default. -/
def Dev.loadAct (img : Option (List (Nat × Word))) (d : Dev) : Dev :=
  let words := img.getD actDefault
  let d := (words.filter (fun p => isAct p.1)).foldl (fun (e : Dev) p => e.setReg p.1 p.2) d
  (d.setField (Reg.ACT_PERM 5) 7 1 1).setReg Reg.ACT_STATUS (if img.isSome then 1 else 0)

/-- The reservoir parameters of the board block; without one the reservoir is not used. -/
def Dev.loadBoard (b : Option BoardBlock) (d : Dev) : Dev :=
  match b with
  | some b => ((d.setReg Reg.PWR_RES_CTRL (b.resCtrl &&& 0xFFFFFF7F#32)).setReg Reg.PWR_RES_CAP b.resCap).setReg Reg.PWR_VIN
      (b.vin &&& 0x03FFFFFF#32)
  | none => d.setReg Reg.PWR_RES_CTRL 0

/-- DRAM is trained, or is not there. -/
def Dev.loadDram (mib : Nat) (d : Dev) : Dev :=
  if mib = 0 then (d.setReg Reg.MEM_CFG 0).setField Reg.MEM_STATUS 0 1 0
  else ((d.setReg Reg.MEM_CFG (BitVec.ofNat 32 (mib * 7 / 8 % 8192 + 4266 * 65536))).setField Reg.MEM_STATUS 0 1 1).setField Reg.CLK_STATUS 2 1 1

/-! ### Step 10: self-tests (R37, R221, Table 4.7) -/

/-- A Safelight lane fails its self-test in BOOT: no notice, since rings are not served. -/
def Dev.bootLane (lane : Nat) (bad : Bool) (d : Dev) : Dev :=
  if !bad then d.setField Reg.SFL_STATUS (2 + lane) 1 1
  else
    let d := { d with sfl := if lane = 0 then { d.sfl with laneA := false } else { d.sfl with laneB := false } }
    let d := (d.setField Reg.SFL_STATUS 5 3 5).setField Reg.SFL_STATUS 8 1 lane
    (d.unitFailed 1).post 0x12 [BitVec.ofNat 32 (lane + 1280), d.reg Reg.SFL_MISMATCH, 0, 0]

/-- A lane of the Phasor chain fails its self-test in BOOT. -/
def Dev.bootPhx (lane : Nat) (d : Dev) : Dev :=
  if d.phx.failed.contains lane || decide (8 ≤ lane) then d
  else
    let d := ({ d with phx := { d.phx with failed := lane :: d.phx.failed } }).unitFailed 4
    d.post 0x11 [BitVec.ofNat 32 lane, 0, 0, 0]

/-- Swage fails its self-test in BOOT. -/
def Dev.bootSwg (d : Dev) : Dev := ((d.setField Reg.SWG_STATUS 1 1 1).unitFailed 3).post 0x14 [0, 0, 0, 0]

/-- Every unit tests itself. -/
def Dev.selfTests (fz : Fuse) (r : BootReport) (d : Dev) : Dev :=
  let d := r.tilesBad.foldl (fun (e : Dev) t => e.tileFault fz t 5) d
  let d := r.phxBad.foldl (fun (e : Dev) l => e.bootPhx l) d
  let d := (d.bootLane 0 r.laneABad).bootLane 1 r.laneBBad
  let d := d.setField Reg.SFL_STATUS 4 1 (if r.laneABad || r.laneBBad then 0 else 1)
  let d := (r.coresBad.filter (fun c => decide (c < 16))).foldl (fun (e : Dev) c => e.coreFault c 4) d
  let d := if r.swageBad && fz.part.hasSwg then d.bootSwg else d
  d.setReg Reg.SHT_SKEW_CAL (if fz.part.trigSample then 0 else BitVec.ofNat 32 r.skewCal)

/-! ### Step 11: derived time and CONFIG (R84, R468, R481) -/

/-- Derived time is loaded from the backup real-time counter. -/
def Dev.loadTime (ns : Nat) (d : Dev) : Dev :=
  ({ d with tbu := { d.tbu with anchor := (ns * 2 ^ 48 : Nat), anchorRaw := d.raw } }).restartStrobes

/-- BOOT ends in CONFIG. -/
def Dev.bootConfig (ms : Nat) (d : Dev) : Dev :=
  let d := (d.setReg Reg.RST_BOOT_MS (BitVec.ofNat 32 (min 65535 ms))).setOp .config 0 0
  let d := d.post 0x0001 [d.reg Reg.RST_CAUSE, d.reg Reg.RST_BOOT_INFO, d.glbState, d.reg Reg.RST_BOOT_MS]
  d.timeAnchor.chargeNow.showRes

/-- A BOOT with debug open is recorded. -/
def State.noteDebug (s : State) : State :=
  if s.dev.key.debugged then s.mapDev (fun d => d.post 0x89 [BitVec.ofNat 32 s.nv.lc.code, 0, 0, 0]) else s

/-- The steps from the accepted image to CONFIG. -/
def State.bootImage (r : BootReport) (slot : Nat) (i : ImageSlot) (s : State) : State :=
  let info := BitVec.ofNat 32 (slot * 3 + i.svn % 256 * 256 + i.fwVer % 65536 * 65536)
  let s := s.mapDev (fun d => ({ d with key := { d.key with measure := i.measure } }).setReg Reg.RST_BOOT_INFO info)
  let s := s.mapDev (fun d => d.loadDram r.dramMib)
  let s := (s.unwrapKeys r.badKeys).noteDebug
  let s := s.mapDev (fun d => ((d.loadAct i.act).loadBoard i.board).selfTests s.fuse r)
  let s := s.mapDev (fun d => (d.loadTime s.bd.rtcNs).bootConfig r.bootMs)
  let s : State := { s with nv := { s.nv with bootSvn := max s.nv.bootSvn i.svn } }
  if r.laneABad && r.laneBBad then s.mapDev (Dev.unrecoverable 5) else s

/-- What a pass through BOOT does (Table 14.9). -/
def State.boot (r : BootReport) (s : State) : State :=
  let s := ((s.deriveHallmark r).scanLog r).checkHoldup
  match s.checkVault.checkLatch with
  | (some reason, s) => s.mapDev (Dev.bootSafe reason 1 r.bootMs)
  | (none, s) =>
    match bootImage? s.nv.bootSvn r with
    | some (slot, i) => s.bootImage r slot i
    | none => s.mapDev (fun d => (d.setReg Reg.RST_BOOT_INFO 2).bootSafe 4 3 r.bootMs)

/-- `BOOT_COMPLETE`. -/
def execBootComplete (r : BootReport) (s : State) : Out := .next (if s.dev.op = .boot then s.boot r else s)

end Sys2Proof.Machine
end

