-- ==== Sys2Proof/Machine/Brz.lean ====
section
/-! DEFINITION. The meanings of the Publisher's and Braze's commands (10_publishing_and_braze.md). -/

namespace Sys2Proof.Machine

/-! ### The Publisher (R308, R317) -/

/-- `STANDBY_DELAYED_SEND`: the oldest delayed set frame leaves once its time has come. -/
def execStandbyDelayedSend (s : State) : Out :=
  s.onDev (fun d => match d.pub.delayed with
    | [] => d
    | x :: t =>
      if decide (d.raw < x.due) || !(d.op.running || d.op == .config) || d.pub.withdrawn then d
      else ({ d with pub := { d.pub with delayed := t } }).sendSet x)

/-- Whether the seal of a set's second is to be sent: the set seals, and the data plane runs or has left frames to cover. -/
def Dev.sealDue (n : Nat) (d : Dev) : Bool :=
  oEn d.act n && (outIn d.act n 0).bit 15 && !d.pub.withdrawn &&
    (d.op.running || (d.op == .config && (match KMap.get? d.pub.chains n with | some c => !c.frames.isEmpty | none => false)))

/-- `SEAL_DATAGRAM` of an output set. -/
def execSealDatagram (set : Nat) (s : State) : Out := s.onDev (fun d => if d.sealDue set then d.sealSecond set else d)

/-! ### Links (R318 to R320) -/

/-- The slot that names the key of the link to a device on a port (R318). -/
def Dev.linkSlot (port dev : Nat) (d : Dev) : Option Nat :=
  if d.isTwin && dev == d.brzPartner then some (d.fld Reg.BRZ_TWIN 24 8)
  else if port = 0 then (if d.rbit Reg.BRZ_UP 0 && dev == d.brzParent then some (d.fld Reg.BRZ_UP 24 8) else none)
  else (d.children.find? (fun c => c.2 == dev)).map (fun c => eKeySlot (d.entry c.1))

/-- Whether a frame's tag verifies: under the link's key, or for 100 ms under the one before it. -/
def Dev.brzAuth (f : BrzFrame) (d : Dev) : Bool :=
  match d.linkSlot f.port f.src with
  | none => false
  | some n => (f.authCur && (d.keyFor 4 n).isSome) || (f.authPrev && KMap.has d.key.grace n)

/-- A link changes to UP or DOWN. -/
def Dev.linkChange (port dev : Nat) (up : Bool) (d : Dev) : Dev :=
  let held := d.childHeld dev
  let twin := d.twinUp
  let d := (d.setPeer port dev { d.peer port dev with up := up }).raise Reg.BRZ_EVT 0
  let d := if d.isTwin && d.twinUp != twin then d.raise Reg.BRZ_EVT 3 else d
  let d := if port = 1 ∧ d.childHeld dev ≠ held then d.localChange else d
  d.twinWatch

/-! ### What a frame brings -/

/-- A child's condensed set (R322). -/
def Dev.brzSet (src tick rc rev : Nat) (stat : BitVec 16) (p : Payload) (d : Dev) : Dev :=
  let key (e : List Word) : Bool := eKind e == 3 && eId e == src
  let go (i : Nat) (e : List Word) (d : Dev) : Dev :=
    if eRate e ≠ rc ∨ ePh e ≠ p.ph.length ∨ eAn e ≠ p.an.length ∨ eDg e ≠ p.dg.length then d.streamFail i 1
    else
      let d := d.streamAccept i
      if !d.op.running then d
      else
        d.toTile { idx := i, rev := rev, num := tick, den := 1000000000, stat := stat,
                   mtq := (Config.fn 58 [BitVec.ofNat 32 stat.toNat]).toNat % 256, pay := p, arrNs := d.tick, arrRaw := d.raw }
  match d.lookup key (fun _ => (tick, 1000000000)) with
  | .none => d.bump Reg.STM_NOMATCH 1
  | .retired i => d.streamFail i 5
  | .version i e _ => go i e d

/-- The parent acknowledges an ALARM (R324, R330). -/
def Dev.brzAck (f : BrzFrame) (v : Word) (d : Dev) : Dev :=
  match d.linkSlot f.port f.src with
  | some n => if d.brzActive then d.brzSend f.port d.brzSrc f.src n (.ack f.session f.seq v) else d
  | none => d

/-- A GIVE_UP is acknowledged on its port. -/
def Dev.twinAck (f : BrzFrame) (d : Dev) : Dev :=
  d.brzSend f.port d.brzOwn f.src (d.fld Reg.BRZ_TWIN 24 8) (.ack f.session f.seq 0)

/-- A child's alarm (R324, R325): a state is delivered only when its version is newer. -/
def Dev.brzAlarm (f : BrzFrame) (v : Word) (held : Bool) (d : Dev) : Dev :=
  let was := d.childHeld f.src
  let x := d.peer f.port f.src
  let newer := match x.v with
    | none => true
    | some o => decide (0 < (v - o).toInt)
  let d := if newer then d.setPeer f.port f.src { x with v := some v, held := held } else d
  let d := if d.childHeld f.src != was then d.localChange else d
  d.brzAck f v

/-- An acknowledgement: of the alarm version in force, or of GIVE_UP, with which the role is given up (R332). -/
def Dev.brzAcked (f : BrzFrame) (v : Word) (d : Dev) : Dev :=
  if d.isTwin && f.src == d.brzPartner then
    if !d.brz.giveUp then d
    else
      let hs := d.brz.swap
      let c := firstCause d.brz.causes
      let d : Dev := { d with brz := { d.brz with giveUp := false, causes := [], swap := [], pending := none } }
      let d := (d.setRole 2 c).twinWatch
      hs.foldl (fun (e : Dev) h => e.complete h 0x80 0 []) d
  else
    match d.brz.pending with
    | some (.alarm w _ _ _ _ _) => if v = w then { d with brz := { d.brz with pending := none } } else d
    | _ => d

/-- The UTC figures of the selected Braze parent (R327). -/
def Dev.brzUtc (utc : Word) (d : Dev) : Dev :=
  let d := (d.setField Reg.TBU_UTC 0 8 (utc.field 0 8)).setField Reg.TBU_UTC 11 1 (utc.field 11 1)
  let occ := d.tbu.leapOccur
  let d := d.setField Reg.TBU_UTC 10 1 (utc.field 10 1)
  let d : Dev := { d with tbu := { d.tbu with leapOccur := if utc.bit 10 then some (occ.getD d.raw) else none } }
  if utc.bit 8 then d.setLeap 1 (utc.bit 9)
  else if d.rbit Reg.TBU_UTC 8 then ({ d with tbu := { d.tbu with leapSrc := 0 } }).setField Reg.TBU_UTC 8 2 0
  else d

/-- The parent's time (R327): an offset as R64 forms it; one a second counts towards qualification. -/
def Dev.brzTime (egress : Nat) (uncert utc : Word) (d : Dev) : Dev :=
  let d : Dev := { d with brz := { d.brz with upUncert := uncert.toNat } }
  let o := d.t16 - (egress * 65536 : Nat) - d.brz.delay - signedOf 32 (d.reg Reg.BRZ_UP_ASYM).toNat * 256
  let x := d.srcS 4
  let d := if x.qualified || x.offs.isEmpty || decide (x.lastRaw + 1000000000 ≤ d.raw) then d.measure 4 o else d
  if d.tbu.src = 4 then d.brzUtc utc else d

/-- The partner's state (R328, Table 10.9). -/
def Dev.brzTwinState (p : TwinPartner) (d : Dev) : Dev :=
  let mirror := if p.role = 1 then some (p.links, p.v) else d.brz.mirror
  (({ d with brz := { d.brz with partner := some p, mirror := mirror } }).noteMismatch).twinWatch

/-- The partner gives up the ACTIVE role. -/
def Dev.brzGiveUp (f : BrzFrame) (cause : Nat) (d : Dev) : Dev :=
  let d := if d.brz.role = 2 then d.takeover cause else d
  d.twinAck f

/-- An accepted frame is delivered by its type (Table 10.8). -/
def Dev.brzDeliver (f : BrzFrame) (d : Dev) : Dev :=
  let twin := d.isTwin && f.src == d.brzPartner
  let child := f.port == 1 && !twin
  let parent := f.port == 0 && !twin
  match f.payload with
  | .set tick rc rev stat _ p => if child then d.brzSet f.src tick rc rev stat p else d
  | .alarm v held _ _ _ _ => if child then d.brzAlarm f v held else d
  | .ack _ _ v => if parent || twin then d.brzAcked f v else d
  | .heartbeat => d
  | .timeSync egress unc utc _ => if parent then d.brzTime egress unc utc else d
  | .timeReq =>
    if !child || !d.brzActive then d
    else
      match d.linkSlot f.port f.src with
      | some n => d.brzSend 1 d.brzSrc f.src n (.timeResp d.t16 d.t16)
      | none => d
  | .timeResp t2 t3 =>
    match d.brz.t1 with
    | some t1 => if parent then { d with brz := { d.brz with t1 := none, delay := ((d.t16 - t1) - (t3 - t2)) / 2 } } else d
    | none => d
  | .twinMask set k m => if twin then (d.putTwinCmp { d.twinCmp set k with other := some m }).twinDigest set k else d
  | .twinDigest set k x => if twin then (d.putTwinCmp { d.twinCmp set k with oDig := some x }).twinJudge set k else d
  | .twinState p => if twin then d.brzTwinState p else d
  | .giveUp cause => if twin then d.brzGiveUp f cause else d

/-- A frame with the (session, sequence) accepted last: an ALARM or GIVE_UP is acknowledged again (R319). -/
def Dev.brzRepeat (f : BrzFrame) (d : Dev) : Dev :=
  match f.payload with
  | .alarm v _ _ _ _ _ => d.brzAck f v
  | .giveUp _ => d.twinAck f
  | _ => d

/-- (session, sequence) as one number. -/
def seqNum (session seq : Word) : Nat := session.toNat * 4294967296 + seq.toNat

/-- A Braze frame arrives (R318, R319). -/
def Dev.brzReceive (f : BrzFrame) (d : Dev) : Dev :=
  if !d.brzRun || !d.brzPortOn f.port then d
  else if f.dst ≠ d.brzOwn ∧ ¬ (d.isTwin = true ∧ f.dst = d.brzPair) then d.bump (Reg.BRZ_PORT_NOPEER f.port) 1
  else if !d.brzAuth f then d.bump (Reg.BRZ_PORT_AUTH f.port) 1
  else
    let x := d.peer f.port f.src
    let n := seqNum f.session f.seq
    let o := seqNum x.session x.seq
    if n < o then d.bump (Reg.BRZ_PORT_REPLAY f.port) 1
    else if n = o then (d.bump (Reg.BRZ_PORT_REPEAT f.port) 1).brzRepeat f
    else
      let d := d.wrapAdd (Reg.BRZ_PORT_RXFRAMES f.port) 1
      let d := d.setPeer f.port f.src { x with session := f.session, seq := f.seq, lastRx := d.raw }
      let d := if x.up then d else d.linkChange f.port f.src true
      d.brzDeliver f

/-- `BRAZE_FRAME_RECEIVED`. -/
def execBrazeFrameReceived (f : BrzFrame) (s : State) : Out := s.onDev (Dev.brzReceive f)

/-! ### What is sent by the clock -/

/-- A HEARTBEAT on every link the device speaks on (R320, R330). -/
def Dev.heartbeats (d : Dev) : Dev :=
  let d := if d.uplink then d.brzUp .heartbeat else d
  let d := if d.brzActive then
      d.children.foldl (fun (e : Dev) c => e.brzSend 1 e.brzSrc c.2 (eKeySlot (e.entry c.1)) .heartbeat) d
    else d
  if d.isTwin then d.brzTwin .heartbeat else d

/-- `BRZ_HEARTBEAT_TX`. -/
def execBrzHeartbeatTx (s : State) : Out :=
  s.onDev (fun d =>
    if d.brzRun && decide (d.brz.nextHb ≤ d.raw) then
      ({ d with brz := { d.brz with nextHb := d.raw + d.hbNs } }).heartbeats
    else d)

/-- `BRZ_LINK_DOWN`: no frame was accepted for three HEARTBEAT periods. -/
def execBrzLinkDown (port dev : Nat) (s : State) : Out :=
  s.onDev (fun d =>
    let x := d.peer port dev
    if x.up && decide (x.lastRx + 3 * d.hbNs ≤ d.raw) then d.linkChange port dev false else d)

/-- The alarm that is not acknowledged is sent again (R324), under its sequence number when no other frame has gone to the
parent since, and otherwise under a new one. -/
def Dev.alarmAgain (d : Dev) : Dev :=
  match d.brz.pending with
  | none => d
  | some p =>
    if !d.uplink || !d.brzRun || decide (d.raw < d.brz.nextRto) then d
    else
      let x := d.brzNext 0 d.brzParent
      let d : Dev := { d with brz := { d.brz with nextRto := d.raw + d.rtoNs } }
      if x = brzSucc d.brz.alarmSeq then d.brzResend 0 d.brzSrc d.brzParent (d.fld Reg.BRZ_UP 24 8) d.brz.alarmSeq p
      else
        let d : Dev := { d with brz := { d.brz with alarmSeq := x, tx := KMap.put d.brz.tx (brzKey 0 d.brzParent) (brzSucc x) } }
        d.brzResend 0 d.brzSrc d.brzParent (d.fld Reg.BRZ_UP 24 8) x p

/-- `BRZ_ALARM_RETRANSMIT`. -/
def execBrzAlarmRetransmit (s : State) : Out := s.onDev Dev.alarmAgain

/-- `BRZ_TIME_SYNC_TX` to a child, every 125 ms (R327). -/
def execBrzTimeSyncTx (dev : Nat) (s : State) : Out :=
  s.onDev (fun d => match d.children.find? (fun c => c.2 == dev) with
    | none => d
    | some c =>
      if !d.brzRun || !d.brzActive || decide (d.raw < KMap.getD d.brz.syncAt dev 0) then d
      else
        let d : Dev := { d with brz := { d.brz with syncAt := KMap.put d.brz.syncAt dev (d.raw + 125000000) } }
        d.brzSend 1 d.brzSrc dev (eKeySlot (d.entry c.1))
          (.timeSync d.tick.toNat (BitVec.ofNat 32 d.uncert) (d.reg Reg.TBU_UTC) (decide (d.tbu.sync = 2))))

/-- `BRZ_TIME_REQ_TX`: once per second. -/
def execBrzTimeReqTx (s : State) : Out :=
  s.onDev (fun d =>
    if !d.brzRun || !d.uplink || decide (d.raw < d.brz.reqAt + 1000000000) then d
    else ({ d with brz := { d.brz with reqAt := d.raw, t1 := some d.t16 } }).brzUp .timeReq)

/-! ### Twins -/

/-- `TWIN_STATE_TX`: every 1 ms. An ACTIVE twin whose TBU is no longer LOCKED while the partner's is gives up its role. -/
def execTwinStateTx (s : State) : Out :=
  s.onDev (fun d =>
    if !d.isTwin || !d.brzRun || decide (d.raw < d.brz.nextTwin) then d
    else
      let lost := d.brz.wasLock && d.tbu.sync != 2 && (match d.brz.partner with | some p => p.locked | none => false)
      let d : Dev := { d with brz := { d.brz with nextTwin := d.raw + 1000000, wasLock := decide (d.tbu.sync = 2) } }
      let d := d.brzTwin d.twinState
      if lost then d.offerRole 2 else d)

/-- `TWIN_TAKEOVER`: the condition has held for `TAKEOVER_MS` (R330). -/
def execTwinTakeover (s : State) : Out :=
  s.onDev (fun d =>
    let d := d.twinWatch
    match d.brz.since with
    | some (c, t) =>
      if t + zeroActs 1 (d.fld Reg.BRZ_TWIN_TIMING 16 8) * 1000000 ≤ d.raw then d.takeover c else d
    | none => d)

/-- The checks after a disagreement have been made (R331, R332). -/
def Dev.twinChecked (fz : Fuse) (set : Nat) (r : TwinCheckResult) (d : Dev) : Dev :=
  let homes := (oMembers d.act set).filterMap (fun m => KMap.get? d.eas.homes m.stream)
  let bad := (homes.eraseDups).filter (fun t => r.selfTilesBad.contains t && d.tileOk t fz)
  let ok := bad.isEmpty && r.selfPubOk
  let d : Dev := { d with brz := { d.brz with checkDue := none } }
  if ok then
    if !r.partnerOk then d
    else
      let recent := d.raw :: d.brz.trans.filter (fun t => decide (d.raw < t + 60000000000))
      let d : Dev := { d with brz := { d.brz with trans := recent } }
      if d.fld Reg.BRZ_TWIN_TIMING 24 8 < recent.length then
        d.post 0x0027 [BitVec.ofNat 32 d.brz.cause, BitVec.ofNat 32 d.brz.role, BitVec.ofNat 32 recent.length, 0]
      else d
  else
    let give := r.partnerOk && d.brz.role == 1 && d.partnerReady
    let d : Dev := if give then { d with brz := { d.brz with causes := 3 :: d.brz.causes.filter (· != 3) } } else d
    let d := bad.foldl (fun (e : Dev) t => e.failTile fz t 3) d
    if give && !d.brz.giveUp then d.offerRole 3 else d

/-- `TWIN_CHECKS`: both devices have run the checks of R331 twice. -/
def execTwinChecks (r : TwinCheckResult) (s : State) : Out :=
  s.onDev (fun d => match d.brz.checkDue with
    | some (set, _) => if d.op.running then d.twinChecked s.fuse set r else d
    | none => d)

/-- `BRZ_SWAP` (R334): the completion comes with the partner's acknowledgement. -/
def execBrzSwap (h : CmdHdr) (s : State) : Out :=
  s.onDev (fun d => d.cmd h 0x80 [] true [.run, .degraded] (fun d =>
    if d.brz.role ≠ 1 ∨ d.partnerReady = false then d.refuse h 0x80 6 1 0xFFFF []
    else ({ d with brz := { d.brz with swap := d.brz.swap ++ [h] } }).offerRole 5))

end Sys2Proof.Machine
end

