-- ==== Sys2Proof/Machine/Dns.lean ====
section
/-! DEFINITION. The meanings of the Densitometer's commands (07_densitometer.md). -/

namespace Sys2Proof.Machine

/-- `DNS_INSTANT_UPDATE` (R228). -/
def execDnsInstantUpdate (s : State) : Out := s.onDev Dev.instantUpdate

/-- `DNS_REFRESH` (R231). -/
def execDnsRefresh (s : State) : Out := s.onDev Dev.dnsRefresh

/-- `DNS_PUBLICATION` (R235). -/
def execDnsPublication (s : State) : Out := s.onDev Dev.dnsPublish

/-- `DNS_FO_EVALUATION` (R236). -/
def execDnsFoEvaluation (s : State) : Out := s.onDev Dev.foEvaluate

/-- `DNS_COHERENCY` (R241). -/
def execDnsCoherency (s : State) : Out := s.onDev Dev.coherency

/-- A matrix core's known-answer test (R253): two failures in a row fail it with cause 1, an uncorrectable error in its SRAM
with cause 2. -/
def Dev.coreCheck (core : Nat) (pass ue : Bool) (d : Dev) : Dev :=
  let n := KMap.getD d.dns.kat core 0 + 1
  if ue then d.coreFault core 2
  else if pass then { d with dns := { d.dns with kat := KMap.del d.dns.kat core } }
  else if n < 2 then { d with dns := { d.dns with kat := KMap.put d.dns.kat core n } }
  else d.coreFault core 1

/-- `DNS_CORE_CHECK`. `ue` says that the core's SRAM has met an uncorrectable error. -/
def execDnsCoreCheck (core : Nat) (pass ue : Bool) (s : State) : Out :=
  s.onDev (fun d =>
    if decide (core < 16) && !d.dns.failed.contains core && (d.op.running || d.op == .config) then d.coreCheck core pass ue else d)

/-- The warm-up after a restart of identification ends (R251). -/
def Dev.warmupEnd (d : Dev) : Dev :=
  if d.dns.warming && decide (d.dns.idAt + (d.warmupS * 1000000000 : Nat) ≤ d.tick) then
    d.withDnsState (fun e => { e with dns := { e.dns with warming := false } })
  else d

/-- `DNS_WARMUP_END`. -/
def execDnsWarmupEnd (s : State) : Out := s.onDev Dev.warmupEnd

/-- `DNS_RESTART` once its checks 2 to 4 hold (R255). -/
def Dev.restartCmd (h : CmdHdr) (mask : Nat) (d : Dev) : Dev :=
  if mask % 8 = 0 then d.complete h 0x50 2 []
  else (d.dnsRestartNoted (mask.testBit 0) (mask.testBit 1) (mask.testBit 2)).complete h 0x50 0 []

/-- `DNS_RESTART`. -/
def execDnsRestart (h : CmdHdr) (mask : Nat) (s : State) : Out :=
  s.onDev (fun d => d.cmd h 0x50 [] true [.run, .degraded] (Dev.restartCmd h mask))

/-- `DNS_FAIL` once its checks 2 to 4 hold (R256). -/
def Dev.dnsFailCmd (h : CmdHdr) (core : Nat) (d : Dev) : Dev :=
  if 15 < core then d.complete h 0x51 2 []
  else if d.dns.failed.contains core then d.refuse h 0x51 6 1 0xFFFF []
  else (d.coreFault core 3).complete h 0x51 0 []

/-- `DNS_FAIL`. -/
def execDnsFail (h : CmdHdr) (core : Nat) (s : State) : Out :=
  s.onDev (fun d => d.cmd h 0x51 [] true legalCRD (Dev.dnsFailCmd h core))

end Sys2Proof.Machine
end

