-- ==== Sys2Proof/Machine/RegOps.lean ====
section
/-! DEFINITION. What a host write makes of a register, by its row of the register map: the access codes of Table 0.8 and the
lock groups of Table 16.5. -/

namespace Sys2Proof.Machine

/-- Whether the RWL bits of a row are locked (R439, R493). -/
def Dev.locked (r : RegRow) (d : Dev) : Bool := decide (r.lock < 32) && d.rbit Reg.ACT_LOCK r.lock

/-- The word a register holds after a host write of `v` (R14): RW bits take the value, RWL bits unless they are locked, W1C
bits written 1 are cleared, and every other bit stays. -/
def Dev.written (r : RegRow) (off : Nat) (v : Word) (d : Dev) : Word :=
  let m := BitVec.ofNat 32 (r.rw ||| (if d.locked r then 0 else r.rwl))
  ((d.reg off &&& ~~~m) ||| (v &&& m)) &&& ~~~(v &&& BitVec.ofNat 32 r.w1c)

/-- Store what a host write makes of a register; a register without a row stays. -/
def Dev.hostSet (off : Nat) (v : Word) (d : Dev) : Dev :=
  match regRow? off with
  | some r => d.setReg off (d.written r off v)
  | none => d

/-- Whether BAR0 writes to the HST and SPQ blocks are accepted (Table 16.4). -/
def Dev.hstWritable (d : Dev) : Bool := d.op.mainOn && d.op != .holdup && d.host.link

end Sys2Proof.Machine
end

