-- ==== Sys2Proof/Machine/Host.lean ====
section
/-! DEFINITION. The meanings of the host interface's commands (12_host_rings_queues.md): polling and fetching, rings, MSI-X
and host frames. -/

namespace Sys2Proof.Machine

/-! ### Polling (R364, R365, R369) -/

/-- A ring error (R369, Table 12.2): the ring is disabled, and the error is latched and recorded. -/
def Dev.ringError (n cause : Nat) (d : Dev) : Dev :=
  let d := (d.setField (Reg.HST_RING_CTRL n) 0 1 0).setReg Reg.HST_RING_ERR (BitVec.ofNat 32 (n + cause * 256))
  (d.raise Reg.HST_EVT 0).post 0x0023 [BitVec.ofNat 32 (n + cause * 256), 0, 0, 0]

/-- The doorbell page cannot be read: polling stops for every ring. -/
def Dev.pageError (d : Dev) : Dev :=
  let d := ({ d with host := { d.host with polling := false } }).setReg Reg.HST_RING_ERR 0x480
  (d.raise Reg.HST_EVT 1).post 0x0023 [0x400, 0, 0, 0]

/-- The host's head of a completion ring has been read (R369, R383). -/
def Dev.takeHead (c head : Nat) (d : Dev) : Dev :=
  if !(d.ringCtrl c).bit 0 then d
  else
    let h := BitVec.ofNat 32 head
    let old := d.reg (Reg.HST_RING_HEAD c)
    if d.ringSize c < (d.reg (Reg.HST_RING_TAIL c) - h).toNat then d.ringError c 1
    else if h = old then d
    else
      let host : HostS := { d.host with ringSent := d.host.ringSent.filter (· != c), coal := KMap.del d.host.coal c }
      let d := ({ d with host := host }).setReg (Reg.HST_RING_HEAD c) h
      if d.reg (Reg.HST_RING_TAIL c) = h then d else d.ringNotify c

/-- The host's tail of a submission ring has been read (R369). -/
def Dev.takeTail (n tail : Nat) (d : Dev) : Dev :=
  if !(d.ringCtrl n).bit 0 then d
  else
    let t := BitVec.ofNat 32 tail
    if d.ringSize n < (t - d.reg (Reg.HST_RING_HEAD n)).toNat then d.ringError n 1 else d.setReg (Reg.HST_RING_TAIL n) t

/-- The host's read index of a spill queue has been read (R389). -/
def Dev.takeRead (q idx : Nat) (d : Dev) : Dev :=
  let x := d.spqQ q
  if !d.rbit (Reg.SPQ_Q_CTRL q) 0 || d.rbit (Reg.SPQ_Q_CTRL q) 1 || x.hostRead == BitVec.ofNat 32 idx then d
  else d.setSpq q { x with hostRead := BitVec.ofNat 32 idx, sent := false }

/-! ### Fetching (R370 to R372) -/

/-- Command codes of Table 12.5; the rest, notices and records among them, are no commands. -/
def cmdCode (code : Nat) : Bool :=
  [0x01, 0x02, 0x03, 0x04, 0x08, 0x09, 0x0A, 0x10, 0x11, 0x20, 0x21, 0x22, 0x28, 0x30, 0x40, 0x41, 0x42, 0x43, 0x44, 0x50, 0x51,
   0x60, 0x61, 0x62, 0x63, 0x64, 0x70, 0x71, 0x72, 0x73, 0x74, 0x80, 0x90, 0x91, 0xA0, 0xA1, 0xA2, 0xA3, 0xA4, 0xA5, 0xA6, 0xA7,
   0xC0, 0xC1, 0xC2, 0xC3, 0xD0, 0xD1].contains code

/-- Whether commands are fetched now (R43, R376, R464). -/
def Dev.fetching (d : Dev) : Bool :=
  d.op.mainOn && d.op != .boot && d.op != .holdup && !d.mgmt.restart && d.host.link

/-- Whether a command whose completion goes to ring `c` may be fetched (R370). -/
def Dev.roomFor (c : Nat) (d : Dev) : Bool := decide (d.fetchedFor c + (d.ringCtrl c).field 16 8 < d.ringFree c)

/-- Whether a submission ring may fetch an entry. -/
def Dev.mayFetch (n : Nat) (d : Dev) : Bool :=
  (d.ringCtrl n).bit 0 && d.reg (Reg.HST_RING_HEAD n) != d.reg (Reg.HST_RING_TAIL n) && d.roomFor (d.cqOf n)

/-- The entry a submission ring fetches next, where it was read. -/
def Dev.nextDesc (p : PollRead) (n : Nat) (d : Dev) : Option Desc :=
  p.descs.find? (fun x => x.ring == n && x.index == (d.reg (Reg.HST_RING_HEAD n)).toNat)

/-- A descriptor is fetched; a code that is none, or a reserved header byte that is not 0, completes it at once (check 1 of
Table 12.7). -/
def Dev.fetchOne (x : Desc) (d : Dev) : Dev :=
  let head := d.reg (Reg.HST_RING_HEAD x.ring) + 1
  let d := (d.setReg (Reg.HST_RING_HEAD x.ring) head).doorbell (0x800 + 4 * x.ring) head
  let f : Fetched := { ring := x.ring, tag := x.tag, code := x.code, fence := x.fence, noCqe := false }
  let d : Dev := { d with host := { d.host with fetched := d.host.fetched ++ [f] } }
  if x.reserved || !cmdCode x.code then d.complete { ring := x.ring, tag := x.tag, fence := x.fence } x.code 2 [] else d

/-- A ring's turn: at most `k` descriptors. Answers whether it fetched any. -/
def Dev.ringTurn (p : PollRead) (n : Nat) : Nat → Dev → Bool × Dev
  | 0, d => (false, d)
  | k + 1, d =>
    if !d.mayFetch n then (false, d)
    else if p.fetchBad.contains n then (true, d.ringError n 2)
    else
      match d.nextDesc p n with
      | none => (false, d)
      | some x => (true, (Dev.ringTurn p n k (d.fetchOne x)).2)

/-- Rings in turn order: those from `turn` on, then those before it. -/
def turnOrder (turn : Nat) (ns : List Nat) : List Nat := ns.filter (fun n => decide (turn ≤ n)) ++ ns.filter (fun n => decide (n < turn))

/-- Rounds over the rings until none fetches. -/
def Dev.fetchRounds (p : PollRead) : Nat → Dev → Dev
  | 0, d => d
  | k + 1, d =>
    let rings := (List.range 64).filter (fun n => p.fetchBad.contains n || p.descs.any (fun x => x.ring == n))
    let (any, d) := (turnOrder d.host.turn rings).foldl (fun (r : Bool × Dev) n =>
      let (f, e) := r.2.ringTurn p n 8
      (r.1 || f, if f then { e with host := { e.host with turn := (n + 1) % 64 } } else e)) (false, d)
    if any then Dev.fetchRounds p k d else d

/-- The poll interval in raw counts (R365). -/
def Dev.pollNs (d : Dev) : Nat := clampNat 1 1000 (d.fld Reg.HST_POLL 0 10) * 1000

/-- Fold over a list with its positions. -/
def foldIdx {α : Type} (f : Nat → α → Dev → Dev) : List α → Nat → Dev → Dev
  | [], _, d => d
  | x :: t, i, d => foldIdx f t (i + 1) (f i x d)

/-- A poll of the doorbell page, and what it leads to. -/
def Dev.poll (p : PollRead) (d : Dev) : Dev :=
  if !d.rbit Reg.HST_CTRL 0 || !d.host.polling || !d.host.link || !d.op.mainOn || (!d.host.kicked && decide (d.raw < d.host.nextPoll)) then d
  else
    let d : Dev := { d with host := { d.host with kicked := false, nextPoll := d.raw + d.pollNs } }
    if !p.pageOk then d.pageError
    else
      let d : Dev := { d with host := { d.host with polls := d.host.polls + 1 } }
      let d := d.doorbell 0xB04 d.host.polls
      let d := (p.writeBad.filter (fun c => decide (64 ≤ c) && decide (c < 128) && (d.ringCtrl c).bit 0)).foldl
        (fun (e : Dev) c => e.ringError c 3) d
      let d := foldIdx (fun i h e => e.takeHead (64 + i) h) (p.heads.take 64) 0 d
      let d := foldIdx (fun i t e => e.takeTail i t) (p.tails.take 64) 0 d
      let d := foldIdx (fun i r e => e.takeRead i r) (p.spqRead.take 64) 0 d
      if d.fetching then d.fetchRounds p (p.descs.length + 1) else d

/-- `HST_POLL`. -/
def execHstPoll (p : PollRead) (s : State) : Out := s.onDev (Dev.poll p)

/-- `HST_KICK`: a write of `HST_KICK`. -/
def execHstKick (s : State) : Out :=
  s.onDev (fun d => if d.hstWritable && d.rbit Reg.HST_CTRL 0 && d.host.polling then { d with host := { d.host with kicked := true } } else d)

/-- `HST_ENABLE`: a write of `HST_CTRL` with `EN` = 1 starts polling, also after a page error. -/
def execHstEnable (s : State) : Out :=
  s.onDev (fun d =>
    if d.hstWritable then
      { d.setField Reg.HST_CTRL 0 1 1 with host := { d.host with polling := true, nextPoll := d.raw } }
    else d)

/-! ### Rings (R367, R368) -/

/-- `RING_ENABLE`: a write `v` of `HST_RINGn_CTRL` that sets `EN`; `idx` is the ring's host-written index in the doorbell page. -/
def execRingEnable (n : Nat) (v : Word) (idx : Nat) (s : State) : Out :=
  s.onDev (fun d =>
    let c := Reg.HST_RING_CTRL n
    if !d.hstWritable || decide (127 < n) || d.rbit c 0 || !v.bit 0 || (decide (n < 64) && decide (v.field 8 7 < 64)) then d
    else
      let host : HostS := { d.host with ringSent := d.host.ringSent.filter (· != n), coal := KMap.del d.host.coal n }
      (((({ d with host := host }).hostSet c v).setReg (Reg.HST_RING_HEAD n) (BitVec.ofNat 32 idx)).setReg (Reg.HST_RING_TAIL n)
        (BitVec.ofNat 32 idx)))

/-- `RING_DISABLE`: a write `v` of `HST_RINGn_CTRL` that clears `EN`; `LOG2_SIZE` and `CQ` keep their values. -/
def execRingDisable (n : Nat) (v : Word) (s : State) : Out :=
  s.onDev (fun d =>
    let c := Reg.HST_RING_CTRL n
    if !d.hstWritable || decide (127 < n) || !d.rbit c 0 || v.bit 0 then d
    else d.hostSet c ((v.setField 1 4 ((d.reg c).field 1 4)).setField 8 7 ((d.reg c).field 8 7)))

/-! ### MSI-X (R381, R383) -/

/-- `MSIX_COALESCE_EXPIRY` of completion ring `n`. -/
def execMsixCoalesceExpiry (n : Nat) (s : State) : Out :=
  s.onDev (fun d => match KMap.get? d.host.coal n with
    | none => d
    | some t =>
      if d.raw < t then d
      else
        let d : Dev := { d with host := { d.host with coal := KMap.del d.host.coal n } }
        if d.reg (Reg.HST_RING_TAIL n) = d.reg (Reg.HST_RING_HEAD n) ∨ d.host.ringSent.contains n = true then d
        else ({ d with host := { d.host with ringSent := n :: d.host.ringSent } }).msix (n - 48))

/-- `MSIX_UNMASK` of vector `v`. -/
def execMsixUnmask (v : Nat) (s : State) : Out :=
  s.onDev (fun d =>
    if 143 < v ∨ d.op.mainOn = false ∨ d.host.unmasked.contains v = true then d
    else
      let pend := d.host.pendBits.contains v
      let d : Dev := { d with host := { d.host with unmasked := v :: d.host.unmasked, pendBits := d.host.pendBits.filter (· != v) } }
      if pend then d.emit (.msix v) else d)

/-! ### Commands (R377, R378) -/

/-- `HST_NOP`. -/
def execHstNop (h : CmdHdr) (s : State) : Out :=
  s.onDev (fun d => d.cmd h 0x01 [] true legalCRD (fun d => d.complete h 0x01 0 []))

/-- `HST_TX_FRAME` once its checks 2 to 4 hold: the frame is queued on each port of the pair that is up. -/
def Dev.txFrameCmd (h : CmdHdr) (pair addr len : Nat) (words : List Word) (memErr : Bool) (d : Dev) : Dev :=
  let ports := [2 * pair, 2 * pair + 1]
  let most := if ports.any (fun n => d.rbit (Reg.NET_MACSEC_CTRL n) 0) then 1480 else 1512
  if 1 < pair ∨ len < 14 ∨ most < len ∨ addr % 4 ≠ 0 then d.complete h 0x08 2 []
  else
    let up := ports.filter (fun n => d.portUp n)
    if up.isEmpty then d.refuse h 0x08 6 1 0xFFFF []
    else if memErr then d.memFail h 0x08 []
    else
      let id := d.net.nextTx
      let d : Dev := { d with net := { d.net with nextTx := id + 1, hostTx := d.net.hostTx ++ [(h, id, up)] } }
      d.sendPair pair .preempt 2 (max 60 len + 10) (some id) (.host words)

/-- `HST_TX_FRAME`. `words` stand in host memory; `memErr` says that reading them ends with an error. -/
def execHstTxFrame (h : CmdHdr) (pair addr len : Nat) (words : List Word) (memErr : Bool) (s : State) : Out :=
  s.onDev (fun d => d.cmd h 0x08 [] true legalCRD (Dev.txFrameCmd h pair addr len words memErr))

end Sys2Proof.Machine
end

