-- ==== Sys2Proof/Machine/Net.lean ====
section
/-! DEFINITION. The meanings of the ports' commands (03_network_ingest.md): a received frame from the MAC to its parser,
links, PRP supervision, PAUSE, preemption and the end of a transmission. -/

namespace Sys2Proof.Machine

/-! ### Sampled values (R112 to R115) -/

/-- Number of an ASDU's sample within TAI time under a version: the latest sample with this `smpCnt` at or before arrival
(R114). -/
def Dev.svSample (e : List Word) (a : Asdu) (d : Dev) : Nat :=
  let r := svRate (eRate e)
  let now := d.t16.toNat
  let s := now / 65536000000000
  if (s * r + a.smpCnt) * 65536000000000 ≤ now * r then s * r + a.smpCnt else (s - 1) * r + a.smpCnt

/-- Time of an ASDU as a fraction of seconds. -/
def Dev.svTime (a : Asdu) (e : List Word) (d : Dev) : Nat × Nat := (d.svSample e a, svRate (eRate e))

/-- Checks 1 to 4 of Table 3.6. -/
def svFrameCheck (e : List Word) (f : SvFrame) (secure : Bool) (sc : Option Nat) : Nat :=
  if !secureEnough e secure sc then 6
  else if f.svidCrc != ew e 9 then 8
  else if f.confRev != ew e 7 then 7
  else if f.asdus.length != eAn e || f.asdus.any (fun a => a.chans.length != ePh e) then 1
  else 0

/-- Deliver the channels of an accepted ASDU (R114, R115). -/
def Dev.svDeliver (fz : Fuse) (i n : Nat) (e : List Word) (a : Asdu) (d : Dev) : Dev :=
  a.chans.zipIdx.foldl (fun d p =>
    let ((v, q), c) := p
    let clip := decide (v < -8388608) || decide (8388607 < v)
    let test := q.testBit 11
    if test && !(ew e 8).bit 1 then d.setActField (stmOff i 12) 4 4 10
    else if !(d.op.running || d.op == .holdup) then d
    else d.phxDeliver fz ((ew e 6).field 21 9 + c) n (svRate (eRate e)) (max (-8388608) (min 8388607 v)) clip (q % 2 == 1) test) d

/-- One ASDU: checks 5 to 8 of Table 3.6, then its delivery; a stream that becomes ACTIVE resets its channels (Table 5.5). -/
def Dev.svAsdu (fz : Fuse) (i : Nat) (e : List Word) (a : Asdu) (d : Dev) : Dev :=
  let r := svRate (eRate e)
  let n := d.svSample e a
  let key := 2 * i + n / r % 2
  let seen := match KMap.get? d.stm.svSeen key with
    | some (s, cs) => if s = n / r then cs else []
    | none => []
  if a.smpSynch < (ew e 6).field 30 2 then d.streamFail i 9
  else if r ≤ a.smpCnt then d.streamFail i 12
  else if seen.contains a.smpCnt then d
  else if (n + r / 2) * 65536000000000 < d.t16.toNat * r then d.streamFail i 11
  else
    let d := { d with stm := { d.stm with svSeen := KMap.put d.stm.svSeen key (n / r, a.smpCnt :: seen) } }
    let was := d.streamState i
    let d := d.streamAccept i
    let d := if was ≠ 2 && d.streamState i = 2 && (d.op.running || d.op == .holdup) then
      (List.range (ePh e)).foldl (fun d c =>
        let ch := (ew e 6).field 21 9 + c
        if chEn d.act ch then d.phxReset ch true true (smpTime r n : Nat) else d) d
      else d
    d.svDeliver fz i n e a

/-- The ASDUs of a sampled-value frame in order. A failure of the whole frame, or an unmatched key, ends it. -/
def Dev.svAsdus (fz : Fuse) (port : Nat) (rx : RxFrame) (f : SvFrame) (secure : Bool) (sc : Option Nat) : List Asdu → Dev → Dev
  | [], d => d
  | a :: t, d =>
    match d.lookup (fun e => svKey e (port / 2) rx.src f.appid) (fun e => d.svTime a e) with
    | .none => d.noMatch port rx secure
    | .retired i => Dev.svAsdus fz port rx f secure sc t (d.streamFail i 5)
    | .version i e _ =>
      let c := svFrameCheck e f secure sc
      if c ≠ 0 then d.streamFail i c else Dev.svAsdus fz port rx f secure sc t (d.svAsdu fz i e a)

/-! ### C37.118 (R107 to R111) -/

/-- SYNC words of data frames (R107). -/
def dataSync (s : Nat) : Bool := s == 0xAA01 || s == 0xAA02

/-- A data frame that lookup has matched to a version: checks, acceptance, and the way to its tile. -/
def Dev.c37Data (i : Nat) (e pool : List Word) (retired : Bool) (c : C37Frame) (secure : Bool) (sc : Option Nat) (d : Dev) : Dev :=
  let (num, den) := d.c37Time c e
  let f := rateOf (eRate e)
  if (d.homeAt i ((slotNs f (slotOf f num den) : Nat) : Int)).isNone then d.bump Reg.EAS_UNHOMED_DROP 1
  else
    let code := c37Check e c secure sc retired
    if code ≠ 0 then d.streamFail i code
    else
      let d := d.streamAccept i
      let d := if c.stat.toNat.testBit 10 then d.streamCfgChange i else d
      if !d.op.running then d
      else
        d.toTile { idx := i, rev := 0, num := num, den := den, stat := c.stat, mtq := c.fracsec.field 24 8, pay := convC37 e pool c,
                   arrNs := d.tick, arrRaw := d.raw }

/-- A frame of row 6 on pair A: a data frame is looked up and handled, any other goes to the host path with the stream
that lookup finds (R107, R108). -/
def Dev.c37Receive (port : Nat) (rx : RxFrame) (u : Udp) (secure : Bool) (sc : Option Nat) (d : Dev) : Dev :=
  match u.c37 with
  | none => d.hostPath port 0xFFFF rx secure
  | some c =>
    let found := d.lookup (fun e => c37Key e (port / 2) u c.idcode) (fun e => d.c37Time c e)
    if dataSync c.sync then
      match found with
      | .none => d.noMatch port rx secure
      | .retired i => d.c37Data i (d.entry i) [] true c secure sc
      | .version i e pool => d.c37Data i e pool false c secure sc
    else
      match found with
      | .none => d.hostPath port 0xFFFF rx secure
      | .retired i => d.hostPath port i rx secure
      | .version i _ _ => d.hostPath port i rx secure

/-! ### From the MAC to the class (R89 to R98, R106, R520) -/

/-- The row of Table 3.1 a frame matches; 0: none. -/
def Dev.rxRow (port : Nat) (f : RxFrame) (d : Dev) : Nat :=
  let mac := (d.reg (Reg.NET_MAC_LO port)).toNat + d.fld (Reg.NET_MAC_HI port) 0 16 * 4294967296
  let row7 := if f.dst = mac ∨ f.dst.testBit 40 then 7 else 0
  let hidden := match f.sec with | .tagged _ _ _ _ => !d.rbit (Reg.NET_MACSEC_CTRL port) 0 | .none => false
  if 2 ≤ f.tags then row7
  else
    match f.body with
    | .macCtrl op _ => if op = 1 then 3 else 4
    | .ptp _ => if hidden then row7 else 1
    | .prpSup => if hidden then row7 else 2
    | .sv _ => if hidden then row7 else 5
    | .udp u =>
      let own := if u.v6 then
          (d.reg (Reg.NET_IPV6_0 port)).toNat + (d.reg (Reg.NET_IPV6_1 port)).toNat * 2 ^ 32
            + (d.reg (Reg.NET_IPV6_2 port)).toNat * 2 ^ 64 + (d.reg (Reg.NET_IPV6_3 port)).toNat * 2 ^ 96
        else (d.reg (Reg.NET_IPV4 port)).toNat
      let ports := [d.fld (Reg.NET_C37_UDP port) 0 16, d.fld (Reg.NET_C37_UDP port) 16 16]
      if !hidden && !u.fragmented && (u.multicast || u.dstIp == own) && u.dport != 0 && ports.contains u.dport then 6 else row7
    | .other => row7

/-- Whether the receive buffer admits a frame (R106), and whether it is of the protected class. -/
def rxAdmit (port row free : Nat) : Bool × Bool :=
  if row = 1 ∨ row = 3 ∨ (row = 5 ∧ 2 ≤ port) then (decide (1536 ≤ free), true)
  else if row = 6 ∧ port < 2 then (decide (16384 + 1536 ≤ free), false)
  else if row = 0 ∨ row = 4 then (true, false)
  else (decide (65536 + 1536 ≤ free), false)

/-- The outcome of Table 3.2 for a frame: accepted with its secure mark and receive SC, or dropped and counted. -/
def Dev.macsecIn (port : Nat) (f : RxFrame) (d : Dev) : Option (Bool × Option Nat) × Dev :=
  let ctrl := match f.body with | .macCtrl _ _ => true | _ => false
  if ctrl || !d.rbit (Reg.NET_MACSEC_CTRL port) 0 then (some (false, none), d)
  else
    match f.sec with
    | .none =>
      if d.rbit (Reg.NET_MACSEC_CTRL port) 3 then (some (false, none), d) else (none, d.bump (Reg.NET_MACSEC_NOSC port) 1)
    | .tagged sc an icv pn =>
      let p := d.port port
      match sc with
      | none => (none, d.bump (Reg.NET_MACSEC_NOSC port) 1)
      | some c =>
        let key := 2 * c + an % 2
        let next := KMap.getD p.pn key 1
        if d.op == .safe || !p.rxSc.contains c then (none, d.bump (Reg.NET_MACSEC_NOSC port) 1)
        else if !icv then (none, d.bump (Reg.NET_MACSEC_ICV port) 1)
        else if pn + (d.reg (Reg.NET_MACSEC_REPLAY port)).toNat < next then (none, d.bump (Reg.NET_MACSEC_REPLAY_DROP port) 1)
        else (some (true, some c), d.setPort port { p with pn := KMap.put p.pn key (max next (pn + 1)) })

/-- PRP handling of a frame (R93, R94); PTP and MAC control frames are not subject to discard (R58). -/
def Dev.prpIn (port : Nat) (f : RxFrame) (d : Dev) : Bool × Dev :=
  match f.rct with
  | none => (true, d)
  | some r =>
    if !r.lsduOk then (true, d.bump (Reg.NET_PRP_NOTRAILER port) 1)
    else
      let d := if r.lan = 10 + port % 2 then d else d.bump (Reg.NET_PRP_WRONG_LAN port) 1
      match f.body with
      | .ptp _ => (true, d)
      | .macCtrl _ _ => (true, d)
      | _ => d.prpAccept port f.src r.seq

/-- A received PAUSE (R103, R104). -/
def Dev.pauseIn (port quanta : Nat) (d : Dev) : Dev :=
  let d := d.bump (Reg.NET_PAUSE_RX port) 1
  let p := d.port port
  match p.stormUntil with
  | some _ => d
  | none =>
    if quanta = 0 then (d.setPort port { p with pauseUntil := none, pauseSince := none }).startNext port
    else d.setPort port { p with pauseUntil := some (d.raw + d.quantumNs port (quanta % 65536)),
                                 pauseSince := some (p.pauseSince.getD d.raw) }

/-- A classified frame is handed on (Table 3.1, R520). -/
def Dev.rxClass (fz : Fuse) (port row : Nat) (f : RxFrame) (secure : Bool) (sc : Option Nat) (d : Dev) : Dev :=
  if decide (5 ≤ row) && (d.op == .safe || (d.op == .holdup && !(row == 5 && decide (2 ≤ port)))) then d
  else
    match f.body with
    | .ptp m => if row = 1 then d.ptpReceive port m else if row = 7 then d.hostPath port 0xFFFF f secure else d
    | .macCtrl _ q =>
      if row = 3 then d.pauseIn port q
      else if row = 4 then d.bump (Reg.NET_PFC_DROP port) 1
      else if row = 7 then d.hostPath port 0xFFFF f secure else d
    | .sv s =>
      if row = 5 && decide (2 ≤ port) then d.svAsdus fz port f s secure sc s.asdus
      else if row = 5 ∨ row = 7 then d.hostPath port 0xFFFF f secure else d
    | .udp u =>
      if row = 6 then
        if u.csum == .bad || (u.csum == .zero && u.v6) then d.bump (Reg.NET_UDP_CSUM_ERR port) 1
        else if port < 2 then d.c37Receive port f u secure sc
        else d.hostPath port 0xFFFF f secure
      else if row = 7 then d.hostPath port 0xFFFF f secure else d
    | _ => if row = 7 then d.hostPath port 0xFFFF f secure else d

/-- A frame arrives on a port: MAC checks (R89, R102), admission (R106), MACsec (R98), PRP (R93) and classification
(R90). -/
def Dev.rxFrame (fz : Fuse) (port : Nat) (f : RxFrame) (d : Dev) : Dev :=
  if 3 < port || !d.portUp port || d.op == .boot || !d.op.mainOn then d
  else
    let d := d.wrapAdd (Reg.NET_RXFRAMES port) 1
    if !f.reasmOk then d.bump (Reg.NET_REASM_ERR port) 1
    else if f.len < 64 || decide (1522 < f.len) || !f.fcsOk then d.bump (Reg.NET_FCS_ERR port) 1
    else
      let row := d.rxRow port f
      let (admitted, prot) := rxAdmit port row f.free
      if !admitted then
        let d := d.bump (Reg.NET_RXDROP port) 1
        if prot then d.bump (Reg.NET_RXDROP_PROT port) 1 else d
      else
        let (ok, d) := d.macsecIn port f
        match ok with
        | none => d
        | some (secure, sc) =>
          let (keep, d) := d.prpIn port f
          if keep then d.rxClass fz port row f secure sc else d

/-- `FRAME_RECEIVED`. -/
def execFrameReceived (port : Nat) (f : RxFrame) (s : State) : Out := s.onDev (Dev.rxFrame s.fuse port f)

/-! ### Links -/

/-- The verification of IEEE 802.3br starts when the port asks for it and its link is up (R100). -/
def Dev.verifyStart (port : Nat) (d : Dev) : Dev :=
  let on := d.rbit (Reg.NET_CTRL port) 2 && d.portUp port
  (d.setPort port { d.port port with tries := 0, verify := d.raw }).setReg (Reg.NET_PREEMPT_STATUS port) (if on then 2 else 0)

/-- A port's link comes up: its `MODE` is its partner's (R88). -/
def Dev.linkIsUp (port : Nat) (d : Dev) : Dev :=
  if 3 < port || !d.op.mainOn || !d.rbit (Reg.NET_CTRL port) 0 || (d.port port).link then d
  else (d.setPort port { d.port port with link := true, nextSup := d.raw }).verifyStart port

/-- `LINK_UP`. -/
def execLinkUp (port : Nat) (s : State) : Out := s.onDev (Dev.linkIsUp port)

/-- A port's link goes down: it carries no frame, and what it held is gone. -/
def Dev.linkIsDown (port : Nat) (d : Dev) : Dev :=
  if 3 < port || !(d.port port).link then d
  else
    let p := d.port port
    let d := d.setPort port { p with link := false, express := [], preempt := [], cur := none, held := none, pauseUntil := none,
                                     pauseSince := none, stormUntil := none, tries := 0 }
    (d.setReg (Reg.NET_PREEMPT_STATUS port) 0).dropHostTx port

/-- `LINK_DOWN`. -/
def execLinkDown (port : Nat) (s : State) : Out := s.onDev (Dev.linkIsDown port)

/-! ### PRP supervision (R95) -/

/-- `SUP_MS` of a pair, in ns. -/
def Dev.supNs (pair : Nat) (d : Dev) : Nat := clampNat 100 10000 (d.fld (Reg.NET_PRP_CTRL pair) 16 16) * 1000000

/-- Whether a port's supervision frame is due. -/
def Dev.supDue (port : Nat) (d : Dev) : Bool := d.portUp port && decide ((d.port port).nextSup ≤ d.raw)

/-- A supervision frame goes out on each port of the pair where one is due, with one sequence number. -/
def Dev.sendSup (port : Nat) (d : Dev) : Dev :=
  if 3 < port || !legalCRD.contains d.op || !d.supDue port then d
  else
    let pair := port / 2
    let seq := if pair = 0 then d.net.seqA else d.net.seqB
    let nx := (seq + 1) % 65536
    let due := [2 * pair, 2 * pair + 1].filter (fun n => d.supDue n)
    let d := { d with net := if pair = 0 then { d.net with seqA := nx } else { d.net with seqB := nx } }
    let mac (n : Nat) : Nat := (d.reg (Reg.NET_MAC_LO n)).toNat + d.fld (Reg.NET_MAC_HI n) 0 16 * 4294967296
    due.foldl (fun e n =>
      (e.setPort n { e.port n with nextSup := e.raw + e.supNs pair }).enqueue n .preempt
        { body := .prpSup (mac n), prp := some seq, len := 70, cls := 1, host := none }) d

/-- `PRP_SUPERVISION_TX`. -/
def execPrpSupervisionTx (port : Nat) (s : State) : Out := s.onDev (Dev.sendSup port)

/-! ### PAUSE (R103, R104) -/

/-- The pause time of a received PAUSE has run out. -/
def Dev.pauseEnds (port : Nat) (d : Dev) : Dev :=
  let p := d.port port
  match p.pauseUntil with
  | some t => if t ≤ d.raw then (d.setPort port { p with pauseUntil := none, pauseSince := none }).startNext port else d
  | none => d

/-- `PAUSE_EXPIRY`. -/
def execPauseExpiry (port : Nat) (s : State) : Out := s.onDev (Dev.pauseEnds port)

/-- The queue has been held by PAUSE for `LIMIT_MS`: PAUSE is ignored for as long again. -/
def Dev.stormBegins (port : Nat) (d : Dev) : Dev :=
  let p := d.port port
  let lim := d.fld (Reg.NET_PAUSE_CTRL port) 0 8
  match p.pauseSince with
  | some t =>
    if lim ≠ 0 && decide (t + lim * 1000000 ≤ d.raw) then
      let d := d.setPort port { p with pauseUntil := none, pauseSince := none, stormUntil := some (d.raw + lim * 1000000) }
      (d.post 0x0022 [BitVec.ofNat 32 port, BitVec.ofNat 32 lim, 0, 0]).startNext port
    else d
  | none => d

/-- `PAUSE_STORM`. -/
def execPauseStorm (port : Nat) (s : State) : Out := s.onDev (Dev.stormBegins port)

/-- The time in which PAUSE is ignored ends. -/
def Dev.stormEnds (port : Nat) (d : Dev) : Dev :=
  let p := d.port port
  match p.stormUntil with
  | some t => if t ≤ d.raw then d.setPort port { p with stormUntil := none } else d
  | none => d

/-- `PAUSE_STORM_END`. -/
def execPauseStormEnd (port : Nat) (s : State) : Out := s.onDev (Dev.stormEnds port)

/-! ### Preemption and transmission (R100, R101) -/

/-- One verification attempt (R100): it succeeds, or the third failure in a row ends the verification. -/
def Dev.verifyAttempt (port : Nat) (a : VerifyAnswer) (d : Dev) : Dev :=
  let p := d.port port
  if 3 < port || !d.portUp port || !d.rbit (Reg.NET_CTRL port) 2 || decide (d.raw < p.verify)
      || d.fld (Reg.NET_PREEMPT_STATUS port) 1 2 != 1 then d
  else if a.answered then
    (d.setPort port { p with addFrag := a.addFrag % 4 }).setReg (Reg.NET_PREEMPT_STATUS port)
      (BitVec.ofNat 32 (1 + 4 + a.addFrag % 4 * 8))
  else if 2 ≤ p.tries then (d.setPort port { p with tries := 3 }).setReg (Reg.NET_PREEMPT_STATUS port) 6
  else d.setPort port { p with tries := p.tries + 1, verify := d.raw + 10000000 }

/-- `PREEMPT_VERIFY`. -/
def execPreemptVerify (port : Nat) (ans : VerifyAnswer) (s : State) : Out := s.onDev (Dev.verifyAttempt port ans)

/-- The frame or fragment in transmission has gone out whole, with its preamble and gap: it is counted, a host frame's
command learns of it, and the next frame starts. -/
def Dev.txEnds (port : Nat) (d : Dev) : Dev :=
  let p := d.port port
  match p.cur with
  | none => d
  | some c =>
    if d.portBytes port (d.raw - c.start) < c.frame.len - c.sent + 20 then d
    else
      let d := (d.setPort port { p with cur := none }).wrapAdd (Reg.NET_TXFRAMES port) 1
      let d := if c.q = .express then d.wrapAdd (Reg.NET_TX_EXPRESS port) 1 else d
      let d := match c.frame.host with
        | some id => d.hostTxLeft port id
        | none => d
      d.startNext port

/-- `FRAME_TRANSMIT_END`. -/
def execFrameTransmitEnd (port : Nat) (s : State) : Out := s.onDev (Dev.txEnds port)

end Sys2Proof.Machine
end

