-- ==== Sys2Proof/Machine/Phx.lean ====
section
/-! DEFINITION. The meanings of the Phasor chain's commands (05_phasor_chain.md). -/

namespace Sys2Proof.Machine

/-- A round of the engine begins (R165): every channel's delivered samples are taken, and on a part without placement to
the sample the latest of each reaches Shutter's triggers (Table 8.6). -/
def Dev.phxRoundStep (fz : Fuse) (d : Dev) : Dev :=
  let len := d.roundNs
  if !d.op.alarm || decide (d.raw < d.phx.round + len) then d
  else
    let d := { d with phx := { d.phx with round := d.phx.round + (d.raw - d.phx.round) / len * len } }
    let d := (chansIn d.act).foldl (fun d c =>
      let x := d.phxCh c
      match x.hist.head? with
      | none => d
      | some s => d.setPhx c { x with taken := s.n }) d
    if fz.part.trigSample || !d.op.running then d else d.shtRound

/-- `PHX_ROUND`. -/
def execPhxRound (s : State) : Out := s.onDev (fun d => d.phxRoundStep s.fuse)

/-- `PHX_ESTIMATE`: one class of a channel at its next grid point (R171). -/
def execPhxEstimate (ch cls : Nat) (s : State) : Out :=
  s.onDev (fun d => if d.op.alarm && chEn d.act ch && decide (cls < 2) then d.phxEstimateStep ch cls else d)

/-- The next valid native sample of a channel is evaluated by the detector core (R180, R181). -/
def Dev.detectorStep (ch : Nat) (d : Dev) : Dev :=
  let x := d.phxCh ch
  match x.hist.reverse.find? (fun s => decide (x.detN ≤ s.n) && !s.filled) with
  | none => d
  | some s =>
    let d := d.setPhx ch { x with detN := s.n + 1 }
    if s.clip then d else d.ajEvaluate ch s

/-- `DETECTOR_SAMPLE`. -/
def execDetectorSample (ch : Nat) (s : State) : Out :=
  s.onDev (fun d => if d.op.alarm && chEn d.act ch && chAj d.act ch then d.detectorStep ch else d)

/-- `DET_HOLD_END` of a channel's angle-jump (0) or ROCOF (1) detector (R182, R184). -/
def execDetHoldEnd (ch det : Nat) (s : State) : Out := s.onDev (fun d => if det < 2 then d.detRelease ch det else d)

/-- A sample that the next output needs has not arrived 1 ms after it was needed: it is missing (R163). -/
def Dev.sampleTimeout (ch : Nat) (d : Dev) : Dev :=
  let x := d.phxCh ch
  let t : Int := (gridNs x.nextP * 65536 : Nat)
  let need := ((t + winTime 0 x.ft / 2 + rsDelay x.rate) * (x.rate : Int) / 65536000000000).toNat
  let have_ := match x.hist.head? with | some s => s.n | none => 0
  if d.t16 < t + winTime 0 x.ft / 2 + rsDelay x.rate + 65536000000 ∨ need ≤ have_ then d
  else d.setPhx ch { x with lost := max x.lost need }

/-- `SAMPLE_MISSING_TIMEOUT`. -/
def execSampleMissingTimeout (ch : Nat) (s : State) : Out :=
  s.onDev (fun d => if d.op.alarm && chEn d.act ch then d.sampleTimeout ch else d)

/-- A lane's known-answer check (R166): two failures in a row fail it. -/
def Dev.laneCheck (lane : Nat) (pass : Bool) (d : Dev) : Dev :=
  let n := KMap.getD d.phx.kat lane 0 + 1
  if pass then { d with phx := { d.phx with kat := KMap.del d.phx.kat lane } }
  else if n < 2 then { d with phx := { d.phx with kat := KMap.put d.phx.kat lane n } }
  else d.laneFault lane

/-- `PHX_LANE_CHECK`. -/
def execPhxLaneCheck (lane : Nat) (pass : Bool) (s : State) : Out :=
  s.onDev (fun d => if decide (lane < 8) && !d.phx.failed.contains lane && (d.op.running || d.op == .config) then d.laneCheck lane pass
    else d)

/-- A channel number that `PHX_RESYNC` accepts: every channel, or one in use of the part. -/
def Dev.resyncArg (fz : Fuse) (ch : Nat) (d : Dev) : Bool :=
  ch == 0xFFFF || (decide (ch < fz.part.channels) && chEn d.act ch)

/-- The channels `PHX_RESYNC` names. -/
def Dev.resyncChans (ch : Nat) (d : Dev) : List Nat := if ch = 0xFFFF then chansIn d.act else [ch]

/-- `PHX_RESYNC` once its checks 2 to 4 hold (R187). -/
def Dev.resync1 (fz : Fuse) (h : CmdHdr) (ch : Nat) (d : Dev) : Dev :=
  if d.resyncArg fz ch then
    ((d.resyncChans ch).foldl (fun d c => d.phxReset c true true d.t16) d).complete h 0x30 0 []
  else d.complete h 0x30 2 []

/-- `PHX_RESYNC`. -/
def execPhxResync (h : CmdHdr) (ch : Nat) (s : State) : Out :=
  s.onDev (fun d => d.cmd h 0x30 [] true legalCRD (Dev.resync1 s.fuse h ch))

end Sys2Proof.Machine
end

