-- ==== Sys2Proof/Machine/Plg.lean ====
section
/-! DEFINITION. The meanings of the proof log's commands and events (15_proof_log_identity.md), of the identity block, and of the
memory scrubber (R497). -/

namespace Sys2Proof.Machine

/-! ### Committing and posting -/

/-- The management cluster commits the record at the head of staging, after `fails` failed attempts. Eight slots that fail in a
row leave the record where it is, and the log cannot commit (R475). -/
def State.logCommit (fails : Nat) (s : State) : State :=
  match s.dev.plg.stage with
  | [] => s
  | r :: _ =>
    if !s.dev.op.mainOn || s.dev.mgmt.restart then s
    else if fails < 24 then
      let (nv, d) := commitHead fails s.nv s.dev
      { s with nv := nv, dev := d }
    else
      let nv := if secCode r.code then { s.nv with sec := s.nv.sec.markBads true 8 } else { s.nv with gen := s.nv.gen.markBads false 8 }
      { s with nv := nv, dev := s.dev.unrecoverable 7 }

/-- `PROOF_LOG_COMMIT`. -/
def execProofLogCommit (fails : Nat) (s : State) : Out := .next (s.logCommit fails)

/-- `PLG_TOKEN_REFILL` of a code's bucket. -/
def execPlgTokenRefill (code : Nat) (s : State) : Out := s.onDev (fun d => if d.op.mainOn then d.tokenArrive code else d)

/-- `TIME_ANCHOR`: every 3,600 s of the raw counter while LOCKED (R481). -/
def execTimeAnchor (s : State) : Out :=
  s.onDev (fun d =>
    if d.op.mainOn && d.op != .boot && d.tbu.sync == 2 && decide (d.plg.lastAnchor + 3600000000000 ≤ d.raw) then d.timeAnchor else d)

/-! ### The register window (R482) -/

/-- Whether the cursor registers are written now (Table 16.4). -/
def Dev.cursorWritable (d : Dev) : Bool := (legalCRD.contains d.op || d.op == .safe) && d.host.link

/-- `PLG_CURSOR_WRITE`: a write of `PLG_CURSOR_0`. -/
def execPlgCursorWrite (v : Word) (s : State) : Out :=
  s.onDev (fun d => if d.cursorWritable then (d.setReg Reg.PLG_CURSOR_0 v).plgLatch s.nv else d)

/-- The cursor moves on by one record. -/
def Dev.plgAdvance (d : Dev) : Dev := d.setPlgCursor ((d.plgCursor + 1) % (if d.rbit Reg.PLG_CTRL 0 then 2 ^ 80 else 2 ^ 32))

/-- `PLG_NEXT`: a write of `PLG_NEXT`. -/
def execPlgNext (v : Word) (s : State) : Out :=
  s.onDev (fun d =>
    if d.cursorWritable && v.bit 0 then d.plgAdvance.plgLatch s.nv else d)

/-! ### Commands (R483 to R486, Table 15.5) -/

/-- The states in which the log and the identity are read. -/
def legalRead : List OpState := [.config, .run, .degraded, .safe]

/-- `PLG_READ` once its checks 2 to 4 hold. With no record to write, the number of the first one is a free value; `memErr`
says after how many records the transfer fails, if it does. -/
def Dev.plgReadCmd (nv : Nv) (h : CmdHdr) (part first addr count : Nat) (memErr : Option Nat) (d : Dev) : Dev :=
  if 1 < part ∨ addr % 32 ≠ 0 ∨ count < 1 ∨ 4096 < count then d.complete h 0xC0 2 []
  else
    let sec := part == 1
    let p := nv.part sec
    let n := nv.number sec first
    let rs := (p.recs.filter (fun c => !c.damaged && decide (n ≤ c.num))).take count
    let (num, d) := match rs with
      | c :: _ => (c.num % (if sec then 2 ^ 80 else 2 ^ 32), d)
      | [] => d.drawN 90
    let par (k : Nat) : List Word :=
      [BitVec.ofNat 32 k, lo32 num, lo32 (num >>> 32), BitVec.ofNat 32 ((num >>> 64) % 65536 + (if n < p.oldest then 65536 else 0))]
    match memErr with
    | none => (d.emit (.hostWrite addr (.records rs))).complete h 0xC0 0 (par rs.length)
    | some k => (d.emit (.hostWrite addr (.records (rs.take k)))).memFail h 0xC0 (par (rs.take k).length)

/-- `PLG_READ`. -/
def execPlgRead (h : CmdHdr) (part first addr count : Nat) (memErr : Option Nat) (s : State) : Out :=
  s.onDev (fun d => d.cmd h 0xC0 [] true legalRead (Dev.plgReadCmd s.nv h part first addr count memErr))

/-- `PLG_CLEAR` once its checks 2 to 4 hold. -/
def State.plgClear (h : CmdHdr) (s : State) : State :=
  let p := s.nv.gen
  let d := s.dev.post 0x0088 [BitVec.ofNat 32 p.recs.length, lo32 p.oldest, lo32 (p.next - 1), BitVec.ofNat 32 h.ring]
  { s with nv := { s.nv with gen := p.clear }, dev := d.complete h 0xC1 0 [] }

/-- `PLG_CLEAR`. -/
def execPlgClear (h : CmdHdr) (s : State) : Out := .next (s.cmd h 0xC1 [] legalCRD (State.plgClear h))

/-- `PLG_SEAL` once its checks 2 to 4 hold. -/
def State.plgSeal (h : CmdHdr) (nonce addr : Nat) (memErr : Bool) (s : State) : State :=
  if s.dev.key.attestOk then s.p5Start h (.seal nonce addr memErr) else s.mapDev (fun d => d.refuse h 0xC2 6 1 0xFFFF [])

/-- `PLG_SEAL`. -/
def execPlgSeal (h : CmdHdr) (nonce addr : Nat) (memErr : Bool) (s : State) : Out :=
  .next (s.cmd h 0xC2 [] legalCRD (State.plgSeal h nonce addr memErr))

/-- `TMP_LC`. -/
def tmpLc (s : State) : Word := BitVec.ofNat 32 (s.nv.lc.code + (if s.dev.key.debug then 8 else 0))

/-- The identity block (Table 15.4). -/
def idBlock (s : State) : List Word :=
  let pub := if s.dev.key.attestOk then s.dev.key.pub else 0
  [BitVec.ofNat 32 0xB19120, s.fuse.lot, s.fuse.die, lo32 s.fuse.serial, hi32 s.fuse.serial,
    s.fuse.part.cap 3] ++ (List.range 16).map (fun w => BitVec.ofNat 32 (leNat ((beBytes 64 pub).drop (4 * w) |>.take 4)))
    ++ [tmpLc s, s.dev.reg Reg.PWR_PCC] ++ List.replicate 8 0

/-- `ID_READ`. -/
def execIdRead (h : CmdHdr) (addr : Nat) (memErr : Bool) (s : State) : Out :=
  s.onDev (fun d => d.cmd h 0xC3 [] true legalRead (fun d =>
    if addr % 4 ≠ 0 then d.complete h 0xC3 2 []
    else if memErr then d.memFail h 0xC3 []
    else (d.emit (.hostWrite addr (.identity (idBlock s)))).complete h 0xC3 0 []))

/-! ### The scrubber (R497) -/

/-- Whether the scrubber runs: enabled, DRAM trained and awake, and P5 not suspended. -/
def Dev.scrubbing (d : Dev) : Bool :=
  d.op.mainOn && d.op != .boot && d.op != .holdup && d.rbit Reg.MEM_SCRUB 8 && d.rbit Reg.MEM_STATUS 0 && !d.rbit Reg.CLK_STATUS 4
    && d.anl.step == 0

/-- `MEM_SCRUB`: what scrubbing finds in a word of DRAM, or in the SRAM of a tile (R139). -/
def execMemScrub (find : ScrubFind) (s : State) : Out :=
  s.onDev (fun d =>
    match find with
    | .clean => d
    | .corrected => if d.scrubbing then d.bump Reg.MEM_CE 1 else d
    | .uncorrectable addr => if d.scrubbing then d.memUe addr else d
    | .tile n f => if d.tilesWatched && d.anl.step == 0 then d.tileFound s.fuse n f else d)

end Sys2Proof.Machine
end

