-- ==== Sys2Proof/Machine/Sht.lean ====
section
/-! DEFINITION. The meanings of Shutter's commands (08_shutter_capture.md). -/

namespace Sys2Proof.Machine

/-! ### Triggers and the states of a group (Table 8.7) -/

/-- `CAPTURE_TRIGGER`: the oldest trigger on its way reaches its group. -/
def execCaptureTrigger (s : State) : Out :=
  s.onDev (fun d => match d.sht.evs with
    | [] => d
    | e :: rest =>
      let d : Dev := { d with sht := { d.sht with evs := rest } }
      if d.op.running then (d.trigger e).2 else d)

/-- `CAPTURE_END_INSTANT`: the end instant of the capture of group `g` passes. -/
def execCaptureEndInstant (g : Nat) (s : State) : Out :=
  s.onDev (fun d => match d.recording g with
    | some c => if (d.grp g).st = 2 ∧ c.endT ≤ d.t16 then d.setGrp g { d.grp g with st := 3 } else d
    | none => d)

/-- `CLOSE_WAIT_MS` of a group, in 2^-16 ns. -/
def closeWait (t : SMap) (g : Nat) : Int := (zeroActs 50 ((gW t g 8).field 0 16) * 65536000000 : Nat)

/-- Whether the last set at or before the end has had its final look, for every phasor channel of a capture (R274). -/
def Dev.looksDone (c : Capture) (d : Dev) : Bool :=
  let rates := (c.chans.filter (fun x => x.kind == 1)).map (fun x => x.rate)
  !(d.eas.sets.any (fun x => rates.contains (rateOf x.rc) && decide (((slot16 (rateOf x.rc) x.k : Nat) : Int) ≤ c.endT)))

/-- `CAPTURE_CLOSE`: the capture of a CLOSING group closes (R274). -/
def execCaptureClose (g : Nat) (s : State) : Out :=
  s.onDev (fun d => match d.recording g with
    | some c =>
      if (d.grp g).st = 3 ∧ c.endT + closeWait (d.grp g).tab g ≤ d.t16 ∧ d.looksDone c = true then d.closeCapture g 0 none
      else d
    | none => d)

/-- Whether the hold-off of a group has ended (R268). -/
def Dev.holdOver (g : Nat) (d : Dev) : Bool :=
  let x := d.grp g
  let w := gW x.tab g 0
  if w.bit 4 then decide (w.field 16 16 ≤ x.holdCnt) else decide (x.holdEnd ≤ d.raw)

/-- `HOLDOFF_END`. -/
def execHoldoffEnd (g : Nat) (s : State) : Out :=
  s.onDev (fun d => if (d.grp g).st = 4 ∧ d.holdOver g = true then d.setGrp g { d.grp g with st := 5 } else d)

/-- `GROUP_REARM` (R267). -/
def execGroupRearm (g : Nat) (s : State) : Out :=
  s.onDev (fun d => if (d.grp g).st = 5 ∧ (d.freeSlot g).isSome = true then d.setGrp g { d.grp g with st := 1 } else d)

/-! ### Back-fill (R278, R281, R283) -/

/-- The capture that a group back-fills: its oldest that is not ready. -/
def Dev.filling (g : Nat) (d : Dev) : Option Capture := d.sht.caps.find? (fun c => c.g == g && (c.st == 1 || c.st == 2))

/-- The ring samples of a capture's channel. -/
def Dev.ringOf (c : Capture) (x : CapChan) (d : Dev) : List ShtSmp :=
  let y := d.grp c.g
  let all : List ShtChan := (if c.gen = y.gen then y.chans else []) ++ (y.held.filter (fun p => p.1 == c.gen)).map (fun p => p.2)
  (all.filter (fun z => z.kind == x.kind && z.ch == x.ch)).flatMap (fun z => z.smp)

/-- The end of the block of a channel that can be back-filled now: 256 samples, or the last that are left once the
capture has closed. -/
def Dev.blockEnd (c : Capture) (x : CapChan) (d : Dev) : Option Nat :=
  match x.endN with
  | some e => if e ≤ x.next then none else some (min e (x.next + 256))
  | none =>
    let head := ((d.ringOf c x).map (fun s => s.n + s.run)).foldl max 0
    if x.next + 256 ≤ min head (firstSmp x.rate c.endT) then some (x.next + 256) else none

/-- The next block of a capture, in time order: the channel and the block's end. -/
def Dev.nextBlock (c : Capture) (d : Dev) : Option (CapChan × Nat) :=
  c.chans.foldl (fun (b : Option (CapChan × Nat)) x =>
    match d.blockEnd c x, b with
    | none, _ => b
    | some e, none => some (x, e)
    | some e, some (y, f) => if smpTime x.rate x.next < smpTime y.rate y.next then some (x, e) else some (y, f)) none

/-- Units of a group's store that records other than `c` take. -/
def Dev.unitsBeside (c : Capture) (d : Dev) : Nat :=
  ((d.sht.caps.filter (fun x => x.g == c.g && x.off.isSome && x.id != c.id)).map Capture.units).sum

/-- Whether the store of a capture's group can take `n` bytes more of it (R278). -/
def Dev.storeTakes (c : Capture) (n : Nat) (d : Dev) : Bool :=
  decide (d.unitsBeside c + ceilDiv (c.bytes + n) 4096 ≤ storeUnits (d.grp c.g).tab c.g)

/-- The group of Shutter's next block that Swage codes; one whose store cannot take the block waits. -/
def Dev.codedGroup (d : Dev) : Option Nat :=
  (List.range 16).find? (fun g => match d.filling g with
    | some c => c.code != 0 && (match d.nextBlock c with
      | some (x, e) => d.storeTakes c (codedBytes x.kind c.code (e - x.next))
      | none => false)
    | none => false)

/-- Whether a client of Swage has a block ready: 0 Shutter, 1 to 4 the contexts. -/
def Dev.clientReady (c : Nat) (d : Dev) : Bool :=
  if c = 0 then d.codedGroup.isSome else (d.swgCtx (c - 1)).ready.isSome

/-- Whether it is a client's turn (R302): none of those between the one served last and it has a block ready. -/
def Dev.clientTurn (c : Nat) (d : Dev) : Bool :=
  let gap := (c + 9 - d.swg.last) % 5
  (List.range gap).all (fun j => !d.clientReady ((d.swg.last + 1 + j) % 5))

/-- A capture is ready once every sample is stored; it is announced (R283). -/
def Dev.captureReady (c : Capture) (d : Dev) : Dev :=
  let x := d.grp c.g
  let size := storeUnits x.tab c.g
  if c.st ≠ 2 ∨ c.chans.any (fun y => (d.blockEnd c y).isSome) = true ∨ d.storeTakes c 0 = false then d
  else
    let off := c.off.getD x.storeAt
    let d := d.putCap { c with st := 3, off := some off }
    let d := d.setGrp c.g { x with storeAt := (off + c.units) % zeroActs 1 size }
    if !d.rbit Reg.SHT_CTRL 0 then d
    else
      let head := (if c.flags.testBit 1 then 8 else 0) + 0xE9 * 256 + c.g * 65536 + c.reason * 16777216
      let (ok, d) := d.record (d.fld Reg.SHT_CTRL 8 7) 0xE9
        ([BitVec.ofNat 32 head, BitVec.ofNat 32 c.id, lo32 (off * 4096), hi32 (off * 4096), lo32 c.bytes, hi32 c.bytes]
          ++ tickWords (Int.tdiv c.t0 65536))
      let d := if ok then d else d.bump Reg.SHT_READY_DROP 1
      d.raise Reg.SHT_EVT 0

/-- The next block of a capture goes to the store, coded or copied; it waits while the store cannot take it. -/
def Dev.fillBlock (c : Capture) (fails : Nat) (d : Dev) : Dev :=
  match d.nextBlock c with
  | none => d.captureReady c
  | some (x, e) =>
    let ring := d.ringOf c x
    let n := e - x.next
    let samples : List (List Word) := (List.range n).map (fun i =>
      match ring.find? (fun s => decide (s.n ≤ x.next + i) && decide (x.next + i < s.n + s.run)) with
      | some s => if s.ws.isEmpty then missingSmp x.kind else s.ws
      | none => missingSmp x.kind)
    let gap := x.lost.any (fun r => decide (r.1 < e) && decide (x.next < r.1 + r.2))
    let raw := rawBlock samples
    let first := x.next - x.first
    let (bs, after) :=
      if c.code = 0 then (blockHeader x.ch x.kind 0 first n gap raw.length ++ raw, d)
      else
        let (bs, e2) := d.codeBlock 0 x.ch x.kind c.code first gap fails samples
        (bs, { e2 with swg := { e2.swg with last := 0 } })
    let y := d.grp c.g
    let chans := c.chans.map (fun z => if z.kind = x.kind ∧ z.ch = x.ch then { z with next := e } else z)
    let c2 : Capture := { c with chans := chans, data := c.data ++ bs, rawLen := c.rawLen + 32 + raw.length,
                                 off := some (c.off.getD y.storeAt) }
    if d.storeTakes c bs.length = false then d
    else ((after.putCap c2).trimHeld c.g).captureReady c2

/-- Back-fill of a group goes on by one block, unless P4 is shed (R278). -/
def Dev.backfill (g fails : Nat) (d : Dev) : Dev :=
  match d.filling g with
  | none => d
  | some c =>
    if !(d.op.running || d.op == .config) || d.sht.p4shed || (c.code != 0 && !d.clientTurn 0) then d
    else d.fillBlock c fails

/-- `BACKFILL_BLOCK`. `fails` says how many of Swage's two checks of the block fail. -/
def execBackfillBlock (g fails : Nat) (s : State) : Out := s.onDev (Dev.backfill g fails)

/-! ### Commands (R284, Table 8.13) -/

/-- `SHT_ARM` once its checks 2 to 4 hold. -/
def Dev.shtArmCmd (h : CmdHdr) (g : Nat) (d : Dev) : Dev :=
  let x := d.grp g
  if 15 < g then d.complete h 0x60 2 []
  else if gEn d.act g = false ∨ (x.st ≠ 0 ∧ x.st ≠ 6) then d.refuse h 0x60 6 1 0xFFFF []
  else if x.st = 0 then
    ((d.setGrp g { x with st := 1, tab := d.shtTab }).startHistory g).complete h 0x60 0 []
  else (d.setGrp g { x with st := 1 }).complete h 0x60 0 []

/-- `SHT_ARM`. -/
def execShtArm (h : CmdHdr) (g : Nat) (s : State) : Out :=
  s.onDev (fun d => d.cmd h 0x60 [] true [.run, .degraded] (Dev.shtArmCmd h g))

/-- `SHT_DISARM` once its checks 2 to 4 hold. -/
def Dev.shtDisarmCmd (h : CmdHdr) (g : Nat) (d : Dev) : Dev :=
  if 15 < g then d.complete h 0x61 2 []
  else if (d.grp g).st = 0 then d.refuse h 0x61 6 1 0xFFFF []
  else
    let d := match d.recording g with
      | some c => d.closeCapture g 3 (some (min c.endT d.t16))
      | none => d
    (d.setGrp g { d.grp g with st := 0, trigs := [] }).complete h 0x61 0 []

/-- `SHT_DISARM`. -/
def execShtDisarm (h : CmdHdr) (g : Nat) (s : State) : Out :=
  s.onDev (fun d => d.cmd h 0x61 [] true [.run, .degraded] (Dev.shtDisarmCmd h g))

/-- `SHT_TRIGGER` once its checks 2 to 4 hold: the outcome stands at byte 8 of the completion. -/
def Dev.shtTriggerCmd (h : CmdHdr) (g : Nat) (d : Dev) : Dev :=
  let x := d.grp g
  if 15 < g then d.complete h 0x62 2 []
  else if x.st = 0 ∨ x.st = 6 ∨ (gW x.tab g 3).bit 11 = false then d.refuse h 0x62 6 1 0xFFFF []
  else
    let (r, d) := d.trigger { g := g, src := 75, inst := d.t16, detail := 0xFFFF, mark := none }
    d.complete h 0x62 0 [0, 0, BitVec.ofNat 32 r]

/-- `SHT_TRIGGER`. -/
def execShtTrigger (h : CmdHdr) (g : Nat) (s : State) : Out :=
  s.onDev (fun d => d.cmd h 0x62 [] true [.run, .degraded] (Dev.shtTriggerCmd h g))

/-- The capture an identifier names, unless it was released. -/
def Dev.capById (id : Nat) (d : Dev) : Option Capture := d.sht.caps.find? (fun c => c.id == id && !c.released)

/-- `SHT_FETCH` once its checks 2 to 4 hold. -/
def Dev.shtFetchCmd (fz : Fuse) (h : CmdHdr) (id off len addr : Nat) (memErr : Option Nat) (d : Dev) : Dev :=
  match d.capById id with
  | none => d.complete h 0x63 2 []
  | some c =>
    if len < 4 ∨ 4194304 < len ∨ len % 4 ≠ 0 ∨ (c.st = 3 ∧ c.bytes < off + len) then d.complete h 0x63 2 []
    else if c.st ≠ 3 then d.refuse h 0x63 6 1 0xFFFF []
    else
      let bytes := ((c.header fz.part.trigSample ++ c.data).drop off).take len
      match memErr with
      | none => (d.emit (.hostWrite addr (.capture id off bytes))).complete h 0x63 0 []
      | some n => (d.emit (.hostWrite addr (.capture id off (bytes.take n)))).memFail h 0x63 []

/-- `SHT_FETCH`. `memErr` says after how many bytes the write to host memory fails, if it does. -/
def execShtFetch (h : CmdHdr) (id off len addr : Nat) (memErr : Option Nat) (s : State) : Out :=
  s.onDev (fun d => d.cmd h 0x63 [] true legalCRD (Dev.shtFetchCmd s.fuse h id off len addr memErr))

/-- `SHT_RELEASE` once its checks 2 to 4 hold. -/
def Dev.shtReleaseCmd (h : CmdHdr) (id : Nat) (d : Dev) : Dev :=
  match d.capById id with
  | none => d.complete h 0x64 2 []
  | some c =>
    if c.st ≠ 3 then d.refuse h 0x64 6 1 0xFFFF []
    else
      let d := d.putCap { c with released := true }
      ({ d with sht := { d.sht with caps := reclaim c.g d.sht.caps } }).complete h 0x64 0 []

/-- `SHT_RELEASE`. -/
def execShtRelease (h : CmdHdr) (id : Nat) (s : State) : Out :=
  s.onDev (fun d => d.cmd h 0x64 [] true legalCRD (Dev.shtReleaseCmd h id))

end Sys2Proof.Machine
end

