-- ==== Sys2Proof/Machine/Spq.lean ====
section
/-! DEFINITION. The meanings of the spill queues' commands (12_host_rings_queues.md). -/

namespace Sys2Proof.Machine

/-- Whether the consumers of the spill queues are served: the link is up and P1 is not withdrawn (R394). -/
def Dev.spqServed (d : Dev) : Bool := d.op.mainOn && d.host.link && !d.pub.withdrawn

/-! ### Discarding (R387, R391) -/

/-- Every item held, and the rest of the one the consumer is inside, is discarded. -/
def SpqQ.emptied (x : SpqQ) : SpqQ := { x with items := [], inside := none }

/-- Bytes that never reach the consumer when a queue is discarded: the unread words of the item begun count alone. -/
def SpqQ.unread (x : SpqQ) : Nat :=
  4 * ((x.items.map (fun i => i.words.length)).sum + (match x.inside with | some (_, ws) => ws.length | none => 0))

/-- What SECDED found as the consumer reads (R387): a corrected bit is counted; an uncorrectable error discards the item being
read, or the whole queue. -/
def Dev.spqSecded (q : Nat) (ecc : SpqEcc) (d : Dev) : Dev :=
  let x := d.spqQ q
  match ecc with
  | .clean => d
  | .corrected dram => let d := d.bump (Reg.SPQ_CE q) 1; if dram then d.bump Reg.MEM_CE 1 else d
  | .wordUe dram =>
    let d := d.bump (Reg.SPQ_UE q) 1
    let d := match dram with | some a => d.memUe a | none => d
    match x.inside with
    | some _ => d.setSpq q { x with inside := none }
    | none => d.setSpq q { x with items := x.items.drop 1 }
  | .indexUe =>
    ((d.bump (Reg.SPQ_UE q) 1).setSpq q x.emptied).post 0x0024 [BitVec.ofNat 32 q, BitVec.ofNat 32 x.held, 0, 0]

/-! ### Mode 0 (R388, R389) -/

/-- Size of a queue's host buffer. -/
def Dev.hbufSize (q : Nat) (d : Dev) : Nat := 2 ^ clampNat 15 24 (d.fld (Reg.SPQ_HBUF_SIZE q) 0 5)

/-- The oldest visible item goes to the host buffer when it fits whole. -/
def Dev.spqMove (q : Nat) (d : Dev) : Dev :=
  let x := d.spqQ q
  match x.items with
  | [] => d
  | i :: rest =>
    let size := d.hbufSize q
    let wr := d.reg (Reg.SPQ_WR q)
    let at_ := wr.toNat % size
    let bytes := ceilDiv (8 + 4 * i.words.length) 8 * 8
    let skip := if size < at_ + bytes then size - at_ else 0
    if size < (wr - x.hostRead).toNat + skip + bytes then d
    else
      let base := (d.reg (Reg.SPQ_HBUF_LO q)).toNat / 4096 * 4096 + (d.reg (Reg.SPQ_HBUF_HI q)).toNat * 4294967296
      let d := if skip = 0 then d else d.emit (.hostWrite (base + at_) (.words [Word.ones, 0]))
      let d := d.emit (.hostWrite (base + (at_ + skip) % size) (.item i.header x.drops i.words))
      let wr := wr + BitVec.ofNat 32 (skip + bytes)
      let d := (d.setReg (Reg.SPQ_WR q) wr).wrapAdd (Reg.SPQ_ITEMS q) 1
      let d := (d.setSpq q { x with items := rest, drops := 0, sent := true }).doorbell (0xA00 + 4 * q) wr
      if x.sent then d else d.msix (80 + q)

/-- `SPQ_DRAIN` of queue `q`; `ecc` is what SECDED finds on the way. -/
def execSpqDrain (q : Nat) (ecc : SpqEcc) (s : State) : Out :=
  s.onDev (fun d =>
    if 63 < q ∨ d.spqServed = false ∨ d.rbit (Reg.SPQ_Q_CTRL q) 0 = false ∨ d.rbit (Reg.SPQ_Q_CTRL q) 1 = true then d
    else (d.spqSecded q ecc).spqMove q)

/-! ### Mode 1 (R390) -/

/-- A read that finds the consumer on the wrong side of an item: 0, and counted. -/
def Dev.badPop (q off : Nat) (d : Dev) : Dev := (d.bump (Reg.SPQ_BAD_POP q) 1).emit (.readData off 0)

/-- Whether the pop registers are served: in mode 1, while draining has not stopped (R390, R394). -/
def Dev.popServed (q : Nat) (d : Dev) : Bool := d.rbit (Reg.SPQ_Q_CTRL q) 1 && !d.pub.withdrawn

/-- `STALL_US` as it acts, in raw counts. -/
def Dev.stallNs (d : Dev) : Nat := min 20 (d.fld Reg.SPQ_CTRL 0 5) * 1000

/-- A whole read of `SPQq_POP_HDR`. -/
def Dev.popHdr (q : Nat) (d : Dev) : Dev :=
  let x := d.spqQ q
  let off := Reg.SPQ_POP_HDR q
  if x.inside.isSome then d.badPop q off
  else
    match x.items with
    | i :: rest => (d.setSpq q { x with items := rest, inside := some (i.words.length, i.words) }).emit (.readData off i.header)
    | [] =>
      if d.stallNs = 0 then d.emit (.readData off 0) else d.setSpq q { x with stall := some (d.raw + d.stallNs) }

/-- `SPQ_POP_HDR`. While an earlier read is held, this one waits behind it. -/
def execSpqPopHdr (q : Nat) (ecc : SpqEcc) (s : State) : Out :=
  s.onDev (fun d =>
    if 63 < q ∨ d.op.mainOn = false ∨ d.host.link = false ∨ (d.spqQ q).stall.isSome = true then d
    else if d.popServed q then (d.spqSecded q ecc).popHdr q
    else d.emit (.readData (Reg.SPQ_POP_HDR q) 0))

/-- `SPQ_POP_STALL_END`: the held read returns 0. -/
def execSpqPopStallEnd (q : Nat) (s : State) : Out :=
  s.onDev (fun d => match (d.spqQ q).stall with
    | some t => if t ≤ d.raw then (d.setSpq q { d.spqQ q with stall := none }).emit (.readData (Reg.SPQ_POP_HDR q) 0) else d
    | none => d)

/-- A whole read of `SPQq_POP_DATA`. -/
def Dev.popData (q : Nat) (d : Dev) : Dev :=
  let x := d.spqQ q
  let off := Reg.SPQ_POP_DATA q
  match x.inside with
  | some (n, w :: rest) =>
    if rest.isEmpty then ((d.setSpq q { x with inside := none }).wrapAdd (Reg.SPQ_ITEMS q) 1).emit (.readData off w)
    else (d.setSpq q { x with inside := some (n, rest) }).emit (.readData off w)
  | _ => d.badPop q off

/-- `SPQ_POP_DATA`. While a header read is held, this one waits behind it. -/
def execSpqPopData (q : Nat) (ecc : SpqEcc) (s : State) : Out :=
  s.onDev (fun d =>
    if 63 < q ∨ d.op.mainOn = false ∨ d.host.link = false ∨ (d.spqQ q).stall.isSome = true then d
    else if d.popServed q then (d.spqSecded q ecc).popData q
    else d.emit (.readData (Reg.SPQ_POP_DATA q) 0))

/-! ### Flush and drop (R391, R392) -/

/-- `SPQ_FLUSH` once its checks 2 to 4 hold: what the queue holds is discarded; the completion follows. -/
def Dev.spqFlushCmd (h : CmdHdr) (q : Nat) (d : Dev) : Dev :=
  let x := d.spqQ q
  if 63 < q then d.complete h 0x09 2 []
  else if d.rbit (Reg.SPQ_Q_CTRL q) 0 = false ∨ x.flush.isSome = true then d.refuse h 0x09 6 1 0xFFFF []
  else d.setSpq q { x.emptied with flush := some (h, x.held, x.unread) }

/-- `SPQ_FLUSH`. -/
def execSpqFlush (h : CmdHdr) (q : Nat) (s : State) : Out :=
  s.onDev (fun d => d.cmd h 0x09 [] true legalCRD (Dev.spqFlushCmd h q))

/-- `SPQ_FLUSH_DONE`: no item is in progress at a producer, so the flush is complete. -/
def execSpqFlushDone (q : Nat) (s : State) : Out :=
  s.onDev (fun d => match (d.spqQ q).flush with
    | some (h, items, bytes) =>
      (d.setSpq q { d.spqQ q with flush := none }).complete h 0x09 0 [BitVec.ofNat 32 items, BitVec.ofNat 32 bytes]
    | none => d)

/-- `SPQ_DROP_REM` once its checks 2 to 4 hold. -/
def Dev.spqDropCmd (h : CmdHdr) (q : Nat) (d : Dev) : Dev :=
  let x := d.spqQ q
  if 63 < q then d.complete h 0x0A 2 []
  else
    match x.inside with
    | some (_, ws) =>
      if d.rbit (Reg.SPQ_Q_CTRL q) 1 then
        (d.setSpq q { x with inside := none }).complete h 0x0A 0 [BitVec.ofNat 32 ws.length]
      else d.refuse h 0x0A 6 1 0xFFFF []
    | none => d.refuse h 0x0A 6 1 0xFFFF []

/-- `SPQ_DROP_REM`. -/
def execSpqDropRem (h : CmdHdr) (q : Nat) (s : State) : Out :=
  s.onDev (fun d => d.cmd h 0x0A [] true legalCRD (Dev.spqDropCmd h q))

/-! ### Enabling (R385, R388, R393) -/

/-- A queue's middle in MiB, as base and size, under a control word. -/
def spqMiddle (w : Word) : Nat × Nat := (w.field 16 13, w.field 8 8)

/-- Whether a queue's middle overlaps another DRAM area or lies beyond installed DRAM (R393). -/
def Dev.middleBad (fz : Fuse) (q : Nat) (v : Word) (d : Dev) : Bool :=
  let m := spqMiddle v
  let spill := if d.spillEn then [(d.fld Reg.EAS_SPILL_BASE 0 13, 12 * fz.part.tiles)] else []
  let groups := (groupsIn d.act).flatMap (fun g => groupAreas d.act g)
  let queues := ((List.range 64).filter (fun p => p != q && d.rbit (Reg.SPQ_Q_CTRL p) 0)).map (fun p => spqMiddle (d.reg (Reg.SPQ_Q_CTRL p)))
  m.2 != 0 && ((spill ++ groups ++ queues).any (fun a => a.2 != 0 && overlap a m) || decide (d.fld Reg.MEM_CFG 0 13 < m.1 + m.2))

/-- `SPQ_ENABLE`: a write `v` of `SPQq_CTRL` that sets `EN`; `idx` is the queue's read index in the doorbell page. -/
def execSpqEnable (q : Nat) (v : Word) (idx : Nat) (s : State) : Out :=
  s.onDev (fun d =>
    let c := Reg.SPQ_Q_CTRL q
    if 63 < q ∨ d.hstWritable = false ∨ d.rbit c 0 = true ∨ v.bit 0 = false then d
    else if d.middleBad s.fuse q v then d.setSpq q { d.spqQ q with cfgErr := true }
    else
      let x : SpqQ := { d.spqQ q with items := [], inside := none, sent := false, cfgErr := false, hostRead := BitVec.ofNat 32 idx }
      ((d.hostSet c v).setReg (Reg.SPQ_WR q) (BitVec.ofNat 32 idx)).setSpq q x)

/-- `SPQ_DISABLE`: a write of `SPQq_CTRL` that clears `EN` discards the queue (R393). -/
def execSpqDisable (q : Nat) (s : State) : Out :=
  s.onDev (fun d =>
    if 63 < q ∨ d.hstWritable = false ∨ d.rbit (Reg.SPQ_Q_CTRL q) 0 = false then d
    else (d.setField (Reg.SPQ_Q_CTRL q) 0 1 0).setSpq q (d.spqQ q).emptied)

end Sys2Proof.Machine
end

