-- ==== Sys2Proof/Machine/RegRead.lean ====
section
/-! DEFINITION. What a read of BAR0 returns (R6, R7, R10, R488 to R491): registers that show other state as they are read,
the table windows in their two views, latched groups, and every other register as it is stored. -/

namespace Sys2Proof.Machine

/-! ### Absent units -/

/-- Whether an offset belongs to a unit the part does not have (R6): its block, or its window. -/
def absentOff (p : Part) (off : Nat) : Bool :=
  (!p.hasFlg && ((decide (0x110000 ≤ off) && decide (off < 0x120000)) || (decide (0x380000 ≤ off) && decide (off < 0x3A0000))))
    || (!p.hasSwg && decide (0xE0000 ≤ off) && decide (off < 0xF0000))

/-! ### Registers that show other state -/

/-- Word `i` of a number shown as `n` octets, most significant octet first. -/
def beWord (n v i : Nat) : Word := BitVec.ofNat 32 (leNat ((beBytes n v).drop (4 * i) |>.take 4))

/-- A measured figure of a mechanism outside the model (tile clock gating, DRAM bandwidth, pin levels), free but for its
width; 0 at raw count 0 (log entry 18). -/
def Dev.gauge (what most : Nat) (d : Dev) : Nat :=
  if d.raw = 0 then 0 else (Config.fn 68 [BitVec.ofNat 32 what, lo32 d.raw, hi32 d.raw]).toNat % most

/-- `EASn_STATUS`, `EASn_LOAD_FPS`, `EASn_LOAD_PHV` and `EASn_SPILL` of a tile (Tables 4.9, 4.10). -/
def Dev.tileShown (fz : Fuse) (n w : Nat) (d : Dev) : Word :=
  if fz.part.tiles ≤ n then 0
  else
    let mine := (d.eas.homes.filter (fun p => p.2 == n)).map (fun p => p.1)
    let load := loadOf (fun i => d.entry i) d.eas.homes n
    let only := (mine.filter (fun i => d.eas.spill.contains i)).length
    match w with
    | 0 =>
      let c := (d.tile n).cause
      BitVec.ofNat 32 ((if c = 0 then 1 else 2) + c * 4 + mine.length % 512 * 256 + (if 256 < mine.length then 131072 else 0))
    | 1 => BitVec.ofNat 32 load.fps
    | 2 => BitVec.ofNat 32 load.phv
    | _ => BitVec.ofNat 32 ((mine.filter (fun i => decide (48 < ePayload (d.entry i)))).length % 512 + only % 512 * 65536)

/-- `EAS_CAP` (Table 4.13). -/
def Dev.easCap (fz : Fuse) (d : Dev) : Word :=
  let n := (d.tilesOk fz).length
  BitVec.ofNat 32 (n + n * (if d.op = .degraded ∧ d.spillEn = true then 264 else 256) * 256)

/-- Samples of a group's ring that captures keep frozen, in bytes. -/
def Dev.ringFrozen (g : Nat) (d : Dev) : Nat :=
  let x := d.grp g
  ((x.chans.map (fun c => (d.frozenPart g x.gen c).bytes)).sum + (x.held.map (fun p => (d.frozenPart g p.1 p.2).bytes)).sum)

/-- Registers of a capture group that show its state (Table 8.14): status, ring and store space, and history. -/
def Dev.groupShown (g w : Nat) (d : Dev) : Word :=
  let x := d.grp g
  let caps := d.sht.caps.filter (fun c => c.g == g && !c.released)
  match w with
  | 0 =>
    let noRec := x.st == 5 && (d.freeSlot g).isNone
    let paused := d.sht.p4shed && caps.any (fun c => c.st == 2)
    BitVec.ofNat 32 (x.st % 8 + (if noRec then 8 else 0) + (if paused then 16 else 0) + caps.length * 256)
  | 1 => BitVec.ofNat 32 (((gW x.tab g 5).field 16 14 * 1048576 - d.ringFrozen g) / 1048576)
  | 2 => BitVec.ofNat 32 ((storeUnits x.tab g - d.storeUsed g) / 256)
  | _ =>
    let ms := x.chans.map (fun (c : ShtChan) => if c.rate = 0 then 0 else c.count * 1000 / c.rate)
    BitVec.ofNat 32 (if ms.isEmpty then 0 else ms.foldl min 60000)

/-- `SHT_STATUS`. -/
def Dev.shtStatus (d : Dev) : Word :=
  BitVec.ofNat 32 (((List.range 16).map (fun g => if (d.grp g).st = 2 ∨ (d.grp g).st = 3 then 2 ^ g else 0)).sum
    + (if d.sht.p4shed then 65536 else 0))

/-- `SWG_STATUS`: `PAUSED` and `BYPASS` as stored, and the contexts' states. -/
def Dev.swgStatus (d : Dev) : Word :=
  BitVec.ofNat 32 (d.fld Reg.SWG_STATUS 0 2 + ((List.range 4).map (fun n =>
    (if (d.swgCtx n).st = 0 then 0 else 2 ^ (2 + n)) + (if (d.swgCtx n).st = 2 then 2 ^ (6 + n) else 0))).sum)

/-- `SWG_CTXn_STATUS` (Table 9.6). -/
def Dev.swgCtxStatus (n : Nat) (d : Dev) : Word :=
  let x := d.swgCtx n
  if x.st = 0 then 0
  else BitVec.ofNat 32 (x.st + x.kind % 2 * 4 + x.code % 16 * 8 + x.partial_.length % 256 * 256 + x.bufs.length % 16 * 65536)

/-- `BRZ_STATUS`. -/
def Dev.brzStatus (d : Dev) : Word :=
  BitVec.ofNat 32 ((if d.rbit Reg.BRZ_UP 0 && (d.peer 0 d.brzParent).up then 1 else 0) + (if d.uplink then 2 else 0)
    + (d.children.filter (fun c => (d.peer 1 c.2).up)).length % 1024 * 4)

/-- `BRZ_TWIN_STATUS` (Table 10.13): `SWAPS` as stored. -/
def Dev.twinStatus (d : Dev) : Word :=
  BitVec.ofNat 32 (d.brz.role + (if d.twinUp then 4 else 0) + (if d.cfgMatch then 8 else 0) + (if d.partnerReady then 16 else 0)
    + d.brz.cause % 8 * 32 + d.fld Reg.BRZ_TWIN_STATUS 16 16 * 65536)

/-- Words of a device in the peer window (Table 10.12): a parent on port 0, a child on port 1, a partner on the port that is
UP. -/
def Dev.peerShown (dev w : Nat) (d : Dev) : Word :=
  let par := d.rbit Reg.BRZ_UP 0 && dev == d.brzParent
  let twin := d.isTwin && dev == d.brzPartner
  let child := d.children.any (fun c => c.2 == dev)
  if !(par || twin || child) then 0
  else
    let port := if par then 0 else if child then 1 else if (d.peer 0 dev).up then 0 else if (d.peer 1 dev).up then 1 else 0
    let x := d.peer port dev
    match w with
    | 0 => BitVec.ofNat 32 ((if x.up then 2 else 1) + (if x.held then 4 else 0) + (if par then 8 else 0) + (if twin then 16 else 0))
    | 1 => x.session
    | 2 => x.seq
    | _ => x.v.getD 0

/-- `HST_STATUS`. -/
def Dev.hstStatus (d : Dev) : Word :=
  let on (lo : Nat) := ((List.range 64).filter (fun n => (d.ringCtrl (lo + n)).bit 0)).length
  BitVec.ofNat 32 ((if d.rbit Reg.HST_CTRL 0 && d.host.polling then 1 else 0) + on 0 * 256 + on 64 * 65536)

/-- `HST_RINGn_OUT`: commands fetched and not completed, of a submission ring or for a completion ring. -/
def Dev.ringOut (n : Nat) (d : Dev) : Word :=
  BitVec.ofNat 32 (if n < 64 then (d.host.fetched.filter (fun f => !f.noCqe && f.ring == n)).length else d.fetchedFor n)

/-- `SPQq_STATUS`. -/
def Dev.spqStatus (q : Nat) (d : Dev) : Word :=
  let x := d.spqQ q
  BitVec.ofNat 32 ((if x.inside.isSome then 1 else 0) + (if x.flush.isSome then 2 else 0) + (if x.cfgErr then 4 else 0)
    + (if x.items.isEmpty then 0 else 8) + x.held % 8192 * 65536)

/-- `KEY_STATUS`. -/
def Dev.keyStatus (d : Dev) : Word :=
  BitVec.ofNat 32 (d.key.plate.length % 512 + (if d.key.rngFail then 512 else 0) + (if d.key.install.isEmpty then 0 else 1024)
    + (if d.key.attestOk then 2048 else 0))

/-- `TMP_STATUS`: what the detectors and the `VBAT` comparator show now is free (log entry 18). -/
def tmpStatus (s : State) : Word :=
  let live := s.dev.gauge 0 2048
  BitVec.ofNat 32 (live % 128 + live / 1024 * 1024 + (if s.bd.root.isSome then 256 else 0) + (if s.bd.causes = 0 then 0 else 512))

/-- `MEM_STATUS`. -/
def Dev.memStatus (d : Dev) : Word :=
  BitVec.ofNat 32 (d.fld Reg.MEM_STATUS 0 1 + (if d.rbit Reg.CLK_STATUS 4 then 2 else 0) + (if d.scrubbing then 4 else 0))

/-- `PUB_STATUS`. -/
def Dev.pubStatus (d : Dev) : Word :=
  BitVec.ofNat 32 ((setsIn d.act).length % 512 + (if d.pub.withdrawn then 65536 else 0))

/-- Words of a key slot's attributes (Table 13.3). -/
def slotShown (s : State) (slot w : Nat) : Word :=
  let rec? := KMap.get? s.dev.key.plate slot
  let repl := s.dev.key.install.any (fun i => i.slot == slot)
  match w with
  | 0 =>
    BitVec.ofNat 32 ((if repl then 2 else if rec?.isSome then 1 else 0) + (if s.bd.copyOf slot then 4 else 0)
      + (match rec? with | some k => k.typ % 16 * 256 + k.origin % 16 * 4096 + k.usage % 65536 * 65536 | none => 0))
  | 2 => match rec? with | some k => k.gen | none => s.nv.genOf slot
  | _ =>
    match rec? with
    | none => 0
    | some k =>
      match w with
      | 1 => k.keyId
      | 3 => BitVec.ofNat 32 (k.kcv % 16777216)
      | 4 => lo32 k.instMs
      | 5 => BitVec.ofNat 32 (k.instPcc % 16777216)
      | 7 => k.hostTag
      | _ => 0

/-- A register family computed as it is read: base, stride, instances, and the word of an instance. -/
structure LiveRow where
  base   : Nat
  stride : Nat
  count  : Nat
  word   : Nat → Word

/-- One register. -/
def LiveRow.one (off : Nat) (w : Word) : LiveRow := { base := off, stride := 4, count := 1, word := fun _ => w }

/-- The instance an offset names. -/
def LiveRow.inst (r : LiveRow) (off : Nat) : Option Nat :=
  if r.base ≤ off ∧ (off - r.base) % r.stride = 0 ∧ (off - r.base) / r.stride < r.count then some ((off - r.base) / r.stride) else none

/-- Identity, state, power, time and network registers that show other state. -/
def State.liveA (s : State) : List LiveRow :=
  let d := s.dev
  let fz := s.fuse
  [.one Reg.ID_DEVICE 0xB19120, .one Reg.ID_LOT fz.lot, .one Reg.ID_DIE fz.die, .one Reg.ID_SERIAL_LO (lo32 fz.serial),
   .one Reg.ID_SERIAL_HI (hi32 fz.serial),
   { base := Reg.ID_CAP0, stride := 4, count := 4, word := fun i => fz.part.cap i },
   .one Reg.GLB_STATE d.glbState,
   .one Reg.CLK_TILE_WAKES (BitVec.ofNat 32 (d.gauge 1 4294967296)), .one Reg.CLK_GATED (BitVec.ofNat 32 (d.gauge 2 101)),
   .one Reg.RST_BOOT_SVN (BitVec.ofNat 32 (s.nv.bootSvn % 256)),
   .one Reg.TBU_STATUS d.tbuStatus, .one Reg.TBU_UNCERT (BitVec.ofNat 32 d.uncert),
   .one Reg.TBU_RAW_LO (lo32 d.raw), .one Reg.TBU_RAW_HI (hi32 d.raw),
   .one Reg.TBU_RATE_LO (BitVec.ofInt 32 d.tbu.rate), .one Reg.TBU_RATE_HI (BitVec.ofNat 32 ((d.tbu.rate / 4294967296) % 256).toNat),
   { base := Reg.NET_STATUS 0, stride := 0x2000, count := 4, word := fun n =>
      let p := d.port n
      BitVec.ofNat 32 ((if p.link then 1 else 0) + (if p.stormUntil.isSome then 2 else 0) + (if p.pauseUntil.isSome then 4 else 0)) },
   { base := Reg.NET_PRP_NODES 0, stride := 0x4000, count := 2, word := fun n => BitVec.ofNat 32 (d.nodes n).length }]

/-- Alignment, Phasor chain, Densitometer, Shutter, Swage and publishing registers that show other state. -/
def State.liveB (s : State) : List LiveRow :=
  let d := s.dev
  let fz := s.fuse
  [{ base := Reg.EAS_STATUS 0, stride := 0x800, count := 32, word := fun n => d.tileShown fz n 0 },
   { base := Reg.EAS_LOAD_FPS 0, stride := 0x800, count := 32, word := fun n => d.tileShown fz n 1 },
   { base := Reg.EAS_LOAD_PHV 0, stride := 0x800, count := 32, word := fun n => d.tileShown fz n 2 },
   { base := Reg.EAS_SPILL 0, stride := 0x800, count := 32, word := fun n => d.tileShown fz n 3 },
   .one Reg.EAS_CAP (d.easCap fz), .one Reg.EAS_CAP_FPS (BitVec.ofNat 32 ((d.tilesOk fz).length * 16384)),
   { base := Reg.EAS_FINAL 0, stride := 4, count := 12, word := fun n => BitVec.ofNat 32 (d.d2 (rateOf n) / 1000) },
   .one Reg.PHX_STATUS d.phxStatus,
   { base := Reg.PHX_SETTLE 0, stride := 4, count := 16, word := fun n => d.phxBitmap false n },
   { base := Reg.PHX_SHED 0, stride := 4, count := 16, word := fun n => d.phxBitmap true n },
   .one Reg.DNS_STATUS d.dnsStatus,
   .one Reg.SHT_STATUS d.shtStatus,
   { base := Reg.SHT_GRP_STATUS 0, stride := 0x40, count := 16, word := fun n => d.groupShown n 0 },
   { base := Reg.SHT_GRP_RING_FREE 0, stride := 0x40, count := 16, word := fun n => d.groupShown n 1 },
   { base := Reg.SHT_GRP_STORE_FREE 0, stride := 0x40, count := 16, word := fun n => d.groupShown n 2 },
   { base := Reg.SHT_GRP_HISTORY_MS 0, stride := 0x40, count := 16, word := fun n => d.groupShown n 3 },
   .one Reg.SWG_STATUS d.swgStatus,
   { base := Reg.SWG_CTX_STATUS 0, stride := 0x10, count := 4, word := fun n => d.swgCtxStatus n },
   { base := Reg.SWG_CTX_INDEX 0, stride := 0x10, count := 4, word := fun n => lo32 (d.swgCtx n).index },
   .one Reg.PUB_STATUS d.pubStatus, .one Reg.BRZ_STATUS d.brzStatus, .one Reg.BRZ_TWIN_STATUS d.twinStatus]

/-- Mesh, host interface, key, tamper, proof log and DRAM registers that show other state. -/
def State.liveC (s : State) : List LiveRow :=
  let d := s.dev
  let nx := s.nv.sec.next
  let od := s.nv.sec.oldest
  let pub := if d.key.attestOk then d.key.pub else 0
  let auth := match s.nv.authKey with | some k => Config.sha256 (beBytes 64 k) | none => 0
  [.one Reg.FLG_UP_INFO d.upInfo, .one Reg.FLG_UP_EUI_LO (lo32 d.flg.upEui), .one Reg.FLG_UP_EUI_HI (hi32 d.flg.upEui),
   .one Reg.FLG_UP_FC d.flg.upFc, .one Reg.FLG_NODES d.flgNodes,
   .one Reg.HST_STATUS d.hstStatus,
   { base := Reg.HST_RING_OUT 0, stride := 0x20, count := 128, word := fun n => d.ringOut n },
   { base := Reg.SPQ_STATUS 0, stride := 0x40, count := 64, word := fun q => d.spqStatus q },
   { base := Reg.SPQ_CREDITS 0, stride := 0x40, count := 64, word := fun q => BitVec.ofNat 32 (d.spqCredits q) },
   .one Reg.KEY_STATUS d.keyStatus, .one Reg.KEY_IMPORT_CTR (BitVec.ofNat 32 s.nv.importCtr),
   { base := Reg.HLM_PUB 0, stride := 4, count := 16, word := fun i => beWord 64 pub i },
   .one Reg.HLM_CERT_LEN (BitVec.ofNat 32 (s.nv.certLen % 2048)),
   { base := Reg.HLM_MEASURE 0, stride := 4, count := 8, word := fun i => beWord 32 d.key.measure i },
   .one Reg.TMP_LC (tmpLc s), .one Reg.TMP_STATUS (tmpStatus s), .one Reg.TMP_SRC_EN s.bd.srcEn,
   .one Reg.TMP_LATCH s.bd.latchWord, .one Reg.TMP_LATCH_TIME (BitVec.ofNat 32 s.bd.time), .one Reg.TMP_VAULT_GEN s.nv.vaultGen,
   .one Reg.TMP_UPD_CTR (BitVec.ofNat 32 s.nv.updCtr),
   { base := Reg.TMP_AUTH_HASH 0, stride := 4, count := 8, word := fun i => beWord 32 auth i },
   .one Reg.PLG_STATUS (plgStatus s.nv d), .one Reg.PLG_GEN_HEAD (BitVec.ofNat 32 s.nv.gen.next),
   .one Reg.PLG_GEN_OLDEST (BitVec.ofNat 32 s.nv.gen.oldest),
   { base := Reg.PLG_SEC_NEXT 0, stride := 4, count := 3, word := fun i => BitVec.ofNat 32 (nx % 2 ^ 80 / 2 ^ (32 * i)) },
   { base := Reg.PLG_SEC_OLDEST 0, stride := 4, count := 3, word := fun i => BitVec.ofNat 32 (od % 2 ^ 80 / 2 ^ (32 * i)) },
   .one Reg.PLG_BAD_SLOTS (BitVec.ofNat 32 (s.nv.gen.bad.length + s.nv.sec.bad.length)),
   { base := Reg.PLG_SEC_DIGEST 0, stride := 4, count := 8, word := fun i => beWord 32 s.nv.digest i },
   .one Reg.MEM_STATUS d.memStatus, .one Reg.MEM_BW (BitVec.ofNat 32 (d.gauge 3 65536))]

/-- The word of a row's register. -/
def LiveRow.at? (off : Nat) (r : LiveRow) : Option Word := (r.inst off).map r.word

/-- A register that shows other state, as it reads now. -/
def State.live? (off : Nat) (s : State) : Option Word :=
  let rows := if off < 0x80000 then s.liveA else if off < 0x110000 then s.liveB else s.liveC
  rows.findSome? (LiveRow.at? off)

/-! ### Table windows (R490, Table 16.2) -/

/-- Words 4 to 7 and the rest of a capture's entry in the record window (Table 8.15). -/
def Capture.shown (c : Capture) (w : Nat) : Word :=
  match w with
  | 0 => BitVec.ofNat 32 (c.st % 4 + c.reason % 16 * 256 + c.flags % 65536 * 65536)
  | 1 => lo32 c.id
  | 2 => match c.off with | some o => lo32 o | none => 0
  | 3 => match c.off with | some _ => lo32 c.units | none => 0
  | 4 => lo32 (twos64 (Int.tdiv c.t0 65536))
  | 5 => hi32 (twos64 (Int.tdiv c.t0 65536))
  | 6 => BitVec.ofNat 32 (c.primary % 65536)
  | _ => 0

/-- Words of rule `i`'s status (Table 6.9). -/
def RuleS.shown (x : RuleS) (w : Nat) : Word :=
  match w with
  | 0 => BitVec.ofNat 32 (x.st % 4 + (if x.indet then 4 else 0) + (if x.held then 8 else 0) + x.acount % 256 * 16
      + x.dcount % 256 * 4096)
  | 1 => x.slotUs
  | 2 => BitVec.ofNat 32 (x.raises % 65536 + x.miss % 65536 * 65536)
  | _ => x.value

/-- A word of the active view: results are computed where the unit holds them. -/
def Dev.activeWord (off : Nat) (d : Dev) : Word :=
  let w (n : Nat) := off / 4 % n
  if 0x2A0000 ≤ off ∧ off < 0x2A4000 ∧ 4 ≤ w 8 then d.chShown ((off - 0x2A0000) / 32) (w 8)
  else if 0x328000 ≤ off ∧ off < 0x328800 ∧ 6 ≤ w 8 then d.flagShown ((off - 0x328000) / 32) (w 8)
  else if 0x32A000 ≤ off ∧ off < 0x32E000 ∧ 5 ≤ w 8 then (if w 8 = 7 then 0 else d.branchShown ((off - 0x32A000) / 32) (w 8))
  else if 0x380000 ≤ off ∧ off < 0x3A0000 ∧ 8 ≤ w 16 then d.nodeShown ((off - 0x380000) / 64) (w 16)
  else d.actW off

/-- Whether an offset lies in one of some tables. -/
def inTables (ts : List (Nat × Nat × Nat × Nat)) (off : Nat) : Bool := ts.any (fun r => decide (r.1 ≤ off) && decide (off < r.2.1))

/-- A word of the read-only windows. -/
def State.roWord (off : Nat) (s : State) : Word :=
  let d := s.dev
  if 0x2B0000 ≤ off ∧ off < 0x2C0000 then
    (match KMap.get? d.sfl.rules ((off - 0x2B0000) / 16) with | some x => x.shown (off / 4 % 4) | none => 0)
  else if 0x32E000 ≤ off ∧ off < 0x32E800 then d.modeShown ((off - 0x32E000) / 32) (off / 4 % 8)
  else if 0x32F000 ≤ off ∧ off < 0x32F100 then d.foShown ((off - 0x32F000) / 32) (off / 4 % 8)
  else if 0x330000 ≤ off ∧ off < 0x334000 then d.shapeShown ((off - 0x330000) / 16) (off / 4 % 4)
  else if 0x350000 ≤ off ∧ off < 0x358000 then
    let g := (off - 0x350000) / 2048
    let slot := (off - 0x350000) / 32 % 64
    (match d.sht.caps.find? (fun c => c.g == g && c.slot == slot && !c.released) with | some c => c.shown (off / 4 % 8) | none => 0)
  else if 0x370000 ≤ off ∧ off < 0x372000 then d.peerShown ((off - 0x370000) / 16) (off / 4 % 4)
  else if 0x3A0000 ≤ off ∧ off < 0x3A2000 then if d.op = .boot then 0 else slotShown s ((off - 0x3A0000) / 32) (off / 4 % 8)
  else 0

/-- The end of a table on a part (R7, R198, R223, R238), for the tables that are smaller on smaller parts. -/
def partEnd (p : Part) (off : Nat) : Nat :=
  if off < 0x280000 then 0x200000 + 64 * p.streams
  else if 0x2A0000 ≤ off ∧ off < 0x2A4000 then 0x2A0000 + 32 * p.channels
  else if 0x302000 ≤ off ∧ off < 0x304000 then 0x302000 + 8 * p.signals
  else if 0x320000 ≤ off ∧ off < 0x328000 then 0x320000 + 32 * p.signals
  else if 0x32A000 ≤ off ∧ off < 0x32E000 then 0x32A000 + 16 * p.signals
  else if 0x341000 ≤ off ∧ off < 0x341800 then 0x341000 + 4 * p.channels
  else 0x400000

/-- A word of the table windows; one beyond the part's table reads 0 (R7). -/
def State.windowWord (off : Nat) (s : State) : Word :=
  let d := s.dev
  if partEnd s.fuse.part off ≤ off then 0
  else if inTables viewTables off then (if d.rbit Reg.STM_CTRL 0 then d.activeWord off else d.stgW off)
  else if inTables ruleTables off then (if d.rbit Reg.SFL_CTRL 0 then d.activeWord off else d.stgW off)
  else s.roWord off

/-! ### Latched groups (R491, Table 16.3) -/

/-- The groups of Table 16.3: first register and the others. -/
def latchGroups : List (Nat × List Nat) :=
  [(Reg.TBU_RAW_LO, [Reg.TBU_RAW_HI]), (Reg.TBU_STEP_LAST_LO, [Reg.TBU_STEP_LAST_HI]),
   (Reg.STM_PEND_SEC_LO, [Reg.STM_PEND_SEC_HI, Reg.STM_PEND_NS]), (Reg.STM_LAST_SEC_LO, [Reg.STM_LAST_SEC_HI, Reg.STM_LAST_NS]),
   (Reg.SFL_PEND_SEC_LO, [Reg.SFL_PEND_SEC_HI, Reg.SFL_PEND_NS]), (Reg.SFL_LAST_SEC_LO, [Reg.SFL_LAST_SEC_HI, Reg.SFL_LAST_NS]),
   (Reg.PHX_DET_LAST, [Reg.PHX_DET_LAST_RAW_LO, Reg.PHX_DET_LAST_RAW_HI]),
   (Reg.DNS_MT_SEQ, [Reg.DNS_MT_INFO, Reg.DNS_MT_TICK_LO, Reg.DNS_MT_TICK_HI, Reg.DNS_FLAGS_LO, Reg.DNS_FLAGS_HI]),
   (Reg.SWG_IN_BYTES_LO, [Reg.SWG_IN_BYTES_HI]), (Reg.SWG_OUT_BYTES_LO, [Reg.SWG_OUT_BYTES_HI]),
   (Reg.FLG_UP_EUI_LO, [Reg.FLG_UP_EUI_HI]), (Reg.KEY_LAST_FLIP_LO, [Reg.KEY_LAST_FLIP_HI]),
   (Reg.PLG_SEC_NEXT 0, [Reg.PLG_SEC_NEXT 1, Reg.PLG_SEC_NEXT 2]), (Reg.PLG_SEC_OLDEST 0, [Reg.PLG_SEC_OLDEST 1, Reg.PLG_SEC_OLDEST 2]),
   (Reg.PLG_SEC_DIGEST 0, (List.range 7).map (fun i => Reg.PLG_SEC_DIGEST (i + 1)))]

/-- The other registers of the group whose first register an offset is. -/
def latchOthers (off : Nat) : Option (List Nat) := (latchGroups.find? (fun g => g.1 == off)).map (fun g => g.2)

/-- Whether an offset is a register of a latched group other than its first. -/
def latchedReg (off : Nat) : Bool := latchGroups.any (fun g => g.2.contains off)

/-! ### A read -/

/-- The current value of a register or window word, a latched one's live. -/
def State.current (off : Nat) (s : State) : Word :=
  if absentOff s.fuse.part off then 0
  else if 0x200000 ≤ off then s.windowWord off
  else
    match s.live? off with
    | some w => w
    | none => if (regRow? off).isSome then s.dev.reg off else 0

/-- What a read of the word at an offset returns (R10, R488, R491). A latched register that is read before its group was
latched returns its reset value; that of a register "from MRAM" is what MRAM holds. -/
def State.readWord (off : Nat) (s : State) : Word :=
  if latchedReg off && !absentOff s.fuse.part off then
    match KMap.get? s.dev.latch off with
    | some w => w
    | none => if 0x160000 ≤ off ∧ off < 0x170000 then s.current off else porOf off
  else s.current off

/-- Whether BAR0 answers (Table 1.7). -/
def Dev.bar0 (d : Dev) : Bool := d.op.mainOn && d.host.link

/-- Whether an offset is a pop register of a spill queue, whose reads have meanings of their own. -/
def popReg (off : Nat) : Bool :=
  decide (0x130000 ≤ off) && decide (off < 0x131000) && (off % 0x40 == 0x18 || off % 0x40 == 0x1C)

/-- Whether an offset is an RC register. -/
def rcReg (off : Nat) : Bool := match regRow? off with | some r => r.rc | none => false

/-- A read of the first register of a latched group latches the others at the same instant. -/
def State.latchRead (off : Nat) (s : State) : State :=
  let v := s.readWord off
  let d := s.dev.emit (.readData off v)
  match latchOthers off with
  | none => { s with dev := d }
  | some os => { s with dev := { d with latch := os.foldl (fun m o => KMap.put m o (s.current o)) d.latch } }

/-- A read of a whole register: an RC register is cleared; the first register of a latched group latches the others. -/
def State.wholeRead (off : Nat) (s : State) : State :=
  let t := s.latchRead off
  if rcReg off && !absentOff s.fuse.part off then { t with dev := t.dev.setReg off 0 } else t

end Sys2Proof.Machine
end

