-- ==== Sys2Proof/Machine/SflVal.lean ====
section
/-! DEFINITION. Validation of a Safelight commit (R202, R521, Table 6.8): the checks on the rules, group headers, pool entries
and vector entries in use of a snapshot `t`. The first failing object is the lowest of the first table that fails, in the
order rules, groups, pool, vector; its reason is its lowest. -/

namespace Sys2Proof.Machine

/-- Reason 1 of a term: a reserved value, or a selector that its operand does not define. -/
def termReserved (x : Term) : Bool :=
  decide (11 < x.op) || x.cmp == 7 ||
    (match x.op with
    | 1 => decide (17 < x.selA)
    | 2 => decide (63 < x.selA)
    | 3 => decide (63 < x.selA) || decide (63 < x.selB)
    | 5 => decide (5 < x.selA)
    | 6 => decide (1 < x.selA)
    | 7 => decide (3 < x.selA)
    | _ => false)

/-- Reason 2 of a term: an index beyond its range or beyond the part. -/
def termIndex (fz : Fuse) (x : Term) : Bool :=
  match x.op with
  | 1 => decide (fz.part.streams ≤ x.idxA)
  | 2 => decide (fz.part.streams ≤ x.idxA)
  | 3 => decide (fz.part.streams ≤ x.idxA) || decide (fz.part.streams ≤ x.idxB)
  | 4 => decide (fz.part.streams ≤ x.idxA)
  | 5 => decide (256 ≤ x.idxA)
  | 6 => decide (256 ≤ x.idxA) || decide (256 ≤ x.idxB)
  | 7 => decide (fz.part.channels ≤ x.idxA)
  | 8 => decide (7 < x.idxA)
  | 9 => decide (63 < x.idxA)
  | 11 => decide (511 < x.idxA)
  | _ => false

/-- Reason 3 of a term: the rule it names. -/
def termRule (t : SMap) (i : Nat) (x : Term) : Bool :=
  x.op == 10 && (decide (i ≤ x.idxA) || !rEn t x.idxA || rRate t x.idxA != rRate t i)

/-- Reason 5 of a term: its threshold and hysteresis. -/
def termValue (x : Term) : Bool := !F32.isFin x.thresh || !F32.isFin x.hyst || F32.lt x.hyst 0

/-- Reason 7 of a term: a group that is not in use. -/
def termGroup (t : SMap) (x : Term) : Bool :=
  ((x.op == 5 || x.op == 6) && !(grpW t x.idxA 0).bit 0) || (x.op == 6 && !(grpW t x.idxB 0).bit 0)

/-- Reason 8 of term `n` of a rule: reserved bits. -/
def termBits (t : SMap) (i n : Nat) : Bool :=
  hasBits (rW t i (3 + 4 * n)) 0xE0000080 || hasBits (rW t i (4 + 4 * n)) 0xE000FF00

/-- The reason for which a rule fails. -/
def ruleBad (fz : Fuse) (t : SMap) (i : Nat) : Option Nat :=
  let ts := usedTerms t i
  firstBad
    [(rCombine t i == 3 || rMissing t i == 3 || decide (11 < rRate t i) || ts.any (fun p => termReserved p.2), 1),
     (ts.any (fun p => termIndex fz p.2), 2),
     (ts.any (fun p => termRule t i p.2), 3),
     ((termOf t i 0).op == 0 || (rCombine t i == 2 && decide (ts.length < 3)), 4),
     (ts.any (fun p => termValue p.2), 5),
     (ts.any (fun p => termGroup t p.2), 7),
     (hasBits (rW t i 0) 0xFC00 || hasBits (rW t i 1) 0xFF0000F0 || rW t i 2 != 0 || ts.any (fun p => termBits t i p.1), 8)]

/-- Enabled groups of a table. -/
def sflGroups (t : SMap) : List Nat := (List.range 256).filter (fun g => (grpW t g 0).bit 0)

/-- The reason for which a group header fails. -/
def groupBad (fz : Fuse) (t : SMap) (g : Nat) : Option Nat :=
  let w1 := grpW t g 1
  firstBad
    [(decide (fz.part.streams ≤ (grpW t g 2).field 0 13), 2),
     (!(grpW t g 0).bit 1 && (decide (16384 < w1.field 0 14 + w1.field 16 11) || decide (1024 < w1.field 16 11)), 6),
     (hasBits (grpW t g 0) 0xFFFF80F8 || hasBits w1 0xF800C000 || hasBits (grpW t g 2) 0xFFF80000 || grpW t g 3 != 0, 8)]

/-- Pool entries in use: those that the range of an enabled static group covers, ascending. -/
def poolUsed (t : SMap) : List Nat :=
  sortBy (fun a b => decide (a ≤ b)) (((sflGroups t).filter (fun g => !(grpW t g 0).bit 1)).flatMap (fun g =>
    (List.range ((grpW t g 1).field 16 11)).map (fun j => (grpW t g 1).field 0 14 + j)))

/-- The reason for which a pool entry fails. -/
def grpPoolBad (fz : Fuse) (t : SMap) (k : Nat) : Option Nat :=
  let w := SMap.get zeroW t (0x304000 + 4 * k)
  firstBad [(decide (fz.part.streams ≤ w.field 0 13), 2), (hasBits w 0xFFF80000, 8)]

/-- Vector entries of a table with `ASSIGNED` or `PIN`, ascending. -/
def vecUsed (t : SMap) : List Nat :=
  (t.flatMap (fun p => if 0x302000 ≤ p.1 ∧ p.1 < 0x304000 then [(p.1 - 0x302000) / 2, (p.1 - 0x302000) / 2 + 1] else [])).filter
    (fun i => (vecEntry t i).testBit 8 || (vecEntry t i).testBit 9)

/-- The reason for which a vector entry fails. -/
def vecBad (t : SMap) (i : Nat) : Option Nat := firstBad [(decide (1024 ≤ vecEntry t i), 8)]

/-- Validate a snapshot: the first failing object with its reason. -/
def sflValidate (fz : Fuse) (t : SMap) : Option (Nat × Nat) :=
  (firstObj 0 (rulesIn t) (ruleBad fz t)).or
    ((firstObj 0x1000 (sflGroups t) (groupBad fz t)).or
      ((firstObj 0x2000 (poolUsed t) (grpPoolBad fz t)).or
        (firstObj 0x8000 ((vecUsed t).filter (fun i => decide (i < 4 * fz.part.signals))) (vecBad t))))

end Sys2Proof.Machine
end

