-- ==== Sys2Proof/Machine/Sfl.lean ====
section
/-! DEFINITION. The meanings of Safelight's commands (06_safelight_alarms.md). -/

namespace Sys2Proof.Machine

/-! ### Passes and local operands (R190, R191, R208) -/

/-- `SAFELIGHT_PASS`: the pass at the head of the queue runs. `faults` gives the rules whose result lane B has wrong, `reads`
the errors met in the cells it reads, each with its slot. -/
def execSafelightPass (faults : List (Nat × Nat)) (reads : List (Nat × CellFault)) (s : State) : Out :=
  s.onDev (fun d => if d.op.alarm && !d.sfl.passes.isEmpty then d.withReads s.fuse reads (Dev.runPass faults) else d)

/-- `LOCAL_RULE_SLOT_END`: the slot under way for local rules ends with the slot time of the next. -/
def execLocalRuleSlotEnd (rc k : Nat) (s : State) : Out :=
  s.onDev (fun d =>
    if d.op.alarm && d.sfl.sets.any (fun x => x.loc && x.rc == rc && x.k == k)
        && decide (((slotNs (rateOf rc) (k + 1) : Nat) : Int) ≤ d.tick) then d.localSlotEnd rc k
    else d)

/-- `TEV_OPERAND_EXPIRY`: the `TEV` operand of a comparator falls (Table 6.2). -/
def execTevOperandExpiry (n : Nat) (s : State) : Out :=
  s.onDev (fun d => match KMap.get? d.sfl.tevHold n with
    | some t => if t ≤ d.raw then ({ d with sfl := { d.sfl with tevHold := KMap.del d.sfl.tevHold n } }).localChange else d
    | none => d)

/-! ### Alarm messages (R213) -/

/-- The last message is sent again, and the next interval doubles up to T0. -/
def Dev.retransmit (d : Dev) : Dev :=
  match d.sfl.msg with
  | none => d
  | some m =>
    if decide (d.raw < d.sfl.nextTx) || !(d.op.alarm || d.op == .config) then d
    else
      let t0 := clampNat 100 60000 (d.fld Reg.SFL_GOOSE 16 16) * 1000000
      let gap := min (2 * d.sfl.interval) t0
      let sq := d.reg Reg.SFL_GOOSE_SQNUM + 1
      let d := ({ d with sfl := { d.sfl with interval := gap, nextTx := d.raw + gap } }).setReg Reg.SFL_GOOSE_SQNUM sq
      d.sendAlarm (d.reg Reg.SFL_GOOSE_STNUM) sq (2 * gap / 1000000) (d.sfl.msgAt : Nat) m

/-- `GOOSE_RETRANSMIT`. -/
def execGooseRetransmit (s : State) : Out := s.onDev Dev.retransmit

/-! ### Alarm outputs (R215, R216) -/

/-- `ALM_PULSE_END`. -/
def execAlmPulseEnd (n : Nat) (s : State) : Out :=
  s.onDev (fun d => match (d.alm n).pulseEnd with
    | some t => if t ≤ d.raw then (d.setAlm n { d.alm n with pulseEnd := none }).refreshAlm n else d
    | none => d)

/-- A turn-on has failed: the pad is released, and the output retries or is disabled. -/
def Dev.turnOnFails (n : Nat) (d : Dev) : Dev :=
  let x := d.alm n
  let st := Reg.SFL_ALM_STATUS n
  let fails := x.fails + 1
  let d := (d.setAlm n { x with turnOn := none, retryAt := if fails < 3 then some (d.raw + 10000000) else none
                                fails := fails, episode := true }).emit (.alarmPad n false)
  let d := ((d.setField st 3 1 1).setField st 8 8 (min 255 (d.fld st 8 8 + 1))).raise Reg.SFL_EVT 4
  if fails < 3 then d else (d.setField st 4 1 1).endEpisode n

/-- `ALM_TURN_ON_TIMEOUT`: 50 µJ or 1 ms passed before the pad fell below 0.8 V. -/
def execAlmTurnOnTimeout (n : Nat) (s : State) : Out :=
  s.onDev (fun d => if (d.alm n).turnOn.isSome then d.turnOnFails n else d)

/-- `ALM_TURN_ON_SUCCESS`: the pad has fallen below 0.8 V, and an episode ends. -/
def execAlmTurnOnSuccess (n : Nat) (s : State) : Out :=
  s.onDev (fun d =>
    if (d.alm n).turnOn.isSome then
      ((d.setAlm n { d.alm n with turnOn := none }).setField (Reg.SFL_ALM_STATUS n) 1 1 1).endEpisode n
    else d)

/-- `ALM_RETRY`: 10 ms after a failed turn-on. -/
def execAlmRetry (n : Nat) (s : State) : Out :=
  s.onDev (fun d => match (d.alm n).retryAt with
    | some t => if decide (t ≤ d.raw) && (d.alm n).drive then d.turnOn n else d
    | none => d)

/-! ### Lanes (R219, R220, Table 6.13) -/

/-- A lane is in service. -/
def Dev.laneIn (lane : Nat) (d : Dev) : Bool := if lane = 0 then d.sfl.laneA else lane == 1 && d.sfl.laneB

/-- A lane fault is reported: status, event, record and notice. -/
def Dev.laneReport (lane cause : Nat) (d : Dev) : Dev :=
  let d := ((d.setField Reg.SFL_STATUS 5 3 cause).setField Reg.SFL_STATUS 8 1 lane).raise Reg.SFL_EVT 2
  let d := d.post 0x12 [BitVec.ofNat 32 (lane + cause * 256), d.reg Reg.SFL_MISMATCH, 0, 0]
  d.notice 0xE2 [BitVec.ofNat 32 (lane + cause * 256)]

/-- A lane goes out of service. -/
def Dev.laneOff (lane : Nat) (d : Dev) : Dev :=
  let d := { d with sfl := if lane = 0 then { d.sfl with laneA := false } else { d.sfl with laneB := false } }
  (d.setField Reg.SFL_STATUS (2 + lane) 1 0).setField Reg.SFL_STATUS 4 1 0

/-- A lane fails while the other serves on. -/
def Dev.laneFail (lane cause : Nat) (d : Dev) : Dev := (((d.laneOff lane).unitDown 1).laneReport lane cause).refreshAlms

/-- The alarm path fails: SAFE (causes 3 and 6). -/
def Dev.alarmPathFails (lanes : List Nat) (cause : Nat) (d : Dev) : Dev :=
  let d := d.unrecoverable 5
  lanes.foldl (fun (e : Dev) l => ((e.laneOff l).unitFailed 1).laneReport l cause) d

/-- The states in which lanes test themselves. -/
def Dev.lanesLive (d : Dev) : Bool := d.op == .config || d.op.alarm

/-- A known-answer test of a lane ends: the second failure in a row takes it out of service, or with the other lane out ends
in SAFE. -/
def Dev.laneKat (lane : Nat) (pass : Bool) (d : Dev) : Dev :=
  if !d.laneIn lane || !d.lanesLive then d
  else if pass then { d with sfl := { d.sfl with katRun := KMap.del d.sfl.katRun lane } }
  else
    let n := KMap.getD d.sfl.katRun lane 0 + 1
    let d := { d with sfl := { d.sfl with katRun := KMap.put d.sfl.katRun lane n } }
    if n < 2 then d
    else if d.laneIn (1 - lane) then d.laneFail lane 1
    else d.alarmPathFails [lane] 6

/-- `SFL_LANE_KAT`. -/
def execSflLaneKat (lane : Nat) (pass : Bool) (s : State) : Out := s.onDev (Dev.laneKat lane pass)

/-- Both lanes passed after a disagreement: a transient; the third within 60 s starts the self-tests. -/
def Dev.transient (d : Dev) : Dev :=
  let ts := d.raw :: d.sfl.trans.filter (fun t => decide (d.raw < t + 60000000000))
  let d := { d with sfl := { d.sfl with trans := ts } }
  if ts.length < 3 then d
  else ({ d with sfl := { d.sfl with trans := [], testing := [0, 1] } }).setField Reg.SFL_STATUS 4 1 0

/-- The known-answer tests after a disagreement end. -/
def Dev.disagreeKat (aOk bOk : Bool) (d : Dev) : Dev :=
  if d.sfl.disagree.isNone || !d.lanesLive then d
  else
    let d := { d with sfl := { d.sfl with disagree := none } }
    match aOk, bOk with
    | true, true => d.transient
    | false, true => d.laneFail 0 2
    | true, false => d.laneFail 1 2
    | false, false => d.alarmPathFails [0, 1] 3

/-- `SFL_DISAGREE_KAT`. -/
def execSflDisagreeKat (aOk bOk : Bool) (s : State) : Out := s.onDev (Dev.disagreeKat aOk bOk)

/-- The self-tests of both lanes, one after the other, end. -/
def Dev.laneSelfTest (aOk bOk : Bool) (d : Dev) : Dev :=
  if d.sfl.testing.isEmpty || !d.lanesLive then d
  else
    let d := { d with sfl := { d.sfl with testing := [] } }
    match aOk, bOk with
    | true, true => d.setField Reg.SFL_STATUS 4 1 (if d.laneOut then 0 else 1)
    | false, true => d.laneFail 0 4
    | true, false => d.laneFail 1 4
    | false, false => d.alarmPathFails [0, 1] 4

/-- `SFL_LANE_SELF_TEST`. -/
def execSflLaneSelfTest (aOk bOk : Bool) (s : State) : Out := s.onDev (Dev.laneSelfTest aOk bOk)

/-- `SFL_LANE_TEST` once its checks 2 to 4 hold (R222): refused while a lane is out of service. -/
def Dev.laneTestCmd (h : CmdHdr) (f : Dev → Dev) (d : Dev) : Dev :=
  if d.laneOut then d.refuse h 0x44 6 1 0xFFFF [] else (f d).complete h 0x44 0 []

/-- `SFL_LANE_TEST` of test 0: the known-answer test on both lanes. -/
def execSflLaneTest (h : CmdHdr) (aOk bOk : Bool) (s : State) : Out :=
  s.onDev (Dev.cmd h 0x44 [] true [.run, .degraded] (Dev.laneTestCmd h (fun d => (d.laneKat 0 aOk).laneKat 1 bOk)))

/-- `SFL_LANE_TEST` of test 1: lane B's first result of the next pass is inverted. -/
def execSflLaneTestInvert (h : CmdHdr) (s : State) : Out :=
  s.onDev (Dev.cmd h 0x44 [] true [.run, .degraded]
    (Dev.laneTestCmd h (fun d => { d with sfl := { d.sfl with invert := true } })))

/-! ### The assignment vector (R27, R201, R204, R245) -/

/-- A table with another vector entry. -/
def setVec (i v : Nat) (t : SMap) : SMap :=
  let off := 0x302000 + i / 2 * 4
  SMap.put zeroW t off ((SMap.get zeroW t off).setField (16 * (i % 2)) 16 v)

/-- A vector entry as a result gives it: its group, or no assignment. -/
def vecGiven (old : Nat) (g : Option Nat) : Nat :=
  match g with
  | some g => old / 512 % 2 * 512 + 256 + g % 256
  | none => old / 512 % 2 * 512 + old % 256

/-- What a result makes of the vector of `t`: entries with `PIN`, and those that `keep` names, stay; entries of signals that
are no coherency signals are not assigned. -/
def vecUpdate (entries : List (Nat × Option Nat)) (coh : List Nat) (keep : Nat → Bool) (t : SMap) : SMap :=
  let stale := ((assigned t).map (fun p => p.1)).filter (fun i => !coh.contains i)
  (entries ++ stale.map (fun i => (i, none))).foldl (fun (m : SMap) (p : Nat × Option Nat) =>
    let e := vecEntry t p.1
    if e.testBit 9 || keep p.1 then m else setVec p.1 (vecGiven e p.2) m) t

/-- Signals left out of dynamic groups with more than 1,024. -/
def vecOver (t : SMap) : Nat :=
  ((List.range 256).map (fun g => ((assigned t).filter (fun p => p.2 == g)).length - 1024)).sum

/-- The least spacing of two instants in ns (R202). -/
def Dev.sflSpacing (d : Dev) : Int := ((d.d1 + 1000000 : Nat) : Int)

/-- Whether an update at an instant breaks the spacing of R202. -/
def Dev.tooNear (inst : Int) (d : Dev) : Bool :=
  (d.sfl.inst != inst && decide (inst < gridUp (d.sfl.inst + d.sflSpacing))) ||
    (match d.sfl.pend with
    | some p => !p.validating && p.inst != inst && decide (p.inst < gridUp (inst + d.sflSpacing))
    | none => false)

/-- The Densitometer's update is applied at its instant. -/
def Dev.vecApply (v : CohResult) (inst : Int) (d : Dev) : Dev :=
  let same := d.sfl.inst == inst
  let prev := if same then d.sfl.prevTab else ruleWords d.act
  let keep (i : Nat) : Bool := same && vecEntry d.act i != vecEntry prev i
  let act := vecUpdate v.entries (sigsWith d.act 2) keep d.act
  let d := { d with act := act, sfl := { d.sfl with prevTab := prev, inst := inst }, dns := { d.dns with vec := none } }
  let d := (d.putInstant Reg.SFL_LAST_SEC_LO inst).bump Reg.SFL_DYN_OVER (vecOver act)
  let d := ((List.range 256).filter (fun g => (grpW act g 0).bit 0 && (grpW act g 0).bit 1)).foldl (fun (e : Dev) g =>
    e.setActField (0x300000 + 32 * g + 28) 0 16 ((grpW e.act g 7).field 0 16 + 1)) d
  d.refreshGroups

/-- `DNS_VECTOR_UPDATE`: at the start of the TAI second after the result's, or a second later when it comes too near another
commit. -/
def Dev.vectorUpdate (d : Dev) : Dev :=
  match d.dns.vec with
  | none => d
  | some v =>
    let inst : Int := ((v.sec + 1 : Nat) : Int) * 1000000000
    if !d.op.running || decide (d.tick < inst) then d
    else if d.tooNear inst then
      ({ d with dns := { d.dns with vec := some { v with sec := v.sec + 1 } } }).bump Reg.SFL_DYN_DEFER 1
    else d.vecApply v inst

/-- `DNS_VECTOR_UPDATE`. -/
def execDnsVectorUpdate (s : State) : Out := s.onDev Dev.vectorUpdate

/-! ### Commits (R202, R203) -/

/-- The earliest legal instant of a validation that ends now. -/
def Dev.sflEarliest (d : Dev) : Int := max d.earliest (gridUp (d.sfl.inst + d.sflSpacing))

/-- `SFL_COMMIT` once its checks 2 to 4 hold. -/
def Dev.sflFetch (h : CmdHdr) (p : CommitArgs) (d : Dev) : Dev :=
  if decide (1 < p.mode) || (p.mode == 1 && d.op != .config && d.badInstant d.sflEarliest (commitInstant p)) then
    d.complete h 0x40 2 (failWords 0xFFFF 10)
  else if d.sfl.pend.isSome then d.refuse h 0x40 6 1 0xFFFF []
  else
    let x : PendCommit := { hdr := h, args := p, snap := ruleWords d.stg, validating := true, inst := 0, homes := [] }
    ({ d with sfl := { d.sfl with pend := some x } }).setField Reg.SFL_STATUS 0 2 3

/-- `SFL_COMMIT`. -/
def execSflCommit (h : CmdHdr) (p : CommitArgs) (s : State) : Out :=
  s.onDev (Dev.cmd h 0x40 [] true legalCRD (Dev.sflFetch h p))

/-- Offsets of a range in which two tables differ, each `size` bytes counted once. -/
def diffs (lo hi size : Nat) (a b : SMap) : List Nat :=
  (((a ++ b).filter (fun p => decide (lo ≤ p.1) && decide (p.1 < hi) && SMap.get zeroW a p.1 != SMap.get zeroW b p.1)).map
    (fun p => (p.1 - lo) / size)).eraseDups

/-- Rules that differ between two tables. -/
def changedRules (old new : SMap) : List Nat := diffs 0x2C0000 0x300000 64 old new

/-- Vector entries that differ between two tables. -/
def changedVec (old new : SMap) : List Nat :=
  (diffs 0x302000 0x304000 4 old new).flatMap (fun w => [2 * w, 2 * w + 1].filter (fun i => vecEntry old i != vecEntry new i))

/-- The vector after a host commit: the entries it changes against `base` take the host's value (R204). -/
def vecMerge (snap base old new : SMap) : SMap :=
  (changedVec old snap).foldl (fun (m : SMap) i => if vecEntry snap i = vecEntry base i then setVec i (vecEntry old i) m else m) new

/-- What a commit reports of the rules it has ended: `live` are those that were ASSERTED or INDETERMINATE. -/
def Dev.endedNote (old : SMap) (live : List Nat) (inst : Int) (d : Dev) : Dev :=
  if !d.op.alarm then d
  else
    let f := d.baseFlags ||| 32 ||| (if d.tbu.sync = 2 then 0 else 8)
    let d := if live.any (fun i => rGoose old i) then d.newAlarm (d.alarmMsg inst d.msgTq 0xFF d.tbu.epoch f []) else d
    let d := if live.any (fun i => rHost old i) then d.hostAlarm 0xFFFF live.length 0xFF f inst d.tbu.epoch else d
    d.propagate d.brzRules f

/-- The validated commit is applied at its instant. -/
def Dev.sflApply (p : PendCommit) (inst : Int) (d : Dev) : Dev :=
  let old := d.act
  let same := d.sfl.inst == inst
  let base := if same then d.sfl.prevTab else ruleWords old
  let new := vecMerge p.snap base old (copyWords (cfgWord ruleTables) p.snap old)
  let rules := changedRules (ruleWords old) (ruleWords new)
  let ended := rules.filter (fun i => rEn old i && !rEn new i)
  let live := ended.filter (fun i => (d.rule i).st != 0)
  let marked := (d.sfl.changed ++ rules.filter (fun i => rEn new i)).eraseDups.filter (fun i => !ended.contains i)
  let n := rules.length + (diffs 0x300000 0x302000 32 (ruleWords old) (ruleWords new)).length + (changedVec old new).length
    + (diffs 0x304000 0x314000 4 old new).length
  let d := d.sflUnpend
  let d := { d with act := new, sfl := { d.sfl with prevTab := base, inst := inst, changed := marked } }
  let d := (d.putInstant Reg.SFL_LAST_SEC_LO inst).bump Reg.SFL_DYN_OVER (vecOver new)
  let d := live.foldl (fun (e : Dev) i => e.setRule i { e.rule i with st := 0 }) d
  let d := ((d.refreshGroups.endedNote old live inst).refreshAlms).twinNote
  d.complete p.hdr 0x40 0 (appliedWords inst n 0)

/-- Validation ends: a failure completes the commit; otherwise it applies at once in CONFIG, or its instant is fixed. -/
def Dev.sflValidated (fz : Fuse) (p : PendCommit) (d : Dev) : Dev :=
  match sflValidate fz p.snap with
  | some (obj, reason) => d.sflUnpend.complete p.hdr 0x40 2 (failWords obj reason)
  | none =>
    if d.op = .config then d.sflApply p d.tick
    else
      let inst := if p.args.mode = 1 then commitInstant p.args else d.sflEarliest
      if d.badInstant d.sflEarliest inst then d.sflUnpend.complete p.hdr 0x40 2 (failWords 0xFFFF 10)
      else
        let p := { p with validating := false, inst := inst }
        (({ d with sfl := { d.sfl with pend := some p } }).setField Reg.SFL_STATUS 0 2 1).putInstant Reg.SFL_PEND_SEC_LO inst

/-- `SFL_VALIDATION_END`. -/
def execSflValidationEnd (s : State) : Out :=
  s.onDev (fun d => match d.sfl.pend with
    | some p => if p.validating && legalCRD.contains d.op then d.sflValidated s.fuse p else d
    | none => d)

/-- `SFL_COMMIT_APPLY`: derived time has reached the instant of the pending commit. -/
def execSflCommitApply (s : State) : Out :=
  s.onDev (fun d => match d.sfl.pend with
    | some p => if !p.validating && decide (p.inst ≤ d.tick) && legalCRD.contains d.op then d.sflApply p p.inst else d
    | none => d)

/-- `SFL_CANCEL` once its checks 2 to 4 hold. -/
def Dev.sflCancel1 (h : CmdHdr) (d : Dev) : Dev :=
  if d.sfl.pend.isNone then d.refuse h 0x41 6 1 0xFFFF [] else d.sflWithdraw.complete h 0x41 0 []

/-- `SFL_CANCEL`. -/
def execSflCancel (h : CmdHdr) (s : State) : Out := s.onDev (Dev.cmd h 0x41 [] true legalCRD (Dev.sflCancel1 h))

/-- `SFL_RELOAD` once its checks 2 to 4 hold. -/
def Dev.sflReload1 (h : CmdHdr) (d : Dev) : Dev :=
  if d.sfl.pend.isSome then d.refuse h 0x42 6 1 0xFFFF []
  else ({ d with stg := copyWords (cfgWord ruleTables) d.act d.stg }).complete h 0x42 0 []

/-- `SFL_RELOAD`. -/
def execSflReload (h : CmdHdr) (s : State) : Out := s.onDev (Dev.cmd h 0x42 [] true legalCRD (Dev.sflReload1 h))

/-! ### Clearing (R221) -/

/-- Rules that `SFL_CLEAR` may clear: ASSERTED with `LATCH` = 1. -/
def Dev.clearable (i : Nat) (d : Dev) : Bool := (d.rule i).st == 1 && rLatch d.act i

/-- Clear latched rules; their pass produces a message and a record (R212, R217). -/
def Dev.clearRulesOf (is : List Nat) (d : Dev) : Dev :=
  if is.isEmpty then d
  else
    let d := is.foldl (fun (e : Dev) i => e.setRule i { e.rule i with st := 0, acount := 0, dcount := 0 }) d
    let f := d.baseFlags ||| (if d.tbu.sync = 2 then 0 else 8)
    let d := d.refreshAlms
    let d := if is.any (fun i => rGoose d.act i) then d.newAlarm (d.alarmMsg d.tick d.msgTq 0xFF d.tbu.epoch f []) else d
    let d := if is.any (fun i => rHost d.act i) then d.hostAlarm 0xFFFF is.length 0xFF f d.tick d.tbu.epoch else d
    (d.propagate d.brzRules f).localChange

/-- `SFL_CLEAR` of one rule once its checks 2 to 4 hold. -/
def Dev.clearOne (h : CmdHdr) (rule : Nat) (d : Dev) : Dev :=
  if 4095 < rule then d.complete h 0x43 2 []
  else if !d.clearable rule then d.refuse h 0x43 6 1 0xFFFF []
  else (d.clearRulesOf [rule]).complete h 0x43 0 []

/-- `SFL_CLEAR` of one rule. -/
def execSflClear (h : CmdHdr) (rule : Nat) (s : State) : Out := s.onDev (Dev.cmd h 0x43 [] true legalCRD (Dev.clearOne h rule))

/-- `SFL_CLEAR` of every latched rule. -/
def execSflClearLatched (h : CmdHdr) (s : State) : Out :=
  s.onDev (Dev.cmd h 0x43 [] true legalCRD (fun d =>
    (d.clearRulesOf (d.sfl.rules.keys.filter (fun i => d.clearable i))).complete h 0x43 0 []))

/-- `SFL_CLEAR` of an alarm output once its checks 2 to 4 hold: its latch and its faults are cleared, and an output that was
disabled is driven again. -/
def Dev.clearOut (h : CmdHdr) (n : Nat) (d : Dev) : Dev :=
  if 7 < n then d.complete h 0x43 2 []
  else
    let st := Reg.SFL_ALM_STATUS n
    let was := d.rbit st 4
    let d := d.endEpisode n
    let d := ((d.setAlm n { d.alm n with latched := false }).setField st 3 2 0).refreshAlm n
    let d := if was && (d.alm n).drive && (d.alm n).turnOn.isNone then d.turnOn n else d
    d.complete h 0x43 0 []

/-- `SFL_CLEAR` of an alarm output. -/
def execSflClearOutput (h : CmdHdr) (out : Nat) (s : State) : Out :=
  s.onDev (Dev.cmd h 0x43 [] true legalCRD (Dev.clearOut h out))

/-! ### Snapshot (Table 6.15) -/

/-- Capture both bitmaps, stNum and the raw count. -/
def Dev.sflSnapNow (d : Dev) : Dev :=
  let d := (List.range 128).foldl (fun (e : Dev) n =>
    (e.setReg (Reg.SFL_SNAP_ASSERT n) (e.reg (Reg.SFL_ASSERT n))).setReg (Reg.SFL_SNAP_INDET n) (e.reg (Reg.SFL_INDET n))) d
  ((d.setReg Reg.SFL_SNAP_STNUM (d.reg Reg.SFL_GOOSE_STNUM)).setReg Reg.SFL_SNAP_RAW_LO (lo32 d.raw)).setReg Reg.SFL_SNAP_RAW_HI (hi32 d.raw)

/-- `SFL_SNAP`: a write of 1 to bit 0. -/
def execSflSnap (v : Word) (s : State) : Out := s.onDev (fun d => if d.writable && v.bit 0 then d.sflSnapNow else d)

end Sys2Proof.Machine
end

