-- ==== Sys2Proof/Machine/RegWrite.lean ====
section
/-! DEFINITION. What a write of BAR0 does (R7, R11 to R14, R88, R116, R118, R138, R194, R202, R430, R439, R492 to R494): the
states in which writes are accepted, staged table words, and registers whose write does more than store. -/

namespace Sys2Proof.Machine

/-! ### Acceptance (Table 16.4) -/

/-- Whether an offset lies in the HST or SPQ block. -/
def hostBlock (off : Nat) : Bool := decide (0x120000 ≤ off) && decide (off < 0x140000)

/-- Whether a write to an offset is accepted in the operating state. -/
def Dev.accepts (off : Nat) (d : Dev) : Bool :=
  d.host.link && (match d.op with
    | .boot => hostBlock off
    | .safe => hostBlock off || [Reg.PLG_CTRL, Reg.PLG_CURSOR_0, Reg.PLG_CURSOR_1, Reg.PLG_CURSOR_2, Reg.PLG_NEXT, Reg.GLB_STATE_EVT].contains off
    | .config => true | .run => true | .degraded => true
    | .off => false | .backup => false | .holdup => false)

/-! ### Staged table words -/

/-- The defined bits of the configuration words of a table (R12), by the first offset of the table: one mask for each word of
an entry, and the last mask for the words after. -/
def wordMasks : List (Nat × List Nat) :=
  [(0x200000, [0x03FFFF3F, 0xFFFFFFFF, 0xFFFFFFFF, 0xFFFFFFFF, 0xFFFFFFFF, 0xFFFFFFFF, 0xFFFFFFFF, 0xFFFFFFFF, 0x7FFF0003,
      0xFFFFFFFF, 0xFF3F, 0xFFFFFFFF]),
   (0x280000, [0xFFFFFFFF]),
   (0x2A0000, [0x01FFFF3F, 0xFFFFFFFF]),
   (0x2C0000, [0xFFFF03FF, 0x00FFFF0F, 0, 0x1FFFFF7F, 0x1FFF00FF, 0xFFFFFFFF, 0xFFFFFFFF, 0x1FFFFF7F, 0x1FFF00FF, 0xFFFFFFFF,
      0xFFFFFFFF, 0x1FFFFF7F, 0x1FFF00FF, 0xFFFFFFFF, 0xFFFFFFFF, 0xFFFFFFFF]),
   (0x300000, [0x7F07, 0x07FF3FFF, 0x0007FFFF, 0]),
   (0x302000, [0x03FF03FF]),
   (0x304000, [0x0007FFFF]),
   (0x320000, [0x0FFFFFFF, 0xFFFFFFFF]),
   (0x328000, [0xFFFFFF0F, 0xFFFFFFFF, 0xFFFFFFFF, 0xFFFFFFFF, 0xFFFF, 0xFFFFFFFF]),
   (0x32A000, [0xFF1, 0x0007FFFF, 0x0007FFFF, 0xFFFFFFFF, 0xFFFFFFFF]),
   (0x340000, [0xFFFF0F3F, 0x1FFFF, 0xFFFFF, 0xFFFF3FFF, 0x0FFF0FFF, 0x3FFF1FFF, 0x3FFF1FFF, 0xFF07FF0F, 0xFFFF, 0, 0, 0, 0, 0, 0,
      0xFFFFFFFF]),
   (0x340400, [0x00FF1FFF, 0x00FF07FF, 0xFFFFFFFF, 0xFFFFFFFF, 0xFFFFFFFF, 0xFFFFFFFF, 0, 0xFFFFFFFF]),
   (0x341000, [0xFFFF]),
   (0x342000, [0x000FFFFF, 0xFFFF]),
   (0x348000, [0xFFFFFFFF]),
   (0x360000, [0x1FFFF, 0xFFFFFFFF, 0xFFFFFFFF, 0xFFFFFFFF, 0xFFFFFFFF, 0xFFFFFFFF, 0xFFFFFFFF, 0x00FF0FFF, 0x03FFFFFF, 0x00FF0FFF,
      0xFFFFFFFF]),
   (0x364000, [0x3FFFFFFF, 0x3F]),
   (0x380000, [0xFFFFFF07, 0xFFFFFFFF, 0xFFFFFFFF, 0xFFFFFFFF, 0])]

/-- The defined bits of a configuration word of some tables; none where the offset is no such word. -/
def cfgMask (ts : List (Nat × Nat × Nat × Nat)) (off : Nat) : Option Nat :=
  match ts.find? (fun r => decide (r.1 ≤ off) && decide (off < r.2.1)) with
  | none => none
  | some r =>
    let w := (off - r.1) / 4 % r.2.2.1
    if r.2.2.2 ≤ w then none
    else match wordMasks.find? (fun m => m.1 == r.1) with
      | some m => some ((m.2[w]?).getD ((m.2.getLast?).getD 0))
      | none => none

/-- A write to a table window: a configuration word of the staged view, unless a commit of its tables is pending (R118, R202). -/
def Dev.writeWindow (p : Part) (off : Nat) (v : Word) (d : Dev) : Dev :=
  if partEnd p off ≤ off then d
  else
    match cfgMask viewTables off, cfgMask ruleTables off with
    | some m, _ =>
      if d.rbit Reg.STM_CTRL 0 then d
      else if d.stm.pend.isSome then d.bump Reg.STM_LOCKED_WR 1
      else d.setStg off (v &&& BitVec.ofNat 32 m)
    | none, some m =>
      if d.rbit Reg.SFL_CTRL 0 then d
      else if d.sfl.pend.isSome then d.bump Reg.SFL_LOCKED_WR 1
      else d.setStg off (v &&& BitVec.ofNat 32 m)
    | none, none => d

/-! ### Registers whose write does more than store -/

/-- `NETn_CTRL`: `MODE` in CONFIG only, with the latencies of Table 2.8; a port that goes off, or changes its mode, loses its
link, and preemption is verified again when it is asked for (R88, R100). -/
def Dev.writeNetCtrl (n : Nat) (v : Word) (d : Dev) : Dev :=
  let c := Reg.NET_CTRL n
  let old := d.reg c
  let v := if d.op = .config then v else v.setBit 1 (old.bit 1)
  let mode := v.bit 1 != old.bit 1
  let d := if mode || (old.bit 0 && !v.bit 0) then d.linkIsDown n else d
  let d := d.hostSet c v
  let d := if !mode then d
    else (d.setReg (Reg.TBU_PORT_TXLAT n) (if v.bit 1 then 65536 else 9830)).setReg (Reg.TBU_PORT_RXLAT n) (if v.bit 1 then 79872 else 16384)
  if v.bit 2 != old.bit 2 then d.verifyStart n else d

/-- `TBU_PORTn_PTP`: the port instance starts or stops with `EN`; `PORT_STATE` is the device's. -/
def Dev.writePtp (n : Nat) (v : Word) (d : Dev) : Dev :=
  let c := Reg.TBU_PORT_PTP n
  let was := d.rbit c 0
  let d := d.hostSet c v
  if was == v.bit 0 then d else d.ptpEnable n (v.bit 0)

/-- `EAS_CTRL`: `SPILL_EN` = 1 is ignored when the region would lie beyond installed DRAM (R138). -/
def Dev.writeEasCtrl (p : Part) (v : Word) (d : Dev) : Dev :=
  let fits := decide (d.fld Reg.EAS_SPILL_BASE 0 13 + 12 * p.tiles ≤ d.fld Reg.MEM_CFG 0 13)
  d.hostSet Reg.EAS_CTRL (if v.bit 3 && !fits then v.setBit 3 d.spillEn else v)

/-- `HST_RINGn_CTRL`: while the ring is enabled, `LOG2_SIZE` and `CQ` stay (R367); a change of `EN` has commands of its own. -/
def Dev.writeRingCtrl (n : Nat) (v : Word) (d : Dev) : Dev :=
  let c := Reg.HST_RING_CTRL n
  let old := d.reg c
  if old.bit 0 != v.bit 0 then d
  else if old.bit 0 then d.hostSet c ((v.setField 1 4 (old.field 1 4)).setField 8 7 (old.field 8 7))
  else d.hostSet c v

/-- `SPQq_CTRL`: writes are ignored while `EN` = 1 (R393); a change of `EN` has commands of its own. -/
def Dev.writeSpqCtrl (q : Nat) (v : Word) (d : Dev) : Dev :=
  if d.rbit (Reg.SPQ_Q_CTRL q) 0 || v.bit 0 then d else d.hostSet (Reg.SPQ_Q_CTRL q) v

/-- Sources of the event vectors that hold W1C bits. -/
def evtReg (off : Nat) : Bool :=
  [Reg.GLB_STATE_EVT, Reg.EAS_FAULT_EVT, Reg.SFL_EVT, Reg.TBU_EVT, Reg.DNS_EVT, Reg.SHT_EVT, Reg.SWG_EVT, Reg.BRZ_EVT, Reg.FLG_EVT,
    Reg.HST_EVT].contains off || (decide (Reg.STM_CHG 0 ≤ off) && decide (off < Reg.STM_CHG 256))

/-- Vectors that an event register's bits raise. -/
def evtVectors (off : Nat) : List Nat :=
  ((List.range 32).map (fun b => evtVector off b)).eraseDups.filter (fun v => v != 255)

/-- A W1C write to an event register: each of its vectors that still has a source bit set sends again (R382). -/
def Dev.writeEvt (off : Nat) (v : Word) (d : Dev) : Dev :=
  let d := d.hostSet off v
  (evtVectors off).foldl (fun (e : Dev) n => if e.vecActive n then e.msix n else e) d

/-- The instance of a register family an offset names: `base + stride * k`, `k < count`. -/
def instOf (base stride count off : Nat) : Option Nat :=
  if base ≤ off ∧ (off - base) % stride = 0 ∧ (off - base) / stride < count then some ((off - base) / stride) else none

/-- Writes of the TBU, port and alignment blocks; none where a write only stores. -/
def Dev.writeA (p : Part) (off : Nat) (v : Word) (d : Dev) : Option Dev :=
  let tev (o : Nat) := instOf (0x30200 + o) 0x20 8 off
  if off = Reg.TBU_CTRL then some (d.writeTbuCtrl v)
  else if off = Reg.TBU_SNAP then some (if v.bit 0 then d.tbuSnapNow else d)
  else if off = Reg.TBU_RATE_LO then some (d.writeRate false v)
  else if off = Reg.TBU_RATE_HI then some (d.writeRate true v)
  else if off = Reg.TBU_UTC then some ((d.hostSet off v).setField off 11 1 1)
  else if off = Reg.EAS_CTRL then some (if d.op = .config then d.writeEasCtrl p v else d)
  else
    match instOf (Reg.NET_CTRL 0) 0x2000 4 off, instOf (Reg.TBU_PORT_PTP 0) 0x20 4 off, tev 0 with
    | some n, _, _ => some (d.writeNetCtrl n v)
    | _, some n, _ => some (d.writePtp n v)
    | _, _, some n => some (d.writeTev n v)
    | none, none, none =>
      match [4, 8, 12, 16, 20].findSome? tev with
      | some n => if d.rbit (Reg.TBU_TEV_CTRL n) 0 then some d else none
      | none => none

/-- Writes of the Safelight, host interface, spill queue and power blocks; none where a write only stores. -/
def Dev.writeB (off : Nat) (v : Word) (d : Dev) : Option Dev :=
  let ring (o : Nat) := instOf (0x121000 + o) 0x20 128 off
  let spq (o : Nat) := instOf (0x130000 + o) 0x40 64 off
  if off = Reg.SFL_SNAP then some (if v.bit 0 then d.sflSnapNow else d)
  else if off = Reg.SFL_SYSALM ∨ (instOf (Reg.SFL_ALM_CTRL 0) 0x10 8 off).isSome then some (d.hostSet off v).refreshAlms
  else if off = Reg.PWR_RES_CTRL ∨ off = Reg.PWR_RES_CAP ∨ off = Reg.PWR_VIN then some (d.hostSet off v).chargeNow.showRes
  else if off = Reg.HST_CTRL then
    some (if v.bit 0 then { d.setField off 0 1 1 with host := { d.host with polling := true, nextPoll := d.raw } }
      else { d.setField off 0 1 0 with host := { d.host with polling := false } })
  else if off = Reg.HST_KICK then
    some (if d.rbit Reg.HST_CTRL 0 && d.host.polling then { d with host := { d.host with kicked := true } } else d)
  else if off = Reg.HST_DB_LO ∨ off = Reg.HST_DB_HI then (if d.rbit Reg.HST_CTRL 0 then some d else none)
  else
    match ring 8, spq 0 with
    | some n, _ => some (d.writeRingCtrl n v)
    | none, some q => some (d.writeSpqCtrl q v)
    | none, none =>
      match [0, 4].findSome? ring, [4, 8, 12].findSome? spq with
      | some n, _ => if (d.ringCtrl n).bit 0 then some d else none
      | none, some q => if d.rbit (Reg.SPQ_Q_CTRL q) 0 then some d else none
      | none, none => none

/-- A write that only stores: some registers are written in CONFIG only, and `PLG_RATEc` of a code without a bucket is not
written (Table 15.6). -/
def Dev.writePlain (off : Nat) (v : Word) (d : Dev) : Dev :=
  match regRow? off with
  | none => d
  | some r =>
    if r.cfg && d.op != .config then d
    else if (match instOf (Reg.PLG_RATE 0) 4 256 off with | some c => plgRateDefault c == 0 | none => false) then d
    else if evtReg off then d.writeEvt off v
    else d.hostSet off v

/-- A write of a register of the main domain. -/
def Dev.writeReg (p : Part) (off : Nat) (v : Word) (d : Dev) : Dev :=
  match d.writeA p off v with
  | some e => e
  | none =>
    match d.writeB off v with
    | some e => e
    | none => d.writePlain off v

/-- A write of `TMP_SRC_EN` (R430, R439): in FIELD one that clears a bit is ignored. -/
def State.writeSrcEn (v : Word) (s : State) : State :=
  let new := v &&& 0xB
  if s.dev.rbit Reg.ACT_LOCK 1 || (s.nv.lc == .field && (s.bd.srcEn &&& ~~~new) != 0) then s
  else { s with bd := { s.bd with srcEn := new } }

/-- A whole write of the register or window word at an offset that is accepted. -/
def State.wholeWrite (off : Nat) (v : Word) (s : State) : State :=
  if absentOff s.fuse.part off then s
  else if 0x200000 ≤ off then { s with dev := s.dev.writeWindow s.fuse.part off v }
  else if off = Reg.TMP_SRC_EN then s.writeSrcEn v
  else if off = Reg.PLG_CURSOR_0 then { s with dev := (s.dev.setReg off v).plgLatch s.nv }
  else if off = Reg.PLG_NEXT then
    if v.bit 0 then { s with dev := (s.dev.plgAdvance).plgLatch s.nv } else s
  else { s with dev := s.dev.writeReg s.fuse.part off v }

end Sys2Proof.Machine
end

