-- ==== Sys2Proof/Machine/Reg.lean ====
section
/-! DEFINITION. Register accesses from the host that have no row of their own: RC reads, reads that latch a group, and
writes (chapter 16). -/

namespace Sys2Proof.Machine

/-- Whether a host read of the whole word at an offset is served here: BAR0 answers, the offset is a word's, and it is no pop
register of a spill queue. -/
def Dev.readable (off : Nat) (d : Dev) : Bool := d.bar0 && off % 4 == 0 && !popReg off

/-- `RC_READ` (R10): the read returns the register and clears it. -/
def execRcRead (off : Nat) (s : State) : Out :=
  .next (if s.dev.readable off then s.wholeRead off else s)

/-- `LATCHED_GROUP_READ` (R491): a read of a group's first register latches the others. -/
def execLatchedGroupRead (off : Nat) (s : State) : Out :=
  .next (if s.dev.readable off then s.latchRead off else s)

/-- `REGISTER_WRITE` (R9, R14): a write with all four byte enables, of a register the operating state lets be written. -/
def execRegisterWrite (off be : Nat) (v : Word) (s : State) : Out :=
  .next (if be = 15 ∧ off % 4 = 0 ∧ s.dev.accepts off = true then s.wholeWrite off v else s)

end Sys2Proof.Machine
end

