-- ==== Sys2Proof/Machine/Swg.lean ====
section
/-! DEFINITION. The meanings of Swage's commands (09_swage_compression.md). -/

namespace Sys2Proof.Machine

/-! ### A block on its way to a buffer (R297) -/

/-- The buffers a context keeps for a block of `len` bytes, and those that are retired because it does not fit. -/
def splitBufs (len : Nat) : List SwgBuf → List SwgBuf × List SwgBuf
  | [] => ([], [])
  | b :: t => if b.used + len ≤ b.len then ([], b :: t) else let (r, k) := splitBufs len t; (b :: r, k)

/-- The command in progress has had one more block written. -/
def SwgCmd.wrote : SwgCmd → SwgCmd
  | .feed h left total written bad => .feed h left total (written + 1) bad
  | c => c

/-- The write of a block meets a PCIe error (R375): the command of the buffer it was to go to ends there, and the block goes
to the next buffer. -/
def Dev.swgWriteFail (n len : Nat) (d : Dev) : Dev :=
  let x := d.swgCtx n
  let (out, keep) := splitBufs len x.bufs
  match keep with
  | [] => d
  | b :: t =>
    let d := out.foldl (fun (e : Dev) b => e.swgRetire 0 b) (d.putSwgCtx n { x with bufs := t })
    d.memFail b.hdr 0x71 [0, 0, BitVec.ofNat 32 b.used, BitVec.ofNat 32 b.blocks]

/-- A coded block goes whole into the first buffer that takes it; with none queued the context enters WAIT_BUF. Answers
whether it was written. -/
def Dev.swgWrite (n : Nat) (bs : List Byte) (d : Dev) : Bool × Dev :=
  let x := d.swgCtx n
  let (out, keep) := splitBufs bs.length x.bufs
  let d := out.foldl (fun (e : Dev) b => e.swgRetire 0 b) d
  match keep with
  | [] => (false, (d.putSwgCtx n { x with bufs := [], coded := some bs, st := 2 }).raise Reg.SWG_EVT 2)
  | b :: t =>
    let b2 : SwgBuf := { b with used := b.used + bs.length, blocks := b.blocks + 1 }
    let x : SwgCtx := { x with bufs := b2 :: t, coded := none, st := 1, cur := x.cur.map SwgCmd.wrote }
    (true, (d.putSwgCtx n x).emit (.hostWrite (b.addr + b.used) (.blocks bs)))

/-! ### The command in progress (R296, R298, R299) -/

/-- Feed the partial block: up to 256 samples in all; answers the rest of the samples. -/
def SwgCtx.feed (x : SwgCtx) (left : List (List Word)) : SwgCtx × List (List Word) :=
  let room := 256 - x.partial_.length
  let now := left.take room
  let p := x.partial_ ++ now
  let ix := (x.index + now.length) % 4294967296
  let first := (ix + 4294967296 - p.length) % 4294967296
  (if p.length = 256 then { x with partial_ := [], index := ix, ready := some (first, p) } else { x with partial_ := p, index := ix },
   left.drop room)

/-- Every buffer of a context is retired with `OK`, and the context is CLOSED; commands that wait are kept. -/
def Dev.swgShut (n : Nat) (d : Dev) : Dev :=
  let x := d.swgCtx n
  let d := x.bufs.foldl (fun (e : Dev) b => e.swgRetire 0 b) d
  d.putSwgCtx n { SwgCtx.new with wait := x.wait }

/-- The command in progress goes on as far as it can without a block being coded. -/
def Dev.swgGo (n : Nat) (d : Dev) : Dev :=
  let x := d.swgCtx n
  if x.ready.isSome || x.coded.isSome then d
  else
    match x.cur with
    | none => d
    | some (.feed h left total written bad) =>
      let (y, rest) := x.feed left
      let c : SwgCmd := .feed h rest total written bad
      if rest.isEmpty && y.ready.isNone then
        let d := d.putSwgCtx n { y with cur := none }
        if bad then (d.raise Reg.HST_EVT 2).swgEndErr 7 true c else d.swgEnd 0 c
      else d.putSwgCtx n { y with cur := some c }
    | some (.close h) => ((d.putSwgCtx n { x with cur := none }).swgShut n).complete h 0x74 0 []
    | some c => (d.putSwgCtx n { x with cur := none }).swgEnd 0 c

/-- A command starts in its turn (Table 9.4, R298): a flush, and a close, hand the partial block on. -/
def Dev.swgStart (n : Nat) (c : SwgCmd) (d : Dev) : Dev :=
  let x := d.swgCtx n
  match c with
  | .openCtx h kind code label =>
    if x.st ≠ 0 then d.refuse h 0x70 6 1 0xFFFF []
    else
      let y : SwgCtx := { SwgCtx.new with st := 1, kind := kind, code := code, label := label, wait := x.wait }
      (d.putSwgCtx n y).complete h 0x70 0 []
  | .feed h _ _ _ _ =>
    if x.st ≠ 1 then d.refuse h 0x72 6 1 0xFFFF [] else (d.putSwgCtx n { x with cur := some c }).swgGo n
  | _ =>
    if x.st ≠ 1 then d.refuse c.hdr.2 c.hdr.1 6 1 0xFFFF []
    else
      let first := (x.index + 4294967296 - x.partial_.length) % 4294967296
      let y : SwgCtx := { x with cur := some c, partial_ := [], ready := if x.partial_.isEmpty then none else some (first, x.partial_) }
      (d.putSwgCtx n y).swgGo n

/-- The commands that wait start, one after another, until one stays in progress. -/
def Dev.swgRun (n : Nat) : Nat → Dev → Dev
  | 0, d => d
  | k + 1, d =>
    let x := d.swgCtx n
    match x.cur, x.wait with
    | none, c :: t => Dev.swgRun n k ((d.putSwgCtx n { x with wait := t }).swgStart n c)
    | _, _ => d

/-- A context goes on: the command in progress, then those that wait. -/
def Dev.swgOn (n : Nat) (d : Dev) : Dev :=
  let d := d.swgGo n
  d.swgRun n ((d.swgCtx n).wait.length + 1)

/-- A command of a context queues behind the others (R299). -/
def Dev.swgQueue (n : Nat) (c : SwgCmd) (d : Dev) : Dev :=
  let x := d.swgCtx n
  (d.putSwgCtx n { x with wait := x.wait ++ [c] }).swgOn n

/-! ### The meanings -/

/-- A context's ready block is coded and written (R296, R302). -/
def Dev.swgServe (n fails : Nat) (memErr : Bool) (d : Dev) : Dev :=
  let x := d.swgCtx n
  match x.ready with
  | none => d
  | some (first, samples) =>
    if d.sht.p4shed || !legalCRD.contains d.op || !d.clientTurn (n + 1) then d
    else
      let d := d.putSwgCtx n { x with ready := none }
      let (bs, d) := d.codeBlock (n + 1) x.label x.kind x.code first false fails samples
      let d := { d with swg := { d.swg with last := n + 1 } }
      let (ok, d) := (if memErr then d.swgWriteFail n bs.length else d).swgWrite n bs
      if ok then d.swgOn n else d

/-- `SWG_BLOCK_CODE`: Swage serves client 0, Shutter's back-fill, or 1 to 4, the contexts. `fails` says how many of the two
checks of the block fail, `memErr` that writing it to the first buffer does. -/
def execSwgBlockCode (client fails : Nat) (memErr : Bool) (s : State) : Out :=
  s.onDev (fun d =>
    if 4 < client then d
    else if client = 0 then (match d.codedGroup with
      | some g => d.backfill g fails
      | none => d)
    else d.swgServe (client - 1) fails memErr)

/-- `SWG_OPEN`. -/
def execSwgOpen (h : CmdHdr) (ctx kind code label : Nat) (s : State) : Out :=
  s.onDev (fun d => d.cmd h 0x70 [] s.fuse.part.hasSwg legalCRD (fun d =>
    if 3 < ctx ∨ 1 < kind ∨ code < 1 ∨ 6 < code then d.complete h 0x70 2 []
    else d.swgQueue ctx (.openCtx h kind code (label % 65536))))

/-- `SWG_BUF` once its checks 2 to 4 hold: a block that waits for space is written there at once (R297). -/
def Dev.swgBufCmd (h : CmdHdr) (ctx addr len : Nat) (memErr : Bool) (d : Dev) : Dev :=
  let x := d.swgCtx ctx
  if 3 < ctx ∨ addr % 4 ≠ 0 ∨ len % 4 ≠ 0 ∨ len < (if x.kind = 0 then 1056 else 5152) ∨ 16777216 < len then d.complete h 0x71 2 []
  else if x.st = 0 then d.refuse h 0x71 6 1 0xFFFF []
  else if 8 ≤ x.bufs.length then d.complete h 0x71 3 []
  else
    let b : SwgBuf := { hdr := h, addr := addr, len := len, used := 0, blocks := 0 }
    let d := d.putSwgCtx ctx { x with bufs := x.bufs ++ [b] }
    match x.coded with
    | none => d
    | some bs => let (ok, d) := (if memErr then d.swgWriteFail ctx bs.length else d).swgWrite ctx bs
      if ok then d.swgOn ctx else d

/-- `SWG_BUF`. -/
def execSwgBuf (h : CmdHdr) (ctx addr len : Nat) (memErr : Bool) (s : State) : Out :=
  s.onDev (fun d => d.cmd h 0x71 [] s.fuse.part.hasSwg legalCRD (Dev.swgBufCmd h ctx addr len memErr))

/-- `SWG_FEED`. `samples` are those read from host memory, all of them unless `memErr` says that the read then fails. -/
def execSwgFeed (h : CmdHdr) (ctx addr count : Nat) (samples : List (List Word)) (memErr : Bool) (s : State) : Out :=
  s.onDev (fun d => d.cmd h 0x72 [] s.fuse.part.hasSwg legalCRD (fun d =>
    if 3 < ctx ∨ addr % 4 ≠ 0 ∨ count < 1 ∨ 1048576 < count then d.complete h 0x72 2 []
    else if (d.swgCtx ctx).st ≠ 1 ∧ (d.swgCtx ctx).cur.isNone = true then d.refuse h 0x72 6 1 0xFFFF []
    else d.swgQueue ctx (.feed h (samples.take count) (samples.take count).length 0 memErr)))

/-- `SWG_FLUSH`. -/
def execSwgFlush (h : CmdHdr) (ctx : Nat) (s : State) : Out :=
  s.onDev (fun d => d.cmd h 0x73 [] s.fuse.part.hasSwg legalCRD (fun d =>
    if 3 < ctx then d.complete h 0x73 2 [] else d.swgQueue ctx (.flush h)))

/-- `SWG_CLOSE` with mode 0. -/
def execSwgClose (h : CmdHdr) (ctx : Nat) (s : State) : Out :=
  s.onDev (fun d => d.cmd h 0x74 [] s.fuse.part.hasSwg legalCRD (fun d =>
    if 3 < ctx then d.complete h 0x74 2 [] else d.swgQueue ctx (.close h)))

/-- `SWG_CLOSE` with mode 1 (R301), executed at once. -/
def execSwgCloseAbort (h : CmdHdr) (ctx : Nat) (s : State) : Out :=
  s.onDev (fun d => d.cmd h 0x74 [] s.fuse.part.hasSwg legalCRD (fun d =>
    if 3 < ctx then d.complete h 0x74 2 []
    else if (d.swgCtx ctx).st = 0 then d.refuse h 0x74 6 1 0xFFFF []
    else (d.swgAbort 0 ctx).complete h 0x74 0 []))

end Sys2Proof.Machine
end

