-- ==== Sys2Proof/Machine/Dispatch.lean ====
section
/-! DEFINITION. The dispatch of commands to their meanings: one arm for each constructor of `Instr`. -/

namespace Sys2Proof.Machine

/-- The effect of a command on everything but the queue. -/
def exec (i : Instr) (s : State) : Host.Outcome State Fault Refusal :=
  match i with
  | .powerUp => Sys2Proof.Machine.execPowerUp s
  | .bootComplete r => Sys2Proof.Machine.execBootComplete r s
  | .vbatApplied => Sys2Proof.Machine.execVbatApplied s
  | .porNReset => Sys2Proof.Machine.execPorNReset s
  | .brownout => Sys2Proof.Machine.execBrownout s
  | .backupSwitchover toVbat => Sys2Proof.Machine.execBackupSwitchover toVbat s
  | .pciePerst => Sys2Proof.Machine.execPciePerst s
  | .functionLevelReset => Sys2Proof.Machine.execFunctionLevelReset s
  | .mgmtWatchdogExpiry => Sys2Proof.Machine.execMgmtWatchdogExpiry s
  | .mgmtRestartDone => Sys2Proof.Machine.execMgmtRestartDone s
  | .tamperDetected src => Sys2Proof.Machine.execTamperDetected src s
  | .devStart h => Sys2Proof.Machine.execDevStart h s
  | .devStop h => Sys2Proof.Machine.execDevStop h s
  | .devStopDone => Sys2Proof.Machine.execDevStopDone s
  | .devReset h => Sys2Proof.Machine.execDevReset h s
  | .vinUndervoltage mv => Sys2Proof.Machine.execVinUndervoltage mv s
  | .supplyDipEnd => Sys2Proof.Machine.execSupplyDipEnd s
  | .supplyLost => Sys2Proof.Machine.execSupplyLost s
  | .lastGaspComplete vinValid => Sys2Proof.Machine.execLastGaspComplete vinValid s
  | .safeSupplyLost => Sys2Proof.Machine.execSafeSupplyLost s
  | .resChargeControl mv cMeas => Sys2Proof.Machine.execResChargeControl mv cMeas s
  | .resOvervoltage mv => Sys2Proof.Machine.execResOvervoltage mv s
  | .annealerPeriod a => Sys2Proof.Machine.execAnnealerPeriod a s
  | .anlCapSet h cap => Sys2Proof.Machine.execAnlCapSet h cap s
  | .pwrResCheck h => Sys2Proof.Machine.execPwrResCheck h s
  | .slotStrobe rc k => Sys2Proof.Machine.execSlotStrobe rc k s
  | .preSlotStrobe rc k => Sys2Proof.Machine.execPreSlotStrobe rc k s
  | .ptpMessageTx port kind => Sys2Proof.Machine.execPtpMessageTx port kind s
  | .sourceLossTimeout src => Sys2Proof.Machine.execSourceLossTimeout src s
  | .tbuUncertRefresh => Sys2Proof.Machine.execTbuUncertRefresh s
  | .timeStepApply => Sys2Proof.Machine.execTimeStepApply s
  | .leapSecond => Sys2Proof.Machine.execLeapSecond s
  | .tevFire n => Sys2Proof.Machine.execTevFire n s
  | .tevPulseEnd n => Sys2Proof.Machine.execTevPulseEnd n s
  | .backupRtcCopy => Sys2Proof.Machine.execBackupRtcCopy s
  | .rawCounterCheck count refOk => Sys2Proof.Machine.execRawCounterCheck count refOk s
  | .ppsEdge falling => Sys2Proof.Machine.execPpsEdge falling s
  | .gnssSentence g => Sys2Proof.Machine.execGnssSentence g s
  | .irigFrame g => Sys2Proof.Machine.execIrigFrame g s
  | .frameReceived port f => Sys2Proof.Machine.execFrameReceived port f s
  | .linkUp port => Sys2Proof.Machine.execLinkUp port s
  | .linkDown port => Sys2Proof.Machine.execLinkDown port s
  | .prpSupervisionTx port => Sys2Proof.Machine.execPrpSupervisionTx port s
  | .pauseExpiry port => Sys2Proof.Machine.execPauseExpiry port s
  | .pauseStorm port => Sys2Proof.Machine.execPauseStorm port s
  | .pauseStormEnd port => Sys2Proof.Machine.execPauseStormEnd port s
  | .preemptVerify port ans => Sys2Proof.Machine.execPreemptVerify port ans s
  | .frameTransmitEnd port => Sys2Proof.Machine.execFrameTransmitEnd port s
  | .streamStale idx => Sys2Proof.Machine.execStreamStale idx s
  | .stmCommit h p => Sys2Proof.Machine.execStmCommit h p s
  | .stmValidationEnd => Sys2Proof.Machine.execStmValidationEnd s
  | .stmCommitApply => Sys2Proof.Machine.execStmCommitApply s
  | .stmCancel h => Sys2Proof.Machine.execStmCancel h s
  | .stmReload h => Sys2Proof.Machine.execStmReload h s
  | .tilePlaceFrame tile ecc => Sys2Proof.Machine.execTilePlaceFrame tile ecc s
  | .firstLook rc k x => Sys2Proof.Machine.execFirstLook rc k x s
  | .finalLook rc k x => Sys2Proof.Machine.execFinalLook rc k x s
  | .tileSentinelCheck tile pass find => Sys2Proof.Machine.execTileSentinelCheck tile pass find s
  | .easFail h tile => Sys2Proof.Machine.execEasFail h tile s
  | .phxRound => Sys2Proof.Machine.execPhxRound s
  | .phxEstimate ch cls => Sys2Proof.Machine.execPhxEstimate ch cls s
  | .detectorSample ch => Sys2Proof.Machine.execDetectorSample ch s
  | .detHoldEnd ch det => Sys2Proof.Machine.execDetHoldEnd ch det s
  | .sampleMissingTimeout ch => Sys2Proof.Machine.execSampleMissingTimeout ch s
  | .phxLaneCheck lane pass => Sys2Proof.Machine.execPhxLaneCheck lane pass s
  | .phxResync h ch => Sys2Proof.Machine.execPhxResync h ch s
  | .safelightPass faults reads => Sys2Proof.Machine.execSafelightPass faults reads s
  | .localRuleSlotEnd rc k => Sys2Proof.Machine.execLocalRuleSlotEnd rc k s
  | .tevOperandExpiry n => Sys2Proof.Machine.execTevOperandExpiry n s
  | .gooseRetransmit => Sys2Proof.Machine.execGooseRetransmit s
  | .almPulseEnd n => Sys2Proof.Machine.execAlmPulseEnd n s
  | .almTurnOnTimeout n => Sys2Proof.Machine.execAlmTurnOnTimeout n s
  | .almRetry n => Sys2Proof.Machine.execAlmRetry n s
  | .sflLaneKat lane pass => Sys2Proof.Machine.execSflLaneKat lane pass s
  | .sflDisagreeKat aOk bOk => Sys2Proof.Machine.execSflDisagreeKat aOk bOk s
  | .sflLaneSelfTest aOk bOk => Sys2Proof.Machine.execSflLaneSelfTest aOk bOk s
  | .dnsVectorUpdate => Sys2Proof.Machine.execDnsVectorUpdate s
  | .sflCommit h p => Sys2Proof.Machine.execSflCommit h p s
  | .sflValidationEnd => Sys2Proof.Machine.execSflValidationEnd s
  | .sflCommitApply => Sys2Proof.Machine.execSflCommitApply s
  | .sflCancel h => Sys2Proof.Machine.execSflCancel h s
  | .sflReload h => Sys2Proof.Machine.execSflReload h s
  | .sflClear h rule => Sys2Proof.Machine.execSflClear h rule s
  | .sflClearLatched h => Sys2Proof.Machine.execSflClearLatched h s
  | .sflClearOutput h out => Sys2Proof.Machine.execSflClearOutput h out s
  | .sflLaneTest h aOk bOk => Sys2Proof.Machine.execSflLaneTest h aOk bOk s
  | .sflLaneTestInvert h => Sys2Proof.Machine.execSflLaneTestInvert h s
  | .sflSnap v => Sys2Proof.Machine.execSflSnap v s
  | .dnsInstantUpdate => Sys2Proof.Machine.execDnsInstantUpdate s
  | .dnsRefresh => Sys2Proof.Machine.execDnsRefresh s
  | .dnsPublication => Sys2Proof.Machine.execDnsPublication s
  | .dnsFoEvaluation => Sys2Proof.Machine.execDnsFoEvaluation s
  | .dnsCoherency => Sys2Proof.Machine.execDnsCoherency s
  | .dnsCoreCheck core pass ue => Sys2Proof.Machine.execDnsCoreCheck core pass ue s
  | .dnsWarmupEnd => Sys2Proof.Machine.execDnsWarmupEnd s
  | .dnsRestart h mask => Sys2Proof.Machine.execDnsRestart h mask s
  | .dnsFail h core => Sys2Proof.Machine.execDnsFail h core s
  | .captureTrigger => Sys2Proof.Machine.execCaptureTrigger s
  | .captureEndInstant g => Sys2Proof.Machine.execCaptureEndInstant g s
  | .captureClose g => Sys2Proof.Machine.execCaptureClose g s
  | .holdoffEnd g => Sys2Proof.Machine.execHoldoffEnd g s
  | .groupRearm g => Sys2Proof.Machine.execGroupRearm g s
  | .backfillBlock g fails => Sys2Proof.Machine.execBackfillBlock g fails s
  | .shtArm h g => Sys2Proof.Machine.execShtArm h g s
  | .shtDisarm h g => Sys2Proof.Machine.execShtDisarm h g s
  | .shtTrigger h g => Sys2Proof.Machine.execShtTrigger h g s
  | .shtFetch h id off len addr memErr => Sys2Proof.Machine.execShtFetch h id off len addr memErr s
  | .shtRelease h id => Sys2Proof.Machine.execShtRelease h id s
  | .swgBlockCode client fails memErr => Sys2Proof.Machine.execSwgBlockCode client fails memErr s
  | .swgOpen h ctx kind code label => Sys2Proof.Machine.execSwgOpen h ctx kind code label s
  | .swgBuf h ctx addr len memErr => Sys2Proof.Machine.execSwgBuf h ctx addr len memErr s
  | .swgFeed h ctx addr count samples memErr => Sys2Proof.Machine.execSwgFeed h ctx addr count samples memErr s
  | .swgFlush h ctx => Sys2Proof.Machine.execSwgFlush h ctx s
  | .swgClose h ctx => Sys2Proof.Machine.execSwgClose h ctx s
  | .swgCloseAbort h ctx => Sys2Proof.Machine.execSwgCloseAbort h ctx s
  | .standbyDelayedSend => Sys2Proof.Machine.execStandbyDelayedSend s
  | .sealDatagram set => Sys2Proof.Machine.execSealDatagram set s
  | .brazeFrameReceived f => Sys2Proof.Machine.execBrazeFrameReceived f s
  | .brzHeartbeatTx => Sys2Proof.Machine.execBrzHeartbeatTx s
  | .brzLinkDown port dev => Sys2Proof.Machine.execBrzLinkDown port dev s
  | .brzAlarmRetransmit => Sys2Proof.Machine.execBrzAlarmRetransmit s
  | .brzTimeSyncTx dev => Sys2Proof.Machine.execBrzTimeSyncTx dev s
  | .brzTimeReqTx => Sys2Proof.Machine.execBrzTimeReqTx s
  | .twinStateTx => Sys2Proof.Machine.execTwinStateTx s
  | .twinTakeover => Sys2Proof.Machine.execTwinTakeover s
  | .twinChecks r => Sys2Proof.Machine.execTwinChecks r s
  | .brazeKeyGraceEnd slot => Sys2Proof.Machine.execBrazeKeyGraceEnd slot s
  | .brzSwap h => Sys2Proof.Machine.execBrzSwap h s
  | .flgFrameReceived f => Sys2Proof.Machine.execFlgFrameReceived f s
  | .flgBeacon => Sys2Proof.Machine.execFlgBeacon s
  | .flgBackoff rssi => Sys2Proof.Machine.execFlgBackoff rssi s
  | .flgAckTurnaround => Sys2Proof.Machine.execFlgAckTurnaround s
  | .flgAckTimeout => Sys2Proof.Machine.execFlgAckTimeout s
  | .flgHeldFrameExpiry => Sys2Proof.Machine.execFlgHeldFrameExpiry s
  | .flgNodeLost n => Sys2Proof.Machine.execFlgNodeLost n s
  | .flgParentBeaconMissed => Sys2Proof.Machine.execFlgParentBeaconMissed s
  | .flgFloodRelay => Sys2Proof.Machine.execFlgFloodRelay s
  | .flgSeenExpiry => Sys2Proof.Machine.execFlgSeenExpiry s
  | .rlpSfdEdge => Sys2Proof.Machine.execRlpSfdEdge s
  | .rlpSfdTimeout => Sys2Proof.Machine.execRlpSfdTimeout s
  | .rlpResetEnd => Sys2Proof.Machine.execRlpResetEnd s
  | .flgSend h node force addr len data memErr => Sys2Proof.Machine.execFlgSend h node force addr len data memErr s
  | .flgDisassoc h node => Sys2Proof.Machine.execFlgDisassoc h node s
  | .hstPoll p => Sys2Proof.Machine.execHstPoll p s
  | .hstKick => Sys2Proof.Machine.execHstKick s
  | .hstEnable => Sys2Proof.Machine.execHstEnable s
  | .ringEnable n v idx => Sys2Proof.Machine.execRingEnable n v idx s
  | .ringDisable n v => Sys2Proof.Machine.execRingDisable n v s
  | .msixCoalesceExpiry n => Sys2Proof.Machine.execMsixCoalesceExpiry n s
  | .msixUnmask v => Sys2Proof.Machine.execMsixUnmask v s
  | .hstNop h => Sys2Proof.Machine.execHstNop h s
  | .hstTxFrame h pair addr len words memErr => Sys2Proof.Machine.execHstTxFrame h pair addr len words memErr s
  | .spqFlush h q => Sys2Proof.Machine.execSpqFlush h q s
  | .spqFlushDone q => Sys2Proof.Machine.execSpqFlushDone q s
  | .spqDropRem h q => Sys2Proof.Machine.execSpqDropRem h q s
  | .spqDrain q ecc => Sys2Proof.Machine.execSpqDrain q ecc s
  | .spqPopHdr q ecc => Sys2Proof.Machine.execSpqPopHdr q ecc s
  | .spqPopStallEnd q => Sys2Proof.Machine.execSpqPopStallEnd q s
  | .spqPopData q ecc => Sys2Proof.Machine.execSpqPopData q ecc s
  | .spqEnable q v idx => Sys2Proof.Machine.execSpqEnable q v idx s
  | .spqDisable q => Sys2Proof.Machine.execSpqDisable q s
  | .keyGenerate h a => Sys2Proof.Machine.execKeyGenerate h a s
  | .keyImport h a tslot addr blob => Sys2Proof.Machine.execKeyImport h a tslot addr blob s
  | .keyJournalFlip slot katOk => Sys2Proof.Machine.execKeyJournalFlip slot katOk s
  | .keyDestroy h slot => Sys2Proof.Machine.execKeyDestroy h slot s
  | .keyPublic h slot addr memErr => Sys2Proof.Machine.execKeyPublic h slot addr memErr s
  | .hlmAttest h slot nonce addr memErr => Sys2Proof.Machine.execHlmAttest h slot nonce addr memErr s
  | .hlmCert h addr len memErr => Sys2Proof.Machine.execHlmCert h addr len memErr s
  | .keyUpdate h m => Sys2Proof.Machine.execKeyUpdate h m s
  | .provision m => Sys2Proof.Machine.execProvision m s
  | .advance m => Sys2Proof.Machine.execAdvance m s
  | .return_ m => Sys2Proof.Machine.execReturn m s
  | .scrap m => Sys2Proof.Machine.execScrap m s
  | .reseal m => Sys2Proof.Machine.execReseal m s
  | .rotateAuthority m => Sys2Proof.Machine.execRotateAuthority m s
  | .debugOpen m => Sys2Proof.Machine.execDebugOpen m s
  | .reblank m => Sys2Proof.Machine.execReblank m s
  | .actWrite h target ctx word v => Sys2Proof.Machine.execActWrite h target ctx word v s
  | .actWriteSlotRange h ctx v => Sys2Proof.Machine.execActWriteSlotRange h ctx v s
  | .actWriteLock h v => Sys2Proof.Machine.execActWriteLock h v s
  | .rngHealthFail => Sys2Proof.Machine.execRngHealthFail s
  | .mkaSakInstall port sa key keyId scs => Sys2Proof.Machine.execMkaSakInstall port sa key keyId scs s
  | .proofLogCommit fails => Sys2Proof.Machine.execProofLogCommit fails s
  | .plgTokenRefill code => Sys2Proof.Machine.execPlgTokenRefill code s
  | .timeAnchor => Sys2Proof.Machine.execTimeAnchor s
  | .plgCursorWrite v => Sys2Proof.Machine.execPlgCursorWrite v s
  | .plgNext v => Sys2Proof.Machine.execPlgNext v s
  | .plgRead h part first addr count memErr => Sys2Proof.Machine.execPlgRead h part first addr count memErr s
  | .plgClear h => Sys2Proof.Machine.execPlgClear h s
  | .plgSeal h nonce addr memErr => Sys2Proof.Machine.execPlgSeal h nonce addr memErr s
  | .idRead h addr memErr => Sys2Proof.Machine.execIdRead h addr memErr s
  | .memScrub find => Sys2Proof.Machine.execMemScrub find s
  | .tbuStep h mode rel sec ns => Sys2Proof.Machine.execTbuStep h mode rel sec ns s
  | .tbuLeap h v => Sys2Proof.Machine.execTbuLeap h v s
  | .tbuSnap v => Sys2Proof.Machine.execTbuSnap v s
  | .tbuRateWrite hi v => Sys2Proof.Machine.execTbuRateWrite hi v s
  | .servoDisable v => Sys2Proof.Machine.execServoDisable v s
  | .rearmStep v => Sys2Proof.Machine.execRearmStep v s
  | .tevArm n v => Sys2Proof.Machine.execTevArm n v s
  | .rcRead off => Sys2Proof.Machine.execRcRead off s
  | .latchedGroupRead off => Sys2Proof.Machine.execLatchedGroupRead off s
  | .registerWrite off be v => Sys2Proof.Machine.execRegisterWrite off be v s
  | .backupDomainSupplyLost => Sys2Proof.Machine.execBackupDomainSupplyLost s
  | .leapOccurredExpiry => Sys2Proof.Machine.execLeapOccurredExpiry s
  | .debugInstruction boundary => Sys2Proof.Machine.execDebugInstruction boundary s
  | .almTurnOnSuccess n => Sys2Proof.Machine.execAlmTurnOnSuccess n s
  | .resOvervoltageEnd mv => Sys2Proof.Machine.execResOvervoltageEnd mv s
  | .resCheckBleedDone mv => Sys2Proof.Machine.execResCheckBleedDone mv s

end Sys2Proof.Machine
end

