-- ==== Sys2Proof/Machine/Tick.lean ====
section
/-! DEFINITION. Time: what the block does when no command waits (log entry 3). -/

namespace Sys2Proof.Machine

/-- One cycle of the 1 GHz raw clock (R48): the raw counter advances while the main domain has its clock, derived time follows
it, a slew that has removed its error ends (R67), and `SYNC` follows the predicted error (R68). -/
def Dev.tickOne (d : Dev) : Dev :=
  let d := ({ d with raw := d.raw + 1 }).slewEnd
  d.setSync d.syncNow

/-- The same nanosecond in the backup domain, whose real-time counter runs while the domain has a supply. -/
def Bd.tickOne (b : Bd) : Bd := { b with rtcNs := b.rtcNs + 1 }

/-- A nanosecond passes. -/
def State.tick (s : State) : State :=
  { s with bd := if s.dev.op = .off then s.bd else s.bd.tickOne
           dev := if s.dev.op.mainOn then s.dev.tickOne else s.dev }

end Sys2Proof.Machine
end

