-- ==== Sys2Proof/Safety.lean ====
section
/-! DEFINITION. What the statements about the block are made of: outcomes, what a command may change, and the properties a
safe run keeps. -/

namespace Sys2Proof.Machine

/-- An outcome in which the block goes on. -/
def GoesOn (o : Out) : Prop := ∃ t, o = .next t

/-- A command completes: it answers a next state, and the next state is as `P` says. -/
def Completes (c : Instr) (s : State) (P : State → Prop) : Prop := ∃ t, exec c s = .next t ∧ P t

/-- A pass through BOOT has begun with a cause of Table 14.7: the operating state is BOOT, the power-cycle counter has gone
on in MRAM and in the backup domain (it stays at all ones of its 24 bits), the cause shows, no key stands in the working
plate, no command waits or runs and no queue is enabled; identity, vault and command queue are as before. -/
def State.BootBegun (cause : Nat) (s t : State) : Prop :=
  t.dev.op = .boot ∧ t.nv.pcc = min 0xFFFFFF (1 + max s.bd.pcc s.nv.pcc) ∧ t.bd.pcc = t.nv.pcc ∧
    t.dev.reg Reg.RST_CAUSE = BitVec.ofNat 32 cause ∧ t.dev.key.plate = [] ∧ t.dev.host.fetched = [] ∧ t.dev.stg = [] ∧
    t.dev.act = [] ∧ t.bd.root = s.bd.root ∧ t.bd.causes = s.bd.causes ∧ t.fuse = s.fuse ∧ t.pending = s.pending

/-! ### What a command may change -/

/-- The registers in which a command's completion, its records and its counts show: those of the host interface and of the
proof log, and `ACT_DENIED`. -/
def reportReg (off : Nat) : Bool :=
  (decide (0x120000 ≤ off) && decide (off < 0x130000)) || (decide (0x160000 ≤ off) && decide (off < 0x170000)) || off == Reg.ACT_DENIED

/-- `e` differs from `d` only in what reporting moves (the host interface, the proof log's staging, the record of outputs, the
count of free values drawn, and the registers of `reportReg`) and in the registers of `own`. -/
def Dev.Keeps (own : Nat → Bool) (d e : Dev) : Prop :=
  e = { d with regs := e.regs, out := e.out, host := e.host, plg := e.plg, free := e.free } ∧
    ∀ off, own off = false → reportReg off = false → e.reg off = d.reg off

/-- No register of one's own. -/
def noReg (_ : Nat) : Bool := false

/-- The registers of a BAR0 block. -/
def inBlock (lo hi off : Nat) : Bool := decide (lo ≤ off) && decide (off < hi)

/-- Only the main domain differs. -/
def State.MainOnly (s t : State) : Prop := t = { s with dev := t.dev }

/-- The host interface serves a command: rings are served, the command's fence is passed, and checks 2 to 4 of Table 12.7
hold (R371, R373). -/
def Dev.Admits (h : CmdHdr) (code : Nat) (slots : List Nat) (present : Bool) (legal : List OpState) (d : Dev) : Prop :=
  d.op ≠ .boot ∧ d.op.mainOn = true ∧ d.op ≠ .holdup ∧ d.mayStart h code = true ∧ d.gate h code slots present legal = none

/-- The key commands, each with what it asks for (Table 13.4). -/
def keyCommand : Instr → Option (CmdHdr × KeyOp)
  | .keyGenerate h a => some (h, .gen a)
  | .keyImport h a tslot addr blob => some (h, .imp a tslot { blob with aligned := blob.aligned && addr % 4 == 0 })
  | .keyDestroy h slot => some (h, .destroy slot)
  | .keyPublic h slot addr memErr => some (h, .pubKey slot addr memErr)
  | .hlmAttest h slot nonce addr memErr => some (h, .attest slot nonce addr memErr)
  | _ => none

/-- No earlier key command holds a slot back that a command names (R411). -/
def Dev.SlotsFree (op : KeyOp) (d : Dev) : Prop := op.slots.any (fun k => d.busySlots.contains k) = false

/-! ### What a safe run keeps -/

/-- The proof log is whole (R474, R477): in both partitions the records held carry consecutive numbers up to the last one
given. -/
def Nv.LogWhole (nv : Nv) : Prop := nv.gen.wf = true ∧ nv.sec.wf = true

/-- What never goes back (R426, R441, R467, R474): the update counter, the image's security version, the power-cycle counter,
and the numbers given to records. -/
def NeverBack (a b : Nv) : Prop :=
  a.updCtr ≤ b.updCtr ∧ a.bootSvn ≤ b.bootSvn ∧ a.pcc ≤ b.pcc ∧ a.gen.next ≤ b.gen.next ∧ a.sec.next ≤ b.sec.next

end Sys2Proof.Machine
end

