-- ==== Sys2Proof/WellFormed.lean ====
section
/-! DEFINITION. Well-formed commands: every operand lies in the field or the index range the spec gives it. A host command's
operand is checked against the width of its descriptor field only: a value of the field that names no unit is a command the
device answers `BAD_ARG`. -/

namespace Sys2Proof

/-- A submission ring, 0 to 63. -/
def okRing64 (h : CmdHdr) : Bool := decide (h.ring < 64)
/-- A ring of either kind, 0 to 127. -/
def okRing (n : Nat) : Bool := decide (n < 128)
/-- A completion ring, 64 to 127. -/
def okComplRing (n : Nat) : Bool := decide (64 ≤ n) && decide (n < 128)
/-- An Ethernet port (R88). -/
def okPort (n : Nat) : Bool := decide (n < 4)
/-- A Braze port: 0 `UP`, 1 `DOWN`. -/
def okBrzPort (n : Nat) : Bool := decide (n < 2)
/-- A Braze device number, 9 bits (`BRZ_DEV.DEV`). -/
def okDevice (n : Nat) : Bool := decide (n < 512)
/-- A rate code, 4 bits (Table 3.7). -/
def okRate (rc : Nat) : Bool := decide (rc < 16)
/-- A time source (Table 2.1). -/
def okSource (n : Nat) : Bool := decide (n < 5)
/-- A time-event comparator, 0 to 7. -/
def okComparator (n : Nat) : Bool := decide (n < 8)
/-- An alarm output, 0 to 7 (R215). -/
def okAlarmPin (n : Nat) : Bool := decide (n < 8)
/-- A stream index (Table 0.1). -/
def okStream (i : Nat) : Bool := decide (i < 8192)
/-- A tile number (Table 0.1). -/
def okTile (n : Nat) : Bool := decide (n < 32)
/-- A Phasor chain channel. -/
def okChannel (n : Nat) : Bool := decide (n < 512)
/-- A Phasor chain class: P or M (R162). -/
def okClass (n : Nat) : Bool := decide (n < 2)
/-- A detector of a channel. -/
def okDetector (n : Nat) : Bool := decide (n < 2)
/-- A Phasor chain lane, 0 to 7. -/
def okPhxLane (n : Nat) : Bool := decide (n < 8)
/-- A Safelight lane: 0 A, 1 B. -/
def okLane (n : Nat) : Bool := decide (n < 2)
/-- An output set, 0 to 63. -/
def okSet (n : Nat) : Bool := decide (n < 64)
/-- A capture group, 0 to 15. -/
def okGroup (n : Nat) : Bool := decide (n < 16)
/-- A client of Swage: Shutter backfill, then contexts 0 to 3 (R302). -/
def okClient (n : Nat) : Bool := decide (n < 5)
/-- A spill queue, 0 to 63. -/
def okQueue (n : Nat) : Bool := decide (n < 64)
/-- A key slot, 0 to 255. -/
def okSlot (n : Nat) : Bool := decide (n < 256)
/-- A Densitometer core. -/
def okCore (n : Nat) : Bool := decide (n < 16)
/-- A mesh node entry. -/
def okNode (n : Nat) : Bool := decide (n < 2048)
/-- A record code (Table 15.3). -/
def okRecordCode (n : Nat) : Bool := decide (n < 256)
/-- An MSI-X vector (Table 12.10). -/
def okVector (n : Nat) : Bool := decide (n < 144)
/-- A MACsec association number, 2 bits (R96). -/
def okAssociation (n : Nat) : Bool := decide (n < 4)
/-- A byte offset in BAR0, 16 MiB (R9). -/
def okOffset (off : Nat) : Bool := decide (off < 16777216)
/-- The byte enables of a word. -/
def okByteEnables (be : Nat) : Bool := decide (be < 16)
/-- A descriptor field of one octet. -/
def okByte (n : Nat) : Bool := decide (n < 256)
/-- A descriptor field of two octets. -/
def okHalf (n : Nat) : Bool := decide (n < 65536)
/-- A frame's length, two octets. -/
def okFrameLength (f : RxFrame) : Bool := decide (f.len < 65536)
/-- The slot of a key command, two octets, and its type, one. -/
def okKeyArgs (a : KeyArgs) : Bool := okHalf a.slot && okByte a.typ

/-- Whether a command's operands lie in their fields. -/
def Instr.wf (i : Instr) : Bool :=
  match i with
  | .powerUp => true
  | .bootComplete _ => true
  | .vbatApplied => true
  | .porNReset => true
  | .brownout => true
  | .backupSwitchover _ => true
  | .pciePerst => true
  | .functionLevelReset => true
  | .mgmtWatchdogExpiry => true
  | .mgmtRestartDone => true
  | .tamperDetected _ => true
  | .devStart h => okRing64 h
  | .devStop h => okRing64 h
  | .devStopDone => true
  | .devReset h => okRing64 h
  | .vinUndervoltage _ => true
  | .supplyDipEnd => true
  | .supplyLost => true
  | .lastGaspComplete _ => true
  | .safeSupplyLost => true
  | .resChargeControl _ _ => true
  | .resOvervoltage _ => true
  | .annealerPeriod _ => true
  | .anlCapSet h cap => okRing64 h && okHalf cap
  | .pwrResCheck h => okRing64 h
  | .slotStrobe rc _ => okRate rc
  | .preSlotStrobe rc _ => okRate rc
  | .ptpMessageTx port _ => okPort port
  | .sourceLossTimeout src => okSource src
  | .tbuUncertRefresh => true
  | .timeStepApply => true
  | .leapSecond => true
  | .tevFire n => okComparator n
  | .tevPulseEnd n => okComparator n
  | .backupRtcCopy => true
  | .rawCounterCheck _ _ => true
  | .ppsEdge _ => true
  | .gnssSentence _ => true
  | .irigFrame _ => true
  | .frameReceived port f => okPort port && okFrameLength f
  | .linkUp port => okPort port
  | .linkDown port => okPort port
  | .prpSupervisionTx port => okPort port
  | .pauseExpiry port => okPort port
  | .pauseStorm port => okPort port
  | .pauseStormEnd port => okPort port
  | .preemptVerify port _ => okPort port
  | .frameTransmitEnd port => okPort port
  | .streamStale idx => okStream idx
  | .stmCommit h _ => okRing64 h
  | .stmValidationEnd => true
  | .stmCommitApply => true
  | .stmCancel h => okRing64 h
  | .stmReload h => okRing64 h
  | .tilePlaceFrame tile _ => okTile tile
  | .firstLook rc _ _ => okRate rc
  | .finalLook rc _ _ => okRate rc
  | .tileSentinelCheck tile _ _ => okTile tile
  | .easFail h tile => okRing64 h && okByte tile
  | .phxRound => true
  | .phxEstimate ch cls => okChannel ch && okClass cls
  | .detectorSample ch => okChannel ch
  | .detHoldEnd ch det => okChannel ch && okDetector det
  | .sampleMissingTimeout ch => okChannel ch
  | .phxLaneCheck lane _ => okPhxLane lane
  | .phxResync h ch => okRing64 h && okHalf ch
  | .safelightPass _ _ => true
  | .localRuleSlotEnd rc _ => okRate rc
  | .tevOperandExpiry n => okComparator n
  | .gooseRetransmit => true
  | .almPulseEnd n => okAlarmPin n
  | .almTurnOnTimeout n => okAlarmPin n
  | .almRetry n => okAlarmPin n
  | .sflLaneKat lane _ => okLane lane
  | .sflDisagreeKat _ _ => true
  | .sflLaneSelfTest _ _ => true
  | .dnsVectorUpdate => true
  | .sflCommit h _ => okRing64 h
  | .sflValidationEnd => true
  | .sflCommitApply => true
  | .sflCancel h => okRing64 h
  | .sflReload h => okRing64 h
  | .sflClear h rule => okRing64 h && okHalf rule
  | .sflClearLatched h => okRing64 h
  | .sflClearOutput h out => okRing64 h && okByte out
  | .sflLaneTest h _ _ => okRing64 h
  | .sflLaneTestInvert h => okRing64 h
  | .sflSnap _ => true
  | .dnsInstantUpdate => true
  | .dnsRefresh => true
  | .dnsPublication => true
  | .dnsFoEvaluation => true
  | .dnsCoherency => true
  | .dnsCoreCheck core _ _ => okCore core
  | .dnsWarmupEnd => true
  | .dnsRestart h mask => okRing64 h && okByte mask
  | .dnsFail h core => okRing64 h && okByte core
  | .captureTrigger => true
  | .captureEndInstant g => okGroup g
  | .captureClose g => okGroup g
  | .holdoffEnd g => okGroup g
  | .groupRearm g => okGroup g
  | .backfillBlock g _ => okGroup g
  | .shtArm h g => okRing64 h && okByte g
  | .shtDisarm h g => okRing64 h && okByte g
  | .shtTrigger h g => okRing64 h && okByte g
  | .shtFetch h _ off _ _ _ => okRing64 h && okOffset off
  | .shtRelease h _ => okRing64 h
  | .swgBlockCode client _ _ => okClient client
  | .swgOpen h ctx _ _ _ => okRing64 h && okByte ctx
  | .swgBuf h ctx _ _ _ => okRing64 h && okByte ctx
  | .swgFeed h ctx _ _ _ _ => okRing64 h && okByte ctx
  | .swgFlush h ctx => okRing64 h && okByte ctx
  | .swgClose h ctx => okRing64 h && okByte ctx
  | .swgCloseAbort h ctx => okRing64 h && okByte ctx
  | .standbyDelayedSend => true
  | .sealDatagram set => okSet set
  | .brazeFrameReceived f => okBrzPort f.port && okDevice f.src && okDevice f.dst
  | .brzHeartbeatTx => true
  | .brzLinkDown port dev => okBrzPort port && okDevice dev
  | .brzAlarmRetransmit => true
  | .brzTimeSyncTx dev => okDevice dev
  | .brzTimeReqTx => true
  | .twinStateTx => true
  | .twinTakeover => true
  | .twinChecks _ => true
  | .brazeKeyGraceEnd slot => okSlot slot
  | .brzSwap h => okRing64 h
  | .flgFrameReceived _ => true
  | .flgBeacon => true
  | .flgBackoff _ => true
  | .flgAckTurnaround => true
  | .flgAckTimeout => true
  | .flgHeldFrameExpiry => true
  | .flgNodeLost n => okNode n
  | .flgParentBeaconMissed => true
  | .flgFloodRelay => true
  | .flgSeenExpiry => true
  | .rlpSfdEdge => true
  | .rlpSfdTimeout => true
  | .rlpResetEnd => true
  | .flgSend h node _ _ _ _ _ => okRing64 h && okHalf node
  | .flgDisassoc h node => okRing64 h && okHalf node
  | .hstPoll _ => true
  | .hstKick => true
  | .hstEnable => true
  | .ringEnable n _ _ => okRing n
  | .ringDisable n _ => okRing n
  | .msixCoalesceExpiry n => okComplRing n
  | .msixUnmask v => okVector v
  | .hstNop h => okRing64 h
  | .hstTxFrame h pair _ _ _ _ => okRing64 h && okByte pair
  | .spqFlush h q => okRing64 h && okByte q
  | .spqFlushDone q => okQueue q
  | .spqDropRem h q => okRing64 h && okByte q
  | .spqDrain q _ => okQueue q
  | .spqPopHdr q _ => okQueue q
  | .spqPopStallEnd q => okQueue q
  | .spqPopData q _ => okQueue q
  | .spqEnable q _ _ => okQueue q
  | .spqDisable q => okQueue q
  | .keyGenerate h a => okRing64 h && okKeyArgs a
  | .keyImport h a tslot _ _ => okRing64 h && okKeyArgs a && okSlot tslot
  | .keyJournalFlip slot _ => okSlot slot
  | .keyDestroy h slot => okRing64 h && okHalf slot
  | .keyPublic h slot _ _ => okRing64 h && okHalf slot
  | .hlmAttest h slot _ _ _ => okRing64 h && okHalf slot
  | .hlmCert h _ _ _ => okRing64 h
  | .keyUpdate h _ => okRing64 h
  | .provision _ => true
  | .advance _ => true
  | .return_ _ => true
  | .scrap _ => true
  | .reseal _ => true
  | .rotateAuthority _ => true
  | .debugOpen _ => true
  | .reblank _ => true
  | .actWrite h target ctx word _ => okRing64 h && okByte target && okByte ctx && okByte word
  | .actWriteSlotRange h ctx _ => okRing64 h && okByte ctx
  | .actWriteLock h _ => okRing64 h
  | .rngHealthFail => true
  | .mkaSakInstall port sa _ _ _ => okPort port && okAssociation sa
  | .proofLogCommit _ => true
  | .plgTokenRefill code => okRecordCode code
  | .timeAnchor => true
  | .plgCursorWrite _ => true
  | .plgNext _ => true
  | .plgRead h _ _ _ _ _ => okRing64 h
  | .plgClear h => okRing64 h
  | .plgSeal h _ _ _ => okRing64 h
  | .idRead h _ _ => okRing64 h
  | .memScrub _ => true
  | .tbuStep h mode _ _ _ => okRing64 h && okByte mode
  | .tbuLeap h v => okRing64 h && okByte v
  | .tbuSnap _ => true
  | .tbuRateWrite _ _ => true
  | .servoDisable _ => true
  | .rearmStep _ => true
  | .tevArm n _ => okComparator n
  | .rcRead off => okOffset off
  | .latchedGroupRead off => okOffset off
  | .registerWrite off be _ => okOffset off && okByteEnables be
  | .backupDomainSupplyLost => true
  | .leapOccurredExpiry => true
  | .debugInstruction _ => true
  | .almTurnOnSuccess n => okAlarmPin n
  | .resOvervoltageEnd _ => true
  | .resCheckBleedDone _ => true

end Sys2Proof
end

