-- ==== Sys2Proof/Certificates/Slice0/Obligations.lean ====
section
/-! DEFINITION. The statements about the block, for the provers. A conjunction names several commands of one family; each of
its parts says that a command completes, under hypotheses on the state and the operands alone, and what its next state is. -/

open Sys2Proof Sys2Proof.Machine

/-! ### One step -/

/-- A step takes the command at the front of the queue and runs its meaning with the rest of the queue. -/
def Obligations.StepTakesTheFront : Prop :=
  ∀ (c : Instr) (rest : List Instr) (s : State), s.pending = c :: rest → step s = exec c { s with pending := rest }

/-- With no command waiting a nanosecond passes (the model's choice, log entry 3): the raw counter advances while the main
domain is on, the backup real-time counter while the backup domain has a supply, and neither moves in OFF; non-volatile memory,
the fuses and the queue stay. -/
def Obligations.IdleStepIsATick : Prop :=
  ∀ s : State, s.pending = [] →
    ∃ t, step s = .next t ∧ t.dev.raw = (if s.dev.op.mainOn then s.dev.raw + 1 else s.dev.raw) ∧
      t.bd.rtcNs = (if s.dev.op = .off then s.bd.rtcNs else s.bd.rtcNs + 1) ∧ t.dev.op = s.dev.op ∧
      t.bd = { s.bd with rtcNs := t.bd.rtcNs } ∧ t.nv = s.nv ∧ t.fuse = s.fuse ∧ t.pending = []

/-! ### The whole machine -/

/-- No command changes the queue of waiting commands or what is fixed at manufacture. -/
def Obligations.NoCommandMovesQueueOrFuses : Prop :=
  ∀ (c : Instr) (s t : State), exec c s = .next t → t.pending = s.pending ∧ t.fuse = s.fuse

/-- Every command goes on: in no state does one fault, and none is refused by the model. -/
def Obligations.EveryCommandGoesOn : Prop := ∀ (c : Instr) (s : State), GoesOn (exec c s)

/-- The proof log is whole at reset. -/
def Obligations.LogWholeAtReset : Prop := State.reset.nv.LogWhole

/-- Every step keeps the proof log whole: whatever the state, if its two partitions hold records of consecutive numbers up
to the last one given, so do those of the next state. -/
def Obligations.StepKeepsLogWhole : Prop :=
  ∀ s t : State, s.nv.LogWhole → step s = .next t → t.nv.LogWhole

/-- Nothing that protects against replay goes back: over a step the update counter, the image's security version, the
power-cycle counter and the record numbers of both partitions never fall, as long as the power-cycle counter fits its 24 bits,
which every step keeps. -/
def Obligations.StepNeverGoesBack : Prop :=
  ∀ s t : State, s.nv.pcc ≤ 0xFFFFFF → step s = .next t → NeverBack s.nv t.nv ∧ t.nv.pcc ≤ 0xFFFFFF

/-- What reset leaves: BOOT with cause 1, no time source selected, `SYNC` FREERUN, every ring disabled and every queue empty, nothing
staged or committed, no key in the working plate and no command waiting. -/
def Obligations.ResetIsBoot : Prop :=
  State.reset.dev.op = .boot ∧ State.reset.dev.tbu.sync = 0 ∧ State.reset.dev.tbu.src = 0 ∧ State.reset.dev.spq = [] ∧
    State.reset.dev.stg = [] ∧ State.reset.dev.act = [] ∧ State.reset.dev.key.plate = [] ∧ State.reset.pending = [] ∧
    (∀ n, n < 128 → (State.reset.dev.ringCtrl n).bit 0 = false) ∧ State.reset.dev.reg Reg.RST_CAUSE = 1

/-! ### Supplies, resets and the passes through BOOT (chapter 14) -/

/-- The four ways in which the main domain restarts complete with a pass through BOOT that carries its own cause: power-up from
OFF and BACKUP (1), `POR_N` (2), `DEV_RESET` (3, after its completion), a brown-out (5). OFF and BACKUP: `VBAT` makes OFF BACKUP, its loss makes BACKUP OFF and empties the backup domain (no vault root, no journal,
no latch), and a change of its source changes nothing else. -/
def Obligations.SuppliesAndRestarts : Prop :=
  ((∀ s : State, s.dev.op = .off ∨ s.dev.op = .backup → Completes .powerUp s (State.BootBegun 1 s)) ∧
  (∀ s : State, s.dev.op.mainOn = true → Completes .porNReset s (State.BootBegun 2 s)) ∧
  (∀ s : State, s.dev.op.mainOn = true → Completes .brownout s (State.BootBegun 5 s)) ∧
  (∀ (h : CmdHdr) (s : State), s.dev.Admits h 0x04 [] true [.config, .run, .degraded, .safe] →
    Completes (.devReset h) s (State.BootBegun 3 s))) ∧
  ((∀ s : State, s.dev.op = .off → Completes .vbatApplied s (fun t =>
    t = { s with bd := { s.bd with onVbat := true }, dev := { s.dev with op := .backup } })) ∧
  (∀ s : State, s.dev.op = .backup → Completes .backupDomainSupplyLost s (fun t =>
    t = { s with bd := Bd.fresh, dev := { s.dev with op := .off } } ∧ t.bd.root = none ∧ t.bd.journal = [] ∧ t.bd.causes = 0)) ∧
  (∀ (v : Bool) (s : State), Completes (.backupSwitchover v) s (fun t => t = { s with bd := { s.bd with onVbat := v } })))

/-- The board's input: below `UV_MV` the reservoir is switched in and the dip's start is kept; a recovery within the filter time
is counted and shown as a dip; low for the whole filter time, HOLDUP is entered and the backup domain notes it. Nothing of
non-volatile memory changes. The last gasp: HOLDUP ends in BOOT with cause 4 when the supply is valid again, and in BACKUP when it is not; SAFE, when its
supply is lost, does the same last work and switches off. The last work zeroizes the plate and clears the HOLDUP-in-progress
bit, so that none of it is found at the next BOOT. -/
def Obligations.InputLossAndLastGasp : Prop :=
  ((∀ (mv : Nat) (s : State), s.dev.op.mainOn = true → s.dev.resEn = true → s.dev.pwr.vinLow = none →
    mv < s.dev.fld Reg.PWR_VIN 0 16 → Completes (.vinUndervoltage mv) s (fun t => s.MainOnly t ∧
      t.dev.pwr = { s.dev.pwr with vinMv := mv, vinLow := some s.dev.raw } ∧ t.dev.out = .resSwitch true :: s.dev.out ∧
      t.dev.fld Reg.PWR_STATUS 0 2 = 2 ∧ ∀ off, off ≠ Reg.PWR_STATUS → t.dev.reg off = s.dev.reg off)) ∧
  (∀ s : State, s.dev.pwr.vinLow.isSome = true → s.dev.vinLost = false → s.dev.op.mainOn = true → s.dev.op ≠ .holdup →
    Completes .supplyDipEnd s (fun t => s.MainOnly t ∧ t.dev.pwr = { s.dev.pwr with vinLow := none } ∧
      t.dev.reg Reg.PWR_DIPS = (s.dev.reg Reg.PWR_DIPS).satAdd 1 ∧ t.dev.rbit Reg.PWR_EVT 0 = true ∧
      Dev.Keeps (inBlock 0x20100 0x20140) { s.dev with pwr := t.dev.pwr } t.dev)) ∧
  (∀ s : State, legalCRD.contains s.dev.op = true → s.dev.resEn = true → s.dev.vinLost = true →
    Completes .supplyLost s (fun t => t.bd.holdup = true ∧ t.bd.root = s.bd.root ∧ t.nv = s.nv ∧
      t.dev = (if s.dev.tbu.sync = 2 then s.copyRtc else s).dev.enterHoldup ∧
      t.bd.rtcNs = (if s.dev.tbu.sync = 2 then s.dev.tick.toNat else s.bd.rtcNs)))) ∧
  ((∀ s : State, s.dev.op = .holdup → Completes (.lastGaspComplete true) s (fun t =>
    t.dev.op = .boot ∧ t.dev.reg Reg.RST_CAUSE = 4 ∧ t.bd.holdup = false ∧ t.dev.key.plate = [] ∧ t.fuse = s.fuse ∧
      t.bd.root = s.bd.root)) ∧
  (∀ s : State, s.dev.op = .holdup → Completes (.lastGaspComplete false) s (fun t =>
    t.dev.op = .backup ∧ t.bd.holdup = false ∧ t.bd.onVbat = true ∧ t.dev.key.plate = [] ∧ t.fuse = s.fuse ∧ t.bd.root = s.bd.root)) ∧
  (∀ s : State, s.dev.op = .safe → s.dev.resEn = true → s.dev.vinLost = true → Completes .safeSupplyLost s (fun t =>
    t.dev.op = .backup ∧ t.bd.holdup = false ∧ t.dev.key.plate = [] ∧ t.bd.root = s.bd.root)))

/-- The reservoir: a reading is stored and shown, above 16.5 V it bleeds and below 16.0 V the bleed ends. The check of the reservoir: it starts with the bleed on and charging stopped, and once 1.0 V has gone it recharges. -/
def Obligations.ReservoirStatements : Prop :=
  ((∀ (mv : Nat) (s : State), legalCRD.contains s.dev.op = true → s.dev.resEn = true →
    Completes (.resChargeControl mv none) s (fun t => s.MainOnly t ∧ t.dev.pwr = { s.dev.pwr with resMv := mv } ∧
      t.dev.fld Reg.PWR_RES_V 0 16 = min 65535 mv ∧
      Dev.Keeps (inBlock 0x20100 0x20140) { s.dev with pwr := t.dev.pwr } t.dev)) ∧
  (∀ (mv : Nat) (s : State), s.dev.op.mainOn = true → 16500 < mv →
    Completes (.resOvervoltage mv) s (fun t => s.MainOnly t ∧ t.dev.pwr.ovEp = true ∧ t.dev.pwr.bleed = true ∧ t.dev.pwr.resMv = mv ∧
      t.dev.rbit Reg.PWR_STATUS 6 = true ∧ (s.dev.pwr.ovEp = false → t.dev.rbit Reg.PWR_EVT 2 = true) ∧
      Dev.Keeps (inBlock 0x20100 0x20140) { s.dev with pwr := t.dev.pwr } t.dev)) ∧
  (∀ (mv : Nat) (s : State), s.dev.pwr.ovEp = true → mv < 16000 →
    Completes (.resOvervoltageEnd mv) s (fun t => s.MainOnly t ∧ t.dev.pwr.ovEp = false ∧ t.dev.pwr.resMv = mv ∧
      t.dev.rbit Reg.PWR_STATUS 6 = false ∧ (s.dev.pwr.check = none → t.dev.pwr.bleed = false) ∧
      Dev.Keeps (inBlock 0x20100 0x20140) { s.dev with pwr := t.dev.pwr } t.dev))) ∧
  ((∀ (h : CmdHdr) (s : State), s.dev.Admits h 0xD1 [] true legalCRD → s.dev.resEn = true → s.dev.pwr.check = none →
    s.dev.rbit Reg.PWR_STATUS 1 = false → Completes (.pwrResCheck h) s (fun t => s.MainOnly t ∧
      t.dev.pwr.check = some { hdr := h, startRaw := s.dev.raw, startMv := s.dev.pwr.resMv, bleeding := true } ∧
      t.dev.pwr.bleed = true ∧ t.dev.rbit Reg.PWR_STATUS 7 = true ∧ t.dev.rbit Reg.PWR_STATUS 3 = false ∧
      Dev.Keeps (inBlock 0x20100 0x20140) { s.dev with pwr := t.dev.pwr } t.dev)) ∧
  (∀ (mv : Nat) (c : ResCheck) (s : State), s.dev.pwr.check = some c → c.bleeding = true → mv + 1000 ≤ c.startMv →
    Completes (.resCheckBleedDone mv) s (fun t => s.MainOnly t ∧ t.dev.pwr.check = some { c with bleeding := false } ∧
      t.dev.pwr.resMv = mv ∧ t.dev.pwr.bleed = s.dev.pwr.ovEp ∧
      Dev.Keeps (inBlock 0x20100 0x20140) { s.dev with pwr := t.dev.pwr } t.dev)))

/-- The Annealer: a cap outside 50 to 150 completes with `BAD_ARG`, another waits for the next period; at a period in HOLDUP the
forecast and the floor show, and the grants stay; at another period the Annealer takes its decision and then the P5 commands in turn. -/
def Obligations.AnnealerCapAndPeriod : Prop :=
  (∀ (h : CmdHdr) (cap : Nat) (s : State), s.dev.Admits h 0xD0 [] true legalCRD → 50 ≤ cap → cap ≤ 150 →
    Completes (.anlCapSet h cap) s (fun t =>
      t = { s with dev := { s.dev with anl := { s.dev.anl with pendCap := s.dev.anl.pendCap ++ [(h, cap)] } } })) ∧
  (∀ (h : CmdHdr) (cap : Nat) (s : State), s.dev.Admits h 0xD0 [] true legalCRD → cap < 50 ∨ 150 < cap →
    Completes (.anlCapSet h cap) s (fun t => t = { s with dev := s.dev.complete h 0xD0 2 [] } ∧ Dev.Keeps noReg s.dev t.dev)) ∧
  (∀ (a : AnnealerInput) (s : State), s.dev.op = .holdup → s.dev.mgmt.restart = false → s.dev.anl.p5wait = [] →
    Completes (.annealerPeriod a) s (fun t => s.MainOnly t ∧
      t.dev.reg Reg.ANL_POWER = BitVec.ofNat 32 (min 65535 a.forecast) ∧ t.dev.reg Reg.ANL_FLOOR = BitVec.ofNat 32 (min 65535 a.floor) ∧
      t.dev.anl.step = s.dev.anl.step ∧ t.dev.anl.p2 = s.dev.anl.p2)) ∧
  (∀ (a : AnnealerInput) (s : State), legalCRD.contains s.dev.op = true ∨ s.dev.op = .safe → s.dev.mgmt.restart = false →
    Completes (.annealerPeriod a) s (fun t => t = (s.mapDev (Dev.period a)).p5Period a))

/-! ### Device commands, resets and faults (chapters 1, 12, 13, 14) -/

/-- Starting and stopping the data plane: `DEV_START` is the start of the plane and its completion with `OK`; `DEV_STOP` withdraws
the pending commits and completes only when `DEV_STOP_DONE` finds the plane idle; a second `DEV_STOP` before that is refused. -/
def Obligations.PlaneStartsAndStops : Prop :=
  (∀ (h : CmdHdr) (s : State), s.dev.Admits h 0x02 [] true [.config] → Completes (.devStart h) s (fun t =>
    t.dev = s.dev.startPlane.complete h 0x02 0 [] ∧ t.bd = s.bd ∧ t.nv = { s.nv with hopCtr := t.nv.hopCtr } ∧ s.nv.hopCtr ≤ t.nv.hopCtr)) ∧
  (∀ (h : CmdHdr) (s : State), s.dev.Admits h 0x03 [] true [.run, .degraded] → s.dev.host.stopping = none →
    Completes (.devStop h) s (fun t => s.MainOnly t ∧ t.dev.host.stopping = some h)) ∧
  (∀ (h k : CmdHdr) (s : State), s.dev.Admits h 0x03 [] true [.run, .degraded] → s.dev.host.stopping = some k →
    Completes (.devStop h) s (fun t => s.MainOnly t ∧ t.dev = s.dev.refuse h 0x03 6 1 0xFFFF [] ∧ Dev.Keeps noReg s.dev t.dev)) ∧
  (∀ (h : CmdHdr) (s : State), s.dev.host.stopping = some h → s.dev.op.running = true → Completes .devStopDone s (fun t =>
    t.dev = ({ s.dev.stopPlane with host := { s.dev.stopPlane.host with stopping := none } } : Dev).complete h 0x03 0 [] ∧ t.bd = s.bd))

/-- A function-level reset and `PERST`: no fetched command completes any more, no queue holds anything, no vector is unmasked or
pending, polling stops, every register of the host interface and of the spill queues reads its reset value, and both views are
the staged one; the backup domain and non-volatile memory stay. The management watchdog: an expiry is counted, up to all ones of the field, and the cluster restarts; the end of the restart
leaves no expiry waiting. The raw counter's check, when it holds, shows its reference and does nothing else. -/
def Obligations.HostResetAndWatchdog : Prop :=
  (∀ (c : Instr) (s : State), c = .functionLevelReset ∨ c = .pciePerst → s.dev.op.mainOn = true →
    Completes c s (fun t => s.MainOnly t ∧ t.dev.host.fetched.all (fun f => f.noCqe) = true ∧ t.dev.spq = [] ∧
      t.dev.host.polling = false ∧ t.dev.host.unmasked = [] ∧ t.dev.host.pendBits = [] ∧
      (∀ off, 0x120000 ≤ off → off < 0x140000 → t.dev.reg off = porOf off) ∧
      t.dev.rbit Reg.STM_CTRL 0 = false ∧ t.dev.rbit Reg.SFL_CTRL 0 = false)) ∧
  ((∀ s : State, s.dev.op.mainOn = true → s.dev.mgmt.lastWdt = none → Completes .mgmtWatchdogExpiry s (fun t => s.MainOnly t ∧
    t.dev.mgmt = { restart := true, lastWdt := some s.dev.raw, wdtPosts := s.dev.mgmt.wdtPosts + 1 } ∧
    t.dev.fld Reg.RST_WDT 0 16 = min 65535 (s.dev.fld Reg.RST_WDT 0 16 + 1) ∧
    Dev.Keeps (fun off => off == Reg.RST_WDT) { s.dev with mgmt := t.dev.mgmt } t.dev)) ∧
  (∀ s : State, s.dev.mgmt.restart = true → Completes .mgmtRestartDone s (fun t => s.MainOnly t ∧
    t.dev.mgmt = { s.dev.mgmt with restart := false, wdtPosts := 0 } ∧ Dev.Keeps noReg { s.dev with mgmt := t.dev.mgmt } t.dev)) ∧
  (∀ (n : Nat) (s : State), s.dev.op.mainOn = true → 999500000 ≤ n → n ≤ 1000500000 →
    Completes (.rawCounterCheck n true) s (fun t => t = { s with dev := s.dev.setField Reg.CLK_STATUS 0 1 1 })))

/-- A tamper that a live source detects: the vault root is zeroed, the cause enters the latch, the latch counts up to 255, `BACKUP`
is set when the main domain is off, the time of the first cause is kept, and the working plate is empty. Its journal and
non-volatile memory stay. The working plate is empty after a tamper in BACKUP and in SAFE, and nothing of the operating state changes there. -/
def Obligations.Tampers : Prop :=
  (∀ (src : TamperSrc) (s : State), s.dev.op ≠ .off → s.tamperLive src = true → Completes (.tamperDetected src) s (fun t =>
    t.bd.root = none ∧ t.bd.causes = s.bd.causes ||| 2 ^ tamperBit src ∧ t.bd.count = min 255 (s.bd.count + 1) ∧
    t.bd.backup = (s.bd.backup || !s.dev.op.mainOn) ∧
    t.bd.time = (if s.bd.causes = 0 then s.bd.rtcNs / 1000000000 else s.bd.time) ∧ t.dev.key.plate = [] ∧ t.bd.journal = s.bd.journal ∧ t.nv = s.nv ∧
    t.dev = s.dev.tamper)) ∧
  (∀ (src : TamperSrc) (s : State), s.dev.op = .backup ∨ s.dev.op = .safe → s.tamperLive src = true →
    Completes (.tamperDetected src) s (fun t => t.dev.op = s.dev.op ∧ t.dev.reason = s.dev.reason ∧ t.dev.key.plate = [] ∧
      t.dev.reg = s.dev.reg ∧ t.bd.root = none))

/-- BOOT: whatever it meets, a pass through BOOT leaves the boot security version at least as high, and the life cycle and the update
counter as they were; a pass that finds no image it accepts, with the latch clear, ends in SAFE with reason 4 and an empty plate. -/
def Obligations.BootEnds : Prop :=
  (∀ (r : BootReport) (s : State), s.dev.op = .boot → Completes (.bootComplete r) s (fun t =>
    t = s.boot r ∧ s.nv.bootSvn ≤ t.nv.bootSvn ∧ t.nv.lc = s.nv.lc ∧ t.nv.updCtr = s.nv.updCtr)) ∧
  (∀ (r : BootReport) (s : State), s.dev.op = .boot → s.bd.causes = 0 → s.bd.root.isSome = true → bootImage? s.nv.bootSvn r = none →
    Completes (.bootComplete r) s (fun t => t.dev.op = .safe ∧ t.dev.reason = 4 ∧ t.dev.key.plate = []))

/-- Update messages from the flash area: in BOOT, a message of the row's type whose checks all hold takes effect, its counter
becomes the update counter, and the life cycle moves as Table 13.11 gives; a stale one changes nothing of non-volatile memory. A message by command: refused with `STATE_REFUSED` where the path, the signer or the life cycle does not take its type,
`BAD_ARG` with the check's number for the other checks, and the update counter stays in both cases; accepted, it completes with
`OK`, and types 1 to 5 go through BOOT with cause 6. -/
def Obligations.UpdateMessages : Prop :=
  (∀ (typ : Nat) (m : UpdateMsg) (c : Instr) (s : State),
    (typ, c) ∈ [(1, Instr.provision m), (2, .advance m), (3, .return_ m), (4, .scrap m), (5, .reseal m), (6, .rotateAuthority m),
      (7, .debugOpen m), (8, .reblank m)] → s.dev.op = .boot → m.typ = typ →
    (msgReason s.fuse s.nv true .boot m = 0 → Completes c s (fun t => t.nv.updCtr = m.counter.toNat ∧ t.nv.lc = msgNext s.nv.lc typ ∧
      (typ ≤ 5 ∨ typ = 8 → t.nv.store = [] ∧ t.nv.gens = []) ∧ (typ = 6 ∨ typ = 7 → t.nv.store = s.nv.store ∧ t.nv.gens = s.nv.gens) ∧
      (typ = 3 ∨ typ = 4 → t.bd.root = none) ∧ (typ = 1 ∨ typ = 5 → t.bd.root.isSome = true ∧ t.nv.vaultGen = s.nv.vaultGen + 1) ∧
      (typ = 5 → t.bd.causes = 0) ∧ t.nv.gen = s.nv.gen ∧ t.nv.sec = s.nv.sec)) ∧
    (msgReason s.fuse s.nv true .boot m = 5 → Completes c s (fun t =>
      t = { s with dev := s.dev.bump Reg.TMP_UPD_STALE 1 }))) ∧
  ((∀ (h : CmdHdr) (m : UpdateMsg) (r : Nat) (s : State), s.dev.Admits h 0xA6 [] true legalCRD → m.memErr = false →
    msgReason s.fuse s.nv false s.dev.op m = r → r ≠ 0 → r ≠ 6 → Completes (.keyUpdate h m) s (fun t => s.MainOnly t ∧
      t.dev = (s.msgNote m r false).dev.complete h 0xA6 2 [0, 0, BitVec.ofNat 32 r])) ∧
  (∀ (h : CmdHdr) (m : UpdateMsg) (s : State), s.dev.Admits h 0xA6 [] true legalCRD → m.memErr = false →
    msgReason s.fuse s.nv false s.dev.op m = 6 → Completes (.keyUpdate h m) s (fun t => s.MainOnly t ∧
      t.dev = (s.msgNote m 6 false).dev.refuse h 0xA6 6 1 0xFFFF [0, 0, 6])) ∧
  (∀ (h : CmdHdr) (m : UpdateMsg) (s : State), s.dev.Admits h 0xA6 [] true legalCRD → m.memErr = false → s.dev.key.rngFail = false →
    m.typ ≤ 5 → msgReason s.fuse s.nv false s.dev.op m = 0 → Completes (.keyUpdate h m) s (fun t =>
      t.dev.op = .boot ∧ t.dev.reg Reg.RST_CAUSE = 6 ∧ t.nv.updCtr = m.counter.toNat ∧ t.nv.lc = msgNext s.nv.lc m.typ ∧
      t.nv.store = [] ∧ t.dev.key.plate = [])))

/-! ### The Time Base Unit (chapter 2) -/

/-- Slot strobes fire in order, once derived time has reached the slot time of R51: the next slot of the rate is then k + 1.
Outside the states in which the alarm path runs, with no set of the slot open, that is all; a pre-slot strobe, 12 µs earlier, does
nothing else in any state. Time-event comparators: one that is armed with a target ahead waits for it; the one that reaches its target in single mode,
with no destination, counts once and disarms; a pulse ends at its time with the pin at its idle level. -/
def Obligations.StrobesAndTimedEvents : Prop :=
  ((∀ (rc k : Nat) (s : State), s.dev.op.mainOn = true → rc < 12 → KMap.getD s.dev.tbu.nextSlot rc 0 = k →
    (slot16 (rateOf rc) k : Nat) ≤ s.dev.t16 → Completes (.slotStrobe rc k) s (fun t => s.MainOnly t ∧
      t.dev = ({ s.dev with tbu := { s.dev.tbu with nextSlot := KMap.put s.dev.tbu.nextSlot rc (k + 1) } } : Dev).strobe rc k ∧
      (s.dev.op.alarm = false → s.dev.eas.sets = [] →
        t.dev = { s.dev with tbu := { s.dev.tbu with nextSlot := KMap.put s.dev.tbu.nextSlot rc (k + 1) } }))) ∧
  (∀ (rc k : Nat) (s : State), s.dev.op.mainOn = true → rc < 12 → KMap.getD s.dev.tbu.nextPre rc 0 = k →
    (slot16 (rateOf rc) k : Nat) ≤ s.dev.t16 + 12000 * 65536 → Completes (.preSlotStrobe rc k) s (fun t =>
      t = { s with dev := { s.dev with tbu := { s.dev.tbu with nextPre := KMap.put s.dev.tbu.nextPre rc (k + 1) } } }))) ∧
  ((∀ (n : Nat) (v : Word) (s : State) (ahead : Int), s.dev.writable = true → n < 8 → v.bit 0 = true →
    s.dev.rbit (Reg.TBU_TEV_CTRL n) 0 = false →
    ahead = signedOf 40 ((((s.dev.fld (Reg.TBU_TEV_TARGET_HI n) 0 8 * 4294967296 + (s.dev.reg (Reg.TBU_TEV_TARGET_LO n)).toNat : Nat) : Int)
      - s.dev.tick) % 1099511627776).toNat → 0 < ahead → Completes (.tevArm n v) s (fun t => s.MainOnly t ∧
        KMap.get? t.dev.tbu.tevs n = some { first := (s.dev.tick + ahead) * 65536, target := (s.dev.tick + ahead) * 65536, base := (s.dev.tick + ahead) * 65536 } ∧
        t.dev.rbit (Reg.TBU_TEV_CTRL n) 0 = true ∧ (∀ off, off ≠ Reg.TBU_TEV_CTRL n → t.dev.reg off = s.dev.reg off) ∧
        t.dev = { s.dev with regs := t.dev.regs, tbu := t.dev.tbu })) ∧
  (∀ (n : Nat) (s : State), s.dev.op.mainOn = true → s.dev.tevDue n = true → s.dev.fld (Reg.TBU_TEV_CTRL n) 4 4 = 0 →
    s.dev.tevMode n = 0 → Completes (.tevFire n) s (fun t => s.MainOnly t ∧ KMap.get? t.dev.tbu.tevs n = none ∧
      t.dev.reg (Reg.TBU_TEV_COUNT n) = s.dev.reg (Reg.TBU_TEV_COUNT n) + 1 ∧ t.dev.rbit (Reg.TBU_TEV_CTRL n) 0 = false ∧
      (∀ off, off ≠ Reg.TBU_TEV_CTRL n → off ≠ Reg.TBU_TEV_COUNT n → t.dev.reg off = s.dev.reg off) ∧
      t.dev = { s.dev with regs := t.dev.regs, tbu := t.dev.tbu })) ∧
  (∀ (n : Nat) (s : State), s.dev.op.mainOn = true → s.dev.tevDue n = true → Completes (.tevFire n) s (fun t =>
    t = { s with dev := s.dev.tevFire n false })) ∧
  (∀ (n e : Nat) (s : State), KMap.get? s.dev.tbu.pins n = some e → e ≤ s.dev.raw → Completes (.tevPulseEnd n) s (fun t =>
    t = { s with dev := { s.dev with tbu := { s.dev.tbu with pins := KMap.del s.dev.tbu.pins n }
                                     out := .timedPin n (s.dev.rbit (Reg.TBU_TEV_CTRL n) 3) :: s.dev.out } })))

/-- A change of rate never moves derived time: whatever the rate set, derived time at that raw count is as before. Derived time between two changes: n raw counts later, at the same rate, it is later by n × (2^48 + rate) units of 2^-48 ns. -/
def Obligations.DerivedTimeIsContinuous : Prop :=
  (∀ (r : Int) (d : Dev), (d.setRate r).derived = d.derived) ∧
  (∀ (n : Nat) (d : Dev), ({ d with raw := d.raw + n } : Dev).derived = d.derived + n * (281474976710656 + d.tbu.rate))

/-- A write of the rate while the servo is off sets the byte or the word written and keeps the other part, derived time goes on
from where it was; while the servo is on it changes nothing. A snapshot holds the raw count, and seconds, nanoseconds and 2^-16 fraction of derived time, of one instant. Writes of `TBU_CTRL`: turning the servo off drops the phase term, so that the rate is the frequency estimate and derived time
goes on; a 1 in `REARM_STEP` arms the automatic step. -/
def Obligations.TimeBaseWrites : Prop :=
  (∀ (hi : Bool) (v : Word) (s : State), s.dev.writable = true →
    (s.dev.rbit Reg.TBU_CTRL 0 = false → Completes (.tbuRateWrite hi v) s (fun t => s.MainOnly t ∧
      t.dev.tbu.rate = signedOf 40 (if hi then (s.dev.tbu.rate % 1099511627776).toNat % 4294967296 + v.field 0 8 * 4294967296
        else (s.dev.tbu.rate % 1099511627776).toNat / 4294967296 * 4294967296 + v.toNat) ∧
      t.dev.derived = s.dev.derived ∧ t.dev.reg = s.dev.reg ∧ t.dev = { s.dev with tbu := t.dev.tbu })) ∧
    (s.dev.rbit Reg.TBU_CTRL 0 = true → Completes (.tbuRateWrite hi v) s (fun t => t = s))) ∧
  (∀ (v : Word) (s : State), s.dev.writable = true → v.bit 0 = true → Completes (.tbuSnap v) s (fun t => s.MainOnly t ∧
    t.dev.reg Reg.TBU_SNAP_RAW_LO = lo32 s.dev.raw ∧ t.dev.reg Reg.TBU_SNAP_RAW_HI = hi32 s.dev.raw ∧
    t.dev.reg Reg.TBU_SNAP_SEC_LO = lo32 (s.dev.tick / 1000000000).toNat ∧
    t.dev.reg Reg.TBU_SNAP_SEC_HI = BitVec.ofNat 32 ((s.dev.tick / 1000000000).toNat / 4294967296 % 65536) ∧
    t.dev.reg Reg.TBU_SNAP_NS = BitVec.ofInt 32 (s.dev.tick % 1000000000) ∧
    t.dev.reg Reg.TBU_SNAP_FRAC = BitVec.ofInt 32 (s.dev.t16 % 65536) ∧
    (∀ off, off ∉ [Reg.TBU_SNAP_RAW_LO, Reg.TBU_SNAP_RAW_HI, Reg.TBU_SNAP_SEC_LO, Reg.TBU_SNAP_SEC_HI, Reg.TBU_SNAP_NS,
      Reg.TBU_SNAP_FRAC] → t.dev.reg off = s.dev.reg off) ∧ t.dev = { s.dev with regs := t.dev.regs })) ∧
  ((∀ (v : Word) (s : State), s.dev.writable = true → s.dev.rbit Reg.TBU_CTRL 0 = true → v.bit 0 = false →
    Completes (.servoDisable v) s (fun t => s.MainOnly t ∧ t.dev.tbu.rate = clampRate s.dev.tbu.freq ∧ t.dev.tbu.slewing = false ∧
      t.dev.tbu.freq = s.dev.tbu.freq ∧ t.dev.derived = s.dev.derived ∧ t.dev.rbit Reg.TBU_CTRL 0 = false ∧
      (∀ off, off ≠ Reg.TBU_CTRL → t.dev.reg off = s.dev.reg off) ∧ t.dev = { s.dev with regs := t.dev.regs, tbu := t.dev.tbu })) ∧
  (∀ (v : Word) (s : State), s.dev.writable = true → v.bit 2 = true → Completes (.rearmStep v) s (fun t => s.MainOnly t ∧
    t.dev.tbu.armed = true ∧ t.dev.rbit Reg.TBU_CTRL 2 = true ∧ t.dev.derived = s.dev.derived ∧
    (∀ off, off ≠ Reg.TBU_CTRL → t.dev.reg off = s.dev.reg off) ∧ t.dev = { s.dev with regs := t.dev.regs, tbu := t.dev.tbu })))

/-- Steps by command: one with valid fields is decided for the next multiple of 1 ms and waits, one with a mode above 1, a relative
step of 0 or to before zero, or 10^9 ns and more completes with `BAD_ARG`; a step whose instant has come is applied. What a step does to time: derived time jumps by its whole nanoseconds, or to its target, the raw counter stays, the step epoch
goes on by one, the step is shown in `TBU_STEP_STAT`, and the offsets every source has kept are judged afresh. -/
def Obligations.StepsOfTime : Prop :=
  ((∀ (h : CmdHdr) (rel : Int) (sec ns : Nat) (s : State), s.dev.Admits h 0x10 [] true legalCRD → rel ≠ 0 → 0 ≤ s.dev.tick + rel →
    Completes (.tbuStep h 0 rel sec ns) s (fun t => s.MainOnly t ∧
      t.dev.tbu.stepDue.getLast? = some { ns := rel, target := none, host := true, hdr := some h, due := nextMs s.dev.raw } ∧
      t.dev = { s.dev with tbu := { s.dev.tbu with stepDue := t.dev.tbu.stepDue } })) ∧
  (∀ (h : CmdHdr) (rel : Int) (sec ns : Nat) (s : State), s.dev.Admits h 0x10 [] true legalCRD → ns < 1000000000 →
    Completes (.tbuStep h 1 rel sec ns) s (fun t => s.MainOnly t ∧
      t.dev.tbu.stepDue.getLast? = some { ns := rel, target := some ((sec : Int) * 1000000000 + ns), host := true, hdr := some h, due := nextMs s.dev.raw } ∧
      t.dev = { s.dev with tbu := { s.dev.tbu with stepDue := t.dev.tbu.stepDue } })) ∧
  (∀ (h : CmdHdr) (mode : Nat) (rel : Int) (sec ns : Nat) (s : State), s.dev.Admits h 0x10 [] true legalCRD →
    1 < mode ∨ (mode = 0 ∧ (rel = 0 ∨ s.dev.tick + rel < 0)) ∨ (mode = 1 ∧ 1000000000 ≤ ns) →
    Completes (.tbuStep h mode rel sec ns) s (fun t => t = { s with dev := s.dev.complete h 0x10 2 [] } ∧ Dev.Keeps noReg s.dev t.dev)) ∧
  (∀ (st : StepDue) (rest : List StepDue) (s : State), s.dev.tbu.stepDue = st :: rest → s.dev.op.mainOn = true → st.due ≤ s.dev.raw →
    Completes .timeStepApply s (fun t => t = { s with dev := s.dev.applyStep st }))) ∧
  (∀ (st : StepDue) (large : Bool) (d : Dev),
    (d.stepTbu st large).derived = (match st.target with | some t => t * 281474976710656 | none => d.derived + st.ns * 281474976710656) ∧
    (d.stepTbu st large).raw = d.raw ∧ (d.stepTbu st large).tbu.epoch = (d.tbu.epoch + 1) % 65536 ∧
    (d.stepTbu st large).rbit Reg.TBU_EVT 1 = true ∧
    (d.stepTbu st large).reg Reg.TBU_STEP_STAT = BitVec.ofNat 32 ((d.tbu.epoch + 1) % 65536 + (if st.ns < 0 then 65536 else 0)
      + (if large then 131072 else 0) + (if st.host then 262144 else 0)) ∧
    (d.stepTbu st large).tbu.srcs.all (fun p => p.2.offs.isEmpty) = true)

/-- Leap seconds: `TBU_LEAP` sets or cancels the pending one and is refused with `BAD_ARG` in the last second of the UTC day and for a
value above 2; at its instant the offset moves by one, the pending bit clears and the occurrence shows, until 24 h later. -/
def Obligations.LeapSeconds : Prop :=
  (∀ (h : CmdHdr) (v : Nat) (s : State), s.dev.Admits h 0x11 [] true legalCRD → 1 ≤ v → v ≤ 2 → s.dev.utcSecond % 86400 ≠ 86399 →
    s.dev.rbit Reg.TBU_UTC 8 = false → Completes (.tbuLeap h v) s (fun t => s.MainOnly t ∧ t.dev.rbit Reg.TBU_UTC 8 = true ∧
      t.dev.rbit Reg.TBU_UTC 9 = (v == 2) ∧ t.dev.fld Reg.TBU_UTC 0 8 = s.dev.fld Reg.TBU_UTC 0 8 ∧ t.dev.tbu.leapSrc = 0 ∧
      t.dev.tbu.leapDay = s.dev.utcSecond / 86400 ∧ Dev.Keeps (fun off => off == Reg.TBU_UTC) { s.dev with tbu := t.dev.tbu } t.dev)) ∧
  (∀ (h : CmdHdr) (s : State), s.dev.Admits h 0x11 [] true legalCRD → s.dev.utcSecond % 86400 ≠ 86399 →
    (s.dev.rbit Reg.TBU_UTC 8 = true → s.dev.tick < s.dev.leapTick - 1000000000) → Completes (.tbuLeap h 0) s (fun t =>
      s.MainOnly t ∧ t.dev.rbit Reg.TBU_UTC 8 = false ∧ Dev.Keeps (fun off => off == Reg.TBU_UTC) { s.dev with tbu := t.dev.tbu } t.dev)) ∧
  (∀ (h : CmdHdr) (v : Nat) (s : State), s.dev.Admits h 0x11 [] true legalCRD → 2 < v ∨ s.dev.utcSecond % 86400 = 86399 ∨
      (s.dev.rbit Reg.TBU_UTC 8 = true ∧ s.dev.leapTick - 1000000000 ≤ s.dev.tick) →
    Completes (.tbuLeap h v) s (fun t => t = { s with dev := s.dev.complete h 0x11 2 [] })) ∧
  (∀ s : State, s.dev.op.mainOn = true → s.dev.rbit Reg.TBU_UTC 8 = true → s.dev.leapTick ≤ s.dev.tick →
    Completes .leapSecond s (fun t => s.MainOnly t ∧
      t.dev.fld Reg.TBU_UTC 0 8 = ((utcOffset (s.dev.reg Reg.TBU_UTC) + (if s.dev.rbit Reg.TBU_UTC 9 then -1 else 1)) % 256).toNat ∧
      t.dev.rbit Reg.TBU_UTC 8 = false ∧ t.dev.rbit Reg.TBU_UTC 10 = true ∧ t.dev.rbit Reg.TBU_EVT 3 = true ∧
      t.dev.tbu.leapOccur = some s.dev.raw ∧ t.dev.derived = s.dev.derived ∧
      Dev.Keeps (fun off => off == Reg.TBU_UTC || off == Reg.TBU_EVT) { s.dev with tbu := t.dev.tbu } t.dev)) ∧
  (∀ (r : Nat) (s : State), s.dev.tbu.leapOccur = some r → r + 86400000000000 ≤ s.dev.raw → Completes .leapOccurredExpiry s (fun t =>
    t = { s with dev := ({ s.dev with tbu := { s.dev.tbu with leapOccur := none } } : Dev).setField Reg.TBU_UTC 10 1 0 }))

/-- Losing sources and holdover: a qualified reference that has been silent for three intervals is lost, another forgets its offsets;
in HOLDOVER the uncertainty shown grows as R70 gives it. References and the backup counter: a pulse waits for its sentence or, with `MSG_REFERS`, takes the one held; a sentence within
900 ms of its pulse gives a measurement; an IRIG-B frame gives one at once; once a second, while LOCKED, derived time is copied. -/
def Obligations.SourcesAndReferences : Prop :=
  ((∀ (n : Nat) (s : State), s.dev.op.mainOn = true → 2 ≤ n → n ≤ 4 → (s.dev.srcS n).lastRaw + 3000000000 ≤ s.dev.raw →
    Completes (.sourceLossTimeout n) s (fun t => s.MainOnly t ∧ t.dev = (if (s.dev.srcS n).qualified then s.dev.loseSrc n
      else s.dev.setSrc n { s.dev.srcS n with offs := [] }) ∧
      (s.dev.tbu.src ≠ n → (s.dev.srcS n).qualified = true → (t.dev.srcS n).qualified = false ∧ t.dev.tbu.src = s.dev.tbu.src))) ∧
  (∀ s : State, s.dev.op.mainOn = true → s.dev.tbu.sync = 3 → Completes .tbuUncertRefresh s (fun t => s.MainOnly t ∧
    t.dev.reg Reg.TBU_UNCERT = BitVec.ofNat 32 (min (s.dev.tbu.uLock + s.dev.fld Reg.TBU_HOLD 0 16 * (s.dev.raw - s.dev.tbu.lastAcc) / 1000000000) 0xFFFFFFFF) ∧
    (∀ off, off ≠ Reg.TBU_UNCERT → t.dev.reg off = s.dev.reg off) ∧ t.dev = { s.dev with regs := t.dev.regs }))) ∧
  ((∀ (f : Bool) (s : State), s.dev.op.mainOn = true → s.dev.rbit Reg.TBU_REFIN_CTRL 0 = true → s.dev.rbit Reg.TBU_REFIN_CTRL 1 = f →
    s.dev.rbit Reg.TBU_REFIN_CTRL 2 = false → Completes (.ppsEdge f) s (fun t => t = { s with dev := { s.dev with
      tbu := { s.dev.tbu with pps := some (s.dev.raw, s.dev.t16 - signedOf 32 (s.dev.reg Reg.TBU_PPS_DELAY).toNat * 65536) } } })) ∧
  (∀ (g : NmeaSentence) (s : State), s.dev.op.mainOn = true → s.dev.rbit Reg.TBU_REFIN_CTRL 0 = true → g.checksumOk = true →
    s.dev.rbit Reg.TBU_REFIN_CTRL 2 = true → Completes (.gnssSentence g) s (fun t =>
      t = { s with dev := { s.dev with tbu := { s.dev.tbu with ppsSec := some (s.dev.raw, g.utcSecond) } } })) ∧
  (∀ (g : NmeaSentence) (r : Nat) (e : Int) (s : State), s.dev.op.mainOn = true → s.dev.rbit Reg.TBU_REFIN_CTRL 0 = true →
    g.checksumOk = true → s.dev.rbit Reg.TBU_REFIN_CTRL 2 = false → s.dev.tbu.pps = some (r, e) → s.dev.raw ≤ r + 900000000 →
    Completes (.gnssSentence g) s (fun t => s.MainOnly t ∧
      t.dev = ({ s.dev with tbu := { s.dev.tbu with pps := none } } : Dev).refMeasure 2 e (g.utcSecond : Nat))) ∧
  (∀ (g : IrigFrame) (s : State), s.dev.op.mainOn = true → s.dev.rbit Reg.TBU_REFIN_CTRL 8 = true → g.ext = none →
    Completes (.irigFrame g) s (fun t => s.MainOnly t ∧
      t.dev = s.dev.refMeasure 3 (s.dev.t16 - signedOf 32 (s.dev.reg Reg.TBU_IRIG_DELAY).toNat * 65536) (s.dev.irigSecond g))) ∧
  (∀ s : State, s.dev.op.mainOn = true → s.dev.tbu.sync = 2 → s.dev.tbu.lastRtc + 1000000000 ≤ s.dev.raw →
    Completes .backupRtcCopy s (fun t => t.bd = { s.bd with rtcNs := s.dev.tick.toNat } ∧
      t.dev = { s.dev with tbu := { s.dev.tbu with lastRtc := s.dev.raw } } ∧ t.nv = s.nv)))

/-- Measurements and qualification: a source that is not qualified and has fewer offsets than `QUAL_INTERVALS` asks for keeps
them and stays unqualified; an offset outside the band, of a qualified source that is not the selected one, is counted, and the first
two in a row lose it nothing. -/
def Obligations.Qualification : Prop :=
  (∀ (n : Nat) (o : Int) (d : Dev), (d.srcS n).qualified = true → n ≠ d.tbu.src → (d.srcS n).outRun < 2 →
    d.fld Reg.TBU_SRC_CTRL 21 11 * 65536 < (o - (d.srcS n).lastOff).natAbs →
    d.measure n o = d.setSrc n { d.srcS n with outRun := (d.srcS n).outRun + 1, lastRaw := d.raw }) ∧
  (∀ (n : Nat) (o : Int) (d : Dev), (d.srcS n).qualified = false →
    (((o :: (d.srcS n).offs).take (max 2 (d.fld Reg.TBU_SRC_CTRL 17 4))).length < max 2 (d.fld Reg.TBU_SRC_CTRL 17 4)) →
    ((d.measure n o).srcS n).qualified = false ∧ ((d.measure n o).srcS n).offs = (o :: (d.srcS n).offs).take (max 2 (d.fld Reg.TBU_SRC_CTRL 17 4)))

/-! ### The ports (chapter 3) -/

/-- What the MAC does with a frame on a port that is up: every frame counts in `RXFRAMES`; one that was not reassembled counts in
`REASM_ERR`, one with a bad length or FCS in `FCS_ERR`, a priority flow control frame in `PFC_DROP`, and nothing else changes; a
PAUSE counts in `PAUSE_RX` and holds the port for its quanta. -/
def Obligations.FramesAtTheMac : Prop :=
  ∀ (port : Nat) (f : RxFrame) (s : State), port < 4 → s.dev.portUp port = true → s.dev.op ≠ .boot → s.dev.op.mainOn = true →
    let counted (cnt : Nat) (t : State) : Prop := t.dev.reg (Reg.NET_RXFRAMES port) = s.dev.reg (Reg.NET_RXFRAMES port) + 1 ∧
      t.dev.reg cnt = (s.dev.reg cnt).satAdd 1 ∧
      (∀ off, off ≠ cnt → off ≠ Reg.NET_RXFRAMES port → t.dev.reg off = s.dev.reg off) ∧ s.MainOnly t
    (f.reasmOk = false → Completes (.frameReceived port f) s (fun t => counted (Reg.NET_REASM_ERR port) t ∧
      t.dev = { s.dev with regs := t.dev.regs })) ∧
    (f.reasmOk = true → f.len < 64 ∨ 1522 < f.len ∨ f.fcsOk = false → Completes (.frameReceived port f) s (fun t =>
      counted (Reg.NET_FCS_ERR port) t ∧ t.dev = { s.dev with regs := t.dev.regs })) ∧
    (f.reasmOk = true → 64 ≤ f.len → f.len ≤ 1522 → f.fcsOk = true → f.tags < 2 → f.rct = none →
      (∀ op q, f.body = .macCtrl op q → op ≠ 1 → Completes (.frameReceived port f) s (fun t => counted (Reg.NET_PFC_DROP port) t ∧
        t.dev = { s.dev with regs := t.dev.regs })) ∧
      (∀ q, f.body = .macCtrl 1 q → 0 < q → q < 65536 → 1536 ≤ f.free → (s.dev.port port).stormUntil = none →
        Completes (.frameReceived port f) s (fun t => counted (Reg.NET_PAUSE_RX port) t ∧
          t.dev.port port = { s.dev.port port with pauseUntil := some (s.dev.raw + s.dev.quantumNs port q),
                                                   pauseSince := some ((s.dev.port port).pauseSince.getD s.dev.raw) } ∧
          (∀ n, n ≠ port → t.dev.port n = s.dev.port n) ∧ t.dev = { s.dev with regs := t.dev.regs, net := t.dev.net })))

/-- PRP: once a frame of a source that has, or finds, an entry of its pair's node table has been through duplicate discard with a
sequence number within the window, the same number from the same source is refused on either port of the pair. -/
def Obligations.PrpDiscardsTheSecondCopy : Prop :=
  ∀ (p p' m q : Nat) (d : Dev), p / 2 = p' / 2 →
    (∀ k e, (d.nodes (p / 2)).find? (fun x => x.2.mac == m) = some (k, e) → -64 < signedOf 16 ((q + 65536 - e.highest) % 65536)) →
    ((d.nodes (p / 2)).find? (fun x => x.2.mac == m) = none → d.allocNode (p / 2) ≠ none) →
    ((d.prpAccept p m q).2.prpAccept p' m q).1 = false

/-- Links: one comes up empty-handed, with its supervision due at once and its verification begun if it asks for it; one that goes
down carries nothing more and no host frame waits for it. PRP supervision takes one number of its pair, and its own time goes on. PAUSE: its time runs out, a storm begins when the queue has been held for `LIMIT_MS`, and it ends. -/
def Obligations.LinksAndPauses : Prop :=
  ((∀ (port : Nat) (s : State), port < 4 → s.dev.op.mainOn = true → s.dev.rbit (Reg.NET_CTRL port) 0 = true →
    (s.dev.port port).link = false → Completes (.linkUp port) s (fun t => s.MainOnly t ∧
      t.dev.port port = { s.dev.port port with link := true, nextSup := s.dev.raw, tries := 0, verify := s.dev.raw } ∧
      t.dev.reg (Reg.NET_PREEMPT_STATUS port) = (if s.dev.rbit (Reg.NET_CTRL port) 2 then 2 else 0) ∧
      (∀ n, n ≠ port → t.dev.port n = s.dev.port n) ∧
      (∀ off, off ≠ Reg.NET_PREEMPT_STATUS port → t.dev.reg off = s.dev.reg off) ∧
      t.dev = { s.dev with regs := t.dev.regs, net := t.dev.net })) ∧
  (∀ (port : Nat) (s : State), port < 4 → (s.dev.port port).link = true → Completes (.linkDown port) s (fun t => s.MainOnly t ∧
    t.dev.port port = { s.dev.port port with link := false, express := [], preempt := [], cur := none, held := none, pauseUntil := none,
                                             pauseSince := none, stormUntil := none, tries := 0 } ∧
    t.dev.reg (Reg.NET_PREEMPT_STATUS port) = 0 ∧ (∀ n, n ≠ port → t.dev.port n = s.dev.port n) ∧
    t.dev.net.hostTx.all (fun p => !p.2.2.contains port) = true ∧
    Dev.Keeps (fun off => off == Reg.NET_PREEMPT_STATUS port) { s.dev with net := t.dev.net } t.dev)) ∧
  (∀ (port : Nat) (s : State), port < 4 → legalCRD.contains s.dev.op = true → s.dev.supDue port = true →
    Completes (.prpSupervisionTx port) s (fun t => s.MainOnly t ∧ (t.dev.port port).nextSup = s.dev.raw + s.dev.supNs (port / 2) ∧
      t.dev.net.seqA = (if port < 2 then (s.dev.net.seqA + 1) % 65536 else s.dev.net.seqA) ∧
      t.dev.net.seqB = (if port < 2 then s.dev.net.seqB else (s.dev.net.seqB + 1) % 65536) ∧
      t.dev = { s.dev with net := t.dev.net, tbu := t.dev.tbu, out := t.dev.out }))) ∧
  ((∀ (port u : Nat) (s : State), (s.dev.port port).pauseUntil = some u → u ≤ s.dev.raw → Completes (.pauseExpiry port) s (fun t =>
    s.MainOnly t ∧ (t.dev.port port).pauseUntil = none ∧ (t.dev.port port).pauseSince = none ∧
      t.dev = { s.dev with net := t.dev.net, tbu := t.dev.tbu, out := t.dev.out })) ∧
  (∀ (port u lim : Nat) (s : State), (s.dev.port port).pauseSince = some u → s.dev.fld (Reg.NET_PAUSE_CTRL port) 0 8 = lim → lim ≠ 0 →
    u + lim * 1000000 ≤ s.dev.raw → Completes (.pauseStorm port) s (fun t => s.MainOnly t ∧ (t.dev.port port).pauseUntil = none ∧
      (t.dev.port port).stormUntil = some (s.dev.raw + lim * 1000000) ∧
      Dev.Keeps noReg { s.dev with net := t.dev.net, tbu := t.dev.tbu } t.dev)) ∧
  (∀ (port u : Nat) (s : State), (s.dev.port port).stormUntil = some u → u ≤ s.dev.raw → Completes (.pauseStormEnd port) s (fun t =>
    t = { s with dev := s.dev.setPort port { s.dev.port port with stormUntil := none } })))

/-- Preemption and transmission: an answered attempt makes preemption active with the partner's fragment size, the third attempt
without an answer ends the verification, another waits 10 ms; a frame that has gone out counts; a Pdelay_Req and a Sync go out
at their intervals. -/
def Obligations.PreemptionAndTransmission : Prop :=
  (∀ (port : Nat) (a : VerifyAnswer) (s : State), port < 4 → s.dev.portUp port = true → s.dev.rbit (Reg.NET_CTRL port) 2 = true →
    (s.dev.port port).verify ≤ s.dev.raw → s.dev.fld (Reg.NET_PREEMPT_STATUS port) 1 2 = 1 →
    Completes (.preemptVerify port a) s (fun t => s.MainOnly t ∧
      t.dev.port port = (if a.answered then { s.dev.port port with addFrag := a.addFrag % 4 }
        else if 2 ≤ (s.dev.port port).tries then { s.dev.port port with tries := 3 }
        else { s.dev.port port with tries := (s.dev.port port).tries + 1, verify := s.dev.raw + 10000000 }) ∧
      t.dev.reg (Reg.NET_PREEMPT_STATUS port) = (if a.answered then BitVec.ofNat 32 (1 + 4 + a.addFrag % 4 * 8)
        else if 2 ≤ (s.dev.port port).tries then 6 else s.dev.reg (Reg.NET_PREEMPT_STATUS port)) ∧
      (∀ n, n ≠ port → t.dev.port n = s.dev.port n) ∧
      (∀ off, off ≠ Reg.NET_PREEMPT_STATUS port → t.dev.reg off = s.dev.reg off) ∧
      t.dev = { s.dev with regs := t.dev.regs, net := t.dev.net })) ∧
  (∀ (port : Nat) (c : TxCur) (s : State), port < 4 → (s.dev.port port).cur = some c →
    c.frame.len - c.sent + 20 ≤ s.dev.portBytes port (s.dev.raw - c.start) → Completes (.frameTransmitEnd port) s (fun t =>
      s.MainOnly t ∧ t.dev.reg (Reg.NET_TXFRAMES port) = s.dev.reg (Reg.NET_TXFRAMES port) + 1 ∧
      t.dev.reg (Reg.NET_TX_EXPRESS port) = s.dev.reg (Reg.NET_TX_EXPRESS port) + (if c.q = .express then 1 else 0) ∧
      Dev.Keeps (fun off => off == Reg.NET_TXFRAMES port || off == Reg.NET_TX_EXPRESS port)
        { s.dev with net := t.dev.net, tbu := t.dev.tbu } t.dev)) ∧
  (∀ (port : Nat) (s : State), port < 4 → s.dev.ptpEn port = true → s.dev.portUp port = true → s.dev.op.mainOn = true →
    s.dev.op ≠ .boot →
    let sent (t : State) : Prop := s.MainOnly t ∧ t.dev.tbu = { s.dev.tbu with ptp := t.dev.tbu.ptp } ∧
      (∀ n, n ≠ port → t.dev.port n = s.dev.port n ∧ t.dev.ptpS n = s.dev.ptpS n) ∧
      (∀ off, off ≠ Reg.NET_TX_PREEMPTIONS port → t.dev.reg off = s.dev.reg off) ∧
      t.dev = { s.dev with regs := t.dev.regs, net := t.dev.net, tbu := t.dev.tbu, out := t.dev.out }
    ((s.dev.ptpS port).nextReq ≤ s.dev.raw → Completes (.ptpMessageTx port .pdelayReq) s (fun t => sent t ∧
      (t.dev.ptpS port).nextReq = s.dev.raw + s.dev.pdelayNs port)) ∧
    (s.dev.ptpMaster port = true → (s.dev.ptpS port).nextSync ≤ s.dev.raw → Completes (.ptpMessageTx port .sync) s (fun t => sent t ∧
      (t.dev.ptpS port).nextSync = s.dev.raw + s.dev.syncNs port)))

/-! ### The stream table (chapter 3) -/

/-- A stream that is ACTIVE and has accepted nothing for its staleness time becomes STALE: its `STATE` alone changes in the tables,
and its change bit is set. The looks: a set gets its first look once, at its deadline, and its final look after that, which closes it. With errors in the
cells, or tiles that are late, the look is the same over the marked cells, and the tiles that fail for it fail after it. -/
def Obligations.StreamsAndLooks : Prop :=
  (∀ (i : Nat) (s : State), eValid (s.dev.entry i) = true → s.dev.streamState i = 2 → s.dev.op.mainOn = true →
    KMap.getD s.dev.stm.lastRx i 0 + s.dev.staleNs (s.dev.entry i) ≤ s.dev.raw → Completes (.streamStale i) s (fun t => s.MainOnly t ∧
      t.dev.actW (stmOff i 12) = (s.dev.actW (stmOff i 12)).setField 0 4 3 ∧
      (∀ off, off ≠ stmOff i 12 → t.dev.actW off = s.dev.actW off) ∧ t.dev.rbit (Reg.STM_CHG (i / 32)) (i % 32) = true ∧
      Dev.Keeps (fun off => off == Reg.STM_CHG (i / 32)) { s.dev with act := t.dev.act } t.dev)) ∧
  (∀ (rc k : Nat) (f : LookFaults) (x : SetS) (s : State), s.dev.openSet? rc k = some x →
    (s.dev.op.running = true → x.done = false → x.first ≤ s.dev.raw → Completes (.firstLook rc k f) s (fun t =>
      t = { s with dev := s.dev.lookWith s.fuse k f (Dev.lookFirst x) } ∧ (f = { cells := [], late := [] } → t.dev = s.dev.lookFirst x))) ∧
    (x.done = true ∨ s.dev.raw < x.first → Completes (.firstLook rc k f) s (fun t => t = s)) ∧
    (s.dev.op.running = true → x.done = true → x.final ≤ s.dev.raw → Completes (.finalLook rc k f) s (fun t =>
      t = { s with dev := s.dev.lookWith s.fuse k f (Dev.lookFinal x 0) } ∧
      (f = { cells := [], late := [] } → t.dev = s.dev.lookFinal x 0 ∧ t.dev.openSet? rc k = none))) ∧
    (x.done = false ∨ s.dev.raw < x.final → Completes (.finalLook rc k f) s (fun t => t = s)))

/-- The commands of a commit: `STM_COMMIT` snapshots the staged tables and leaves one commit pending and validating; with bad
fields it completes with `BAD_ARG` and reason 15, with one pending it is refused; `STM_CANCEL` withdraws the pending one and both
complete, without one it is refused; `STM_RELOAD` copies the active tables into the staged ones, and is refused while one is
pending. Validation and effect: a snapshot that fails completes with `BAD_ARG`, names its first failing object, and leaves the active
tables; one that passes is applied at once in CONFIG, and otherwise waits for its instant, which the registers show; it is applied
when derived time has reached it. -/
def Obligations.StreamCommits : Prop :=
  ((∀ (h : CmdHdr) (p : CommitArgs) (s : State), s.dev.Admits h 0x20 [] true legalCRD → p.mode ≤ 1 →
    (p.mode = 1 → s.dev.op = .config ∨ s.dev.badInstant s.dev.earliest (commitInstant p) = false) →
    (s.dev.stm.pend = none → Completes (.stmCommit h p) s (fun t => s.MainOnly t ∧
      t.dev.stm = { s.dev.stm with pend := some { hdr := h, args := p, snap := viewWords s.dev.stg, validating := true, inst := 0,
                                                  homes := [] } } ∧
      t.dev.reg Reg.STM_STATUS = 3 ∧ (∀ off, off ≠ Reg.STM_STATUS → t.dev.reg off = s.dev.reg off) ∧
      t.dev = { s.dev with regs := t.dev.regs, stm := t.dev.stm })) ∧
    (s.dev.stm.pend.isSome = true → Completes (.stmCommit h p) s (fun t =>
      t = { s with dev := s.dev.refuse h 0x20 6 1 0xFFFF [] } ∧ Dev.Keeps noReg s.dev t.dev))) ∧
  (∀ (h : CmdHdr) (p : CommitArgs) (s : State), s.dev.Admits h 0x20 [] true legalCRD →
    1 < p.mode ∨ (p.mode = 1 ∧ s.dev.op ≠ .config ∧ s.dev.badInstant s.dev.earliest (commitInstant p) = true) →
    Completes (.stmCommit h p) s (fun t => t = { s with dev := s.dev.complete h 0x20 2 (failWords 0xFFFF 15) } ∧
      Dev.Keeps noReg s.dev t.dev)) ∧
  (∀ (h : CmdHdr) (p : PendCommit) (s : State), s.dev.Admits h 0x21 [] true legalCRD → s.dev.stm.pend = some p →
    Completes (.stmCancel h) s (fun t => s.MainOnly t ∧ t.dev.stm = { s.dev.stm with pend := none } ∧ t.dev.reg Reg.STM_STATUS = 0 ∧
      Dev.Keeps (fun off => off == Reg.STM_STATUS) { s.dev with stm := t.dev.stm } t.dev)) ∧
  (∀ (h : CmdHdr) (s : State), s.dev.Admits h 0x21 [] true legalCRD → s.dev.stm.pend = none → Completes (.stmCancel h) s (fun t =>
    t = { s with dev := s.dev.refuse h 0x21 6 1 0xFFFF [] } ∧ Dev.Keeps noReg s.dev t.dev)) ∧
  (∀ (h : CmdHdr) (s : State), s.dev.Admits h 0x22 [] true legalCRD →
    (s.dev.stm.pend = none → Completes (.stmReload h) s (fun t => s.MainOnly t ∧
      t.dev.stg = copyWords (cfgWord viewTables) s.dev.act s.dev.stg ∧ Dev.Keeps noReg { s.dev with stg := t.dev.stg } t.dev)) ∧
    (s.dev.stm.pend.isSome = true → Completes (.stmReload h) s (fun t =>
      t = { s with dev := s.dev.refuse h 0x22 6 1 0xFFFF [] } ∧ Dev.Keeps noReg s.dev t.dev)))) ∧
  ((∀ (p : PendCommit) (obj reason : Nat) (s : State), s.dev.stm.pend = some p → p.validating = true → legalCRD.contains s.dev.op = true →
    s.dev.validate s.fuse p.snap = some (obj, reason) → Completes .stmValidationEnd s (fun t =>
      t.dev = s.dev.stmUnpend.complete p.hdr 0x20 2 (failWords obj reason) ∧ t.dev.stm = { s.dev.stm with pend := none } ∧
      t.dev.act = s.dev.act ∧ t.dev.reg Reg.STM_STATUS = 0 ∧ t.bd = s.bd ∧
      Dev.Keeps (fun off => off == Reg.STM_STATUS) { s.dev with stm := t.dev.stm } t.dev)) ∧
  (∀ (p : PendCommit) (inst : Int) (s : State), s.dev.stm.pend = some p → p.validating = true → s.dev.op.running = true →
    s.dev.validate s.fuse p.snap = none → inst = (if p.args.mode = 1 then commitInstant p.args else s.dev.earliest) →
    s.dev.badInstant s.dev.earliest inst = false → Completes .stmValidationEnd s (fun t =>
      t.dev.stm = { s.dev.stm with pend := some { p with validating := false, inst := inst, homes := (s.dev.homingFor s.fuse p.snap false).homes } } ∧
      t.dev.reg Reg.STM_STATUS = 1 ∧ t.dev.reg Reg.STM_PEND_SEC_LO = lo32 (inst / 1000000000).toNat ∧ t.bd = s.bd ∧
      t.dev = { s.dev with regs := t.dev.regs, stm := t.dev.stm })) ∧
  (∀ (p : PendCommit) (s : State), s.dev.stm.pend = some p → p.validating = true → s.dev.op = .config →
    s.dev.validate s.fuse p.snap = none → Completes .stmValidationEnd s (fun t => t.bd = s.bd ∧
      t.dev = s.dev.stmApply s.fuse { p with validating := false, inst := s.dev.tick, homes := (s.dev.homingFor s.fuse p.snap false).homes } s.dev.tick)) ∧
  (∀ (p : PendCommit) (s : State), s.dev.stm.pend = some p → p.validating = false → legalCRD.contains s.dev.op = true →
    p.inst ≤ s.dev.tick → Completes .stmCommitApply s (fun t => t.bd = s.bd ∧ t.dev = s.dev.stmApply s.fuse p p.inst)) ∧
  (∀ (p : PendCommit) (s : State), s.dev.stm.pend = some p → s.dev.tick < p.inst → Completes .stmCommitApply s (fun t => t.dev = s.dev)))

/-- Versions: after a commit of instant `inst`, an entry that it changed is, for a time before the instant, what it was (nothing,
where it was not valid), and from the instant on what the active table holds. -/
def Obligations.EarlierTimesSeeTheOldEntry : Prop :=
  ∀ (prev : KMap PrevVer) (old : SMap) (changed : List Nat) (inst : Int) (i : Nat) (d : Dev), d.stm.pend = none →
    d.stm.prev = nextVersions prev old changed inst → i ∈ changed → ∀ t : Int,
      (t < inst → d.entryAt i t = if eValid (entryIn old i) then entryIn old i else []) ∧ (inst ≤ t → d.entryAt i t = d.entry i)

/-! ### Alignment (chapter 4) -/

/-- A tile takes the frame at the head of its queue: off the grid, with no open set, no member of its set, in a cell lost to
re-homing or a second time, it is counted in the register Table 4.2 gives and dropped. An error met in the cell is counted, and what the
cell held is marked, before the frame is placed. A frame that finds its cell empty fills it: the cell is ON_TIME before first look and LATE after it, and holds the frame's time,
status, arrival and payload; the frame is counted, and one that is late is counted as such. -/
def Obligations.FramesAndCells : Prop :=
  (∀ (tile : Nat) (f : TileFrame) (rest : List TileFrame) (s : State), (s.dev.tile tile).inq = f :: rest → s.dev.op.running = true →
    (s.dev.tile tile).cause = 0 →
    let d := s.dev.setTile tile { s.dev.tile tile with inq := rest }
    let e := d.entryAt f.idx ((f.num * 1000000000 / f.den : Nat) : Int)
    let k := slotOf (rateOf (eRate e)) f.num f.den
    let off := offGrid (rateOf (eRate e)) f.num f.den (zeroActs 1 (d.fld Reg.EAS_CTRL 8 8))
    (off = true → Completes (.tilePlaceFrame tile none) s (fun t => t = { s with dev := d.bump (Reg.EAS_OFFGRID tile) 1 })) ∧
    (off = false → d.openSet? (eRate e) k = none → (∀ j, KMap.get? d.eas.highest (eRate e) = some j → j < k) →
      Completes (.tilePlaceFrame tile none) s (fun t => t = { s with dev := d.bump (Reg.EAS_EARLY tile) 1 })) ∧
    (∀ j, off = false → d.openSet? (eRate e) k = none → KMap.get? d.eas.highest (eRate e) = some j → k ≤ j →
      Completes (.tilePlaceFrame tile none) s (fun t => t = { s with dev := d.bump (Reg.EAS_TOOLATE tile) 1 })) ∧
    (∀ x, off = false → d.openSet? (eRate e) k = some x → d.isMember f.idx (eRate e) k = false →
      Completes (.tilePlaceFrame tile none) s (fun t => t = { s with dev := d.bump (Reg.EAS_TOOLATE tile) 1 })) ∧
    (∀ x c, off = false → d.openSet? (eRate e) k = some x → d.isMember f.idx (eRate e) k = true → d.cell f.idx k = some c →
      (c.st = 3 ∨ c.st = 4 → Completes (.tilePlaceFrame tile none) s (fun t => t = { s with dev := d.bump Reg.EAS_REHOME_DROP 1 })) ∧
      (c.st < 3 → c.pay.isSome = true → eKind e ≠ 3 → Completes (.tilePlaceFrame tile none) s (fun t =>
        t = { s with dev := d.streamDup f.idx }))) ∧
    (∀ ecc : CellEcc, Completes (.tilePlaceFrame tile (some ecc)) s (fun t =>
      t = { s with dev := s.dev.withReads s.fuse [(slotOf (rateOf (eRate (s.dev.entryAt f.idx ((f.num * 1000000000 / f.den : Nat) : Int)))) f.num f.den,
        { stream := f.idx, ecc := ecc })] (Dev.tileTake tile) }))) ∧
  (∀ (tile : Nat) (f : TileFrame) (x : SetS) (d : Dev),
    let e := d.entryAt f.idx ((f.num * 1000000000 / f.den : Nat) : Int)
    let k := slotOf (rateOf (eRate e)) f.num f.den
    tile < 32 → offGrid (rateOf (eRate e)) f.num f.den (zeroActs 1 (d.fld Reg.EAS_CTRL 8 8)) = false → d.openSet? (eRate e) k = some x →
    d.isMember f.idx (eRate e) k = true → d.cell f.idx k = none →
    let r := d.placeFrame tile f
    r.1 = (if x.done then none else some (eRate e, k)) ∧
    r.2.cell f.idx k = some { k := k, st := if x.done then 2 else 1, num := f.num, den := f.den, stat := f.stat, mtq := f.mtq,
                              arrNs := f.arrNs, arrRaw := f.arrRaw, pay := some f.pay, rev := f.rev, merged := false, ue := false,
                              spUe := false, first := none } ∧
    (∀ i j, cellKey i j ≠ cellKey f.idx k → r.2.cell i j = d.cell i j) ∧
    r.2.reg (Reg.EAS_RX tile) = d.reg (Reg.EAS_RX tile) + 1 ∧
    r.2.reg (Reg.EAS_LATE tile) = (if x.done then (d.reg (Reg.EAS_LATE tile)).satAdd 1 else d.reg (Reg.EAS_LATE tile)) ∧
    r.2 = { d with regs := r.2.regs, eas := { d.eas with cells := r.2.eas.cells } })

/-- The sentinel's checks and `EAS_FAIL`: a passed check clears the tile's failures, the first failed one is kept, the second in a row
fails the tile with cause 3; an error the check meets in the tile's SRAM is counted; a tile the part does not have is a bad argument, one out of service is refused, another fails with
cause 4. -/
def Obligations.TileChecks : Prop :=
  (∀ (tile : Nat) (s : State), s.dev.op.running = true ∨ s.dev.op = .config → s.dev.tileOk tile s.fuse = true →
    Completes (.tileSentinelCheck tile true .clean) s (fun t =>
      t = { s with dev := s.dev.setTile tile { s.dev.tile tile with kat := 0 } }) ∧
    ((s.dev.tile tile).kat = 0 → Completes (.tileSentinelCheck tile false .clean) s (fun t =>
      t = { s with dev := s.dev.setTile tile { s.dev.tile tile with kat := 1 } })) ∧
    ((s.dev.tile tile).kat ≠ 0 → Completes (.tileSentinelCheck tile false .clean) s (fun t =>
      t = { s with dev := s.dev.failTile s.fuse tile 3 })) ∧
    Completes (.tileSentinelCheck tile true .corrected) s (fun t =>
      t.dev.reg (Reg.EAS_SRAM_CE tile) = (s.dev.reg (Reg.EAS_SRAM_CE tile)).satAdd 1) ∧
    Completes (.tileSentinelCheck tile true (.uncorrectable none)) s (fun t =>
      t = { s with dev := (s.dev.noteUe s.fuse tile).sentinel s.fuse tile true })) ∧
  (∀ (h : CmdHdr) (tile : Nat) (s : State), s.dev.Admits h 0x28 [] true legalCRD →
    (s.fuse.part.tiles ≤ tile → Completes (.easFail h tile) s (fun t =>
      t = { s with dev := s.dev.complete h 0x28 2 [] } ∧ Dev.Keeps noReg s.dev t.dev)) ∧
    (tile < s.fuse.part.tiles → s.dev.tileOk tile s.fuse = false → Completes (.easFail h tile) s (fun t =>
      t = { s with dev := s.dev.refuse h 0x28 6 1 0xFFFF [] } ∧ Dev.Keeps noReg s.dev t.dev)) ∧
    (s.dev.tileOk tile s.fuse = true → Completes (.easFail h tile) s (fun t =>
      t = { s with dev := (s.dev.failTile s.fuse tile 4).complete h 0x28 0 [] })))

/-- A tile that fails leaves service, its queue is discarded, no stream has it as its home any more, and RUN becomes DEGRADED. -/
def Obligations.AFailedTileHomesNothing : Prop :=
  ∀ (fz : Fuse) (tile cause : Nat) (d : Dev), cause ≠ 0 → d.tileOk tile fz = true →
    (d.tileFault fz tile cause).tileOk tile fz = false ∧ ((d.tileFault fz tile cause).tile tile).inq = [] ∧
    (d.tileFault fz tile cause).eas.homes.all (fun p => p.2 != tile) = true ∧
    (d.tileFault fz tile cause).deg.testBit 0 = true ∧
    (d.tileFault fz tile cause).op = (if d.op = .run then .degraded else d.op)

/-! ### The Phasor chain (chapter 5) -/

/-- The engine: a round takes every channel's latest sample; an estimate that its conditions allow moves the class to its next grid
point; the detector takes one valid sample in order; a hold that has ended clears its detector; a sample overdue by 1 ms is lost; a
lane's second failed check in a row is a fault. `PHX_RESYNC`: a channel that the part does not have, or that is not in use, is a bad argument; another takes a reset now: both
classes settle from this instant, the reset is counted, and no other channel changes. -/
def Obligations.Phasors : Prop :=
  ((∀ s : State, s.dev.op.alarm = true → s.dev.phx.round + s.dev.roundNs ≤ s.dev.raw → Completes .phxRound s (fun t => s.MainOnly t ∧
    t.dev = s.dev.phxRoundStep s.fuse ∧ (s.fuse.part.trigSample = true → t.dev = { s.dev with phx := t.dev.phx } ∧
      t.dev.phx.round = s.dev.phx.round + (s.dev.raw - s.dev.phx.round) / s.dev.roundNs * s.dev.roundNs ∧
      ∀ c x, c ∈ chansIn s.dev.act → (s.dev.phxCh c).hist.head? = some x → (t.dev.phxCh c).taken = x.n))) ∧
  (∀ (ch : Nat) (s : State), s.dev.op.alarm = true → s.dev.op.running = false → chEn s.dev.act ch = true →
    let x := s.dev.phxCh ch
    let at_ : Int := (gridNs x.nextM * 65536 : Nat)
    at_ + winTime 1 x.ft / 2 + rsDelay x.rate ≤ s.dev.t16 →
    s.dev.noInput ch = true ∨ s.dev.phxShed ch 1 = true ∨ x.settles 1 at_ = true ∨ x.complete 1 at_ = true →
    Completes (.phxEstimate ch 1) s (fun t => t = { s with dev := s.dev.setPhx ch { x with nextM := x.nextM + 1 } })) ∧
  (∀ (ch cls : Nat) (s : State), s.dev.op.alarm = true → chEn s.dev.act ch = true → cls < 2 → Completes (.phxEstimate ch cls) s (fun t =>
    t = { s with dev := s.dev.phxEstimateStep ch cls })) ∧
  (∀ (ch : Nat) (x : Sample) (s : State), s.dev.op.alarm = true → chEn s.dev.act ch = true → chAj s.dev.act ch = true →
    (s.dev.phxCh ch).hist.reverse.find? (fun y => decide ((s.dev.phxCh ch).detN ≤ y.n) && !y.filled) = some x →
    let d := s.dev.setPhx ch { s.dev.phxCh ch with detN := x.n + 1 }
    Completes (.detectorSample ch) s (fun t => t = { s with dev := (if x.clip then d else d.ajEvaluate ch x) })) ∧
  (∀ (ch u : Nat) (s : State),
    ((s.dev.phxCh ch).aj.till = some u → u ≤ s.dev.raw → Completes (.detHoldEnd ch 0) s (fun t => t = { s with dev :=
      (s.dev.setPhx ch { s.dev.phxCh ch with aj := { (s.dev.phxCh ch).aj with till := none, val := 0 } }).localChange })) ∧
    ((s.dev.phxCh ch).rf.till = some u → u ≤ s.dev.raw → Completes (.detHoldEnd ch 1) s (fun t => t = { s with dev :=
      (s.dev.setPhx ch { s.dev.phxCh ch with rf := { (s.dev.phxCh ch).rf with till := none, val := 0 } }).localChange }))) ∧
  (∀ (ch need : Nat) (s : State), s.dev.op.alarm = true → chEn s.dev.act ch = true →
    let x := s.dev.phxCh ch
    let last : Int := (gridNs x.nextP * 65536 : Nat) + winTime 0 x.ft / 2 + rsDelay x.rate
    last + 65536000000 ≤ s.dev.t16 → need = (last * (x.rate : Int) / 65536000000000).toNat →
    (match x.hist.head? with | some y => y.n | none => 0) < need → Completes (.sampleMissingTimeout ch) s (fun t =>
      t = { s with dev := s.dev.setPhx ch { x with lost := max x.lost need } })) ∧
  (∀ (lane : Nat) (s : State), lane < 8 → s.dev.phx.failed.contains lane = false → s.dev.op.running = true ∨ s.dev.op = .config →
    Completes (.phxLaneCheck lane true) s (fun t =>
      t = { s with dev := { s.dev with phx := { s.dev.phx with kat := KMap.del s.dev.phx.kat lane } } }) ∧
    (KMap.getD s.dev.phx.kat lane 0 = 0 → Completes (.phxLaneCheck lane false) s (fun t =>
      t = { s with dev := { s.dev with phx := { s.dev.phx with kat := KMap.put s.dev.phx.kat lane 1 } } })) ∧
    (1 ≤ KMap.getD s.dev.phx.kat lane 0 → Completes (.phxLaneCheck lane false) s (fun t => t = { s with dev := s.dev.laneFault lane })))) ∧
  ((∀ (h : CmdHdr) (ch : Nat) (s : State), s.dev.Admits h 0x30 [] true legalCRD → s.dev.resyncArg s.fuse ch = false →
    Completes (.phxResync h ch) s (fun t => t = { s with dev := s.dev.complete h 0x30 2 [] } ∧ Dev.Keeps noReg s.dev t.dev)) ∧
  (∀ (h : CmdHdr) (ch : Nat) (s : State), s.dev.Admits h 0x30 [] true legalCRD → ch < s.fuse.part.channels → chEn s.dev.act ch = true →
    (s.dev.phxCh ch).aj.till = none → (s.dev.phxCh ch).rf.till = none → (s.dev.phxCh ch).trP ≠ s.dev.t16 →
    Completes (.phxResync h ch) s (fun t => s.MainOnly t ∧ (t.dev.phxCh ch).trP = s.dev.t16 ∧ (t.dev.phxCh ch).trM = s.dev.t16 ∧
      (t.dev.phxCh ch).endP = s.dev.t16 + winTime 0 (s.dev.phxCh ch).ft + rsDelay (s.dev.phxCh ch).rate ∧
      (t.dev.phxCh ch).endM = s.dev.t16 + winTime 1 (s.dev.phxCh ch).ft + rsDelay (s.dev.phxCh ch).rate ∧
      (t.dev.phxCh ch).resets = ((s.dev.phxCh ch).resets + 1) % 65536 ∧ (∀ c, c ≠ ch → t.dev.phxCh c = s.dev.phxCh c) ∧
      t.dev.reg Reg.PHX_RESETS = s.dev.reg Reg.PHX_RESETS + 1 ∧
      Dev.Keeps (fun off => off == Reg.PHX_RESETS) { s.dev with phx := t.dev.phx } t.dev)) ∧
  (∀ (h : CmdHdr) (s : State), s.dev.Admits h 0x30 [] true legalCRD → Completes (.phxResync h 0xFFFF) s (fun t =>
    t = { s with dev := ((chansIn s.dev.act).foldl (fun d c => d.phxReset c true true d.t16) s.dev).complete h 0x30 0 [] })))

/-! ### Safelight (chapter 6) -/

/-- The commits of rules follow the pattern of those of streams: one pending at most, a snapshot of the staged rule tables, refused
while another is pending, `BAD_ARG` with reason 10 for bad fields, withdrawn by `SFL_CANCEL`, applied at its instant. -/
def Obligations.SafelightCommits : Prop :=
  (∀ (h : CmdHdr) (p : CommitArgs) (s : State), s.dev.Admits h 0x40 [] true legalCRD → p.mode ≤ 1 →
    (p.mode = 1 → s.dev.op = .config ∨ s.dev.badInstant s.dev.sflEarliest (commitInstant p) = false) →
    (s.dev.sfl.pend = none → Completes (.sflCommit h p) s (fun t => s.MainOnly t ∧
      t.dev.sfl = { s.dev.sfl with pend := some { hdr := h, args := p, snap := ruleWords s.dev.stg, validating := true, inst := 0,
                                                  homes := [] } } ∧
      t.dev.fld Reg.SFL_STATUS 0 2 = 3 ∧ (∀ off, off ≠ Reg.SFL_STATUS → t.dev.reg off = s.dev.reg off) ∧
      t.dev = { s.dev with regs := t.dev.regs, sfl := t.dev.sfl })) ∧
    (s.dev.sfl.pend.isSome = true → Completes (.sflCommit h p) s (fun t =>
      t = { s with dev := s.dev.refuse h 0x40 6 1 0xFFFF [] } ∧ Dev.Keeps noReg s.dev t.dev))) ∧
  (∀ (h : CmdHdr) (p : CommitArgs) (s : State), s.dev.Admits h 0x40 [] true legalCRD →
    1 < p.mode ∨ (p.mode = 1 ∧ s.dev.op ≠ .config ∧ s.dev.badInstant s.dev.sflEarliest (commitInstant p) = true) →
    Completes (.sflCommit h p) s (fun t => t = { s with dev := s.dev.complete h 0x40 2 (failWords 0xFFFF 10) })) ∧
  (∀ (h : CmdHdr) (p : PendCommit) (s : State), s.dev.Admits h 0x41 [] true legalCRD → s.dev.sfl.pend = some p →
    Completes (.sflCancel h) s (fun t => s.MainOnly t ∧ t.dev.sfl = { s.dev.sfl with pend := none } ∧
      t.dev.fld Reg.SFL_STATUS 0 2 = 0 ∧ Dev.Keeps (fun off => off == Reg.SFL_STATUS) { s.dev with sfl := t.dev.sfl } t.dev)) ∧
  (∀ (h : CmdHdr) (s : State), s.dev.Admits h 0x42 [] true legalCRD → s.dev.sfl.pend = none → Completes (.sflReload h) s (fun t =>
    s.MainOnly t ∧ t.dev.stg = copyWords (cfgWord ruleTables) s.dev.act s.dev.stg ∧
      Dev.Keeps noReg { s.dev with stg := t.dev.stg } t.dev)) ∧
  (∀ (p : PendCommit) (s : State), s.dev.sfl.pend = some p → p.validating = true → legalCRD.contains s.dev.op = true →
    (∀ obj reason, sflValidate s.fuse p.snap = some (obj, reason) → Completes .sflValidationEnd s (fun t => s.MainOnly t ∧
      t.dev = s.dev.sflUnpend.complete p.hdr 0x40 2 (failWords obj reason) ∧ t.dev.act = s.dev.act ∧ t.dev.sfl.pend = none)) ∧
    (∀ inst, sflValidate s.fuse p.snap = none → s.dev.op.running = true →
      inst = (if p.args.mode = 1 then commitInstant p.args else s.dev.sflEarliest) → s.dev.badInstant s.dev.sflEarliest inst = false →
      Completes .sflValidationEnd s (fun t => s.MainOnly t ∧
        t.dev.sfl = { s.dev.sfl with pend := some { p with validating := false, inst := inst } } ∧
        t.dev.fld Reg.SFL_STATUS 0 2 = 1 ∧ t.dev.reg Reg.SFL_PEND_SEC_LO = lo32 (inst / 1000000000).toNat ∧
        t.dev = { s.dev with regs := t.dev.regs, sfl := t.dev.sfl })) ∧
    (sflValidate s.fuse p.snap = none → s.dev.op = .config → Completes .sflValidationEnd s (fun t =>
      t = { s with dev := s.dev.sflApply p s.dev.tick }))) ∧
  (∀ (p : PendCommit) (s : State), s.dev.sfl.pend = some p → p.validating = false → legalCRD.contains s.dev.op = true →
    p.inst ≤ s.dev.tick → Completes .sflCommitApply s (fun t => t = { s with dev := s.dev.sflApply p p.inst }))

/-- Clearing: `SFL_CLEAR` of a rule that does not exist is a bad argument, of one that is not ASSERTED with a latch is refused, and
otherwise the rule is cleared; without one every latched rule is; an output's latch is cleared. A snapshot is of one instant. Times of Safelight: a pulse ends, a turn-on succeeds, fails and is tried again after 10 ms until the third failure disables the
output, the last message goes out again with the doubled interval, and a `TEV` operand falls. -/
def Obligations.SafelightClearsAndTimes : Prop :=
  ((∀ (h : CmdHdr) (rule : Nat) (s : State), s.dev.Admits h 0x43 [] true legalCRD →
    (4095 < rule → Completes (.sflClear h rule) s (fun t => t = { s with dev := s.dev.complete h 0x43 2 [] } ∧ Dev.Keeps noReg s.dev t.dev)) ∧
    (rule ≤ 4095 → s.dev.clearable rule = false → Completes (.sflClear h rule) s (fun t =>
      t = { s with dev := s.dev.refuse h 0x43 6 1 0xFFFF [] } ∧ Dev.Keeps noReg s.dev t.dev)) ∧
    (rule ≤ 4095 → s.dev.clearable rule = true → Completes (.sflClear h rule) s (fun t =>
      t = { s with dev := (s.dev.clearRulesOf [rule]).complete h 0x43 0 [] }))) ∧
  (∀ (h : CmdHdr) (s : State), s.dev.Admits h 0x43 [] true legalCRD → Completes (.sflClearLatched h) s (fun t =>
    t = { s with dev := ((s.dev.clearRulesOf (s.dev.sfl.rules.keys.filter (fun i => s.dev.clearable i))).complete h 0x43 0 []) })) ∧
  (∀ (h : CmdHdr) (n : Nat) (s : State), s.dev.Admits h 0x43 [] true legalCRD →
    (7 < n → Completes (.sflClearOutput h n) s (fun t => t = { s with dev := s.dev.complete h 0x43 2 [] } ∧ Dev.Keeps noReg s.dev t.dev)) ∧
    (n ≤ 7 → Completes (.sflClearOutput h n) s (fun t => s.MainOnly t ∧ (t.dev.alm n).latched = false ∧ (t.dev.alm n).fails = 0 ∧
      (t.dev.alm n).episode = false ∧ t.dev.fld (Reg.SFL_ALM_STATUS n) 3 2 = 0 ∧ (∀ m, m ≠ n → t.dev.alm m = s.dev.alm m) ∧
      Dev.Keeps (fun off => off == Reg.SFL_ALM_STATUS n) { s.dev with sfl := t.dev.sfl } t.dev))) ∧
  (∀ (v : Word) (s : State), s.dev.writable = true → v.bit 0 = true → Completes (.sflSnap v) s (fun t => s.MainOnly t ∧
    (∀ n, n < 128 → t.dev.reg (Reg.SFL_SNAP_ASSERT n) = s.dev.reg (Reg.SFL_ASSERT n) ∧
      t.dev.reg (Reg.SFL_SNAP_INDET n) = s.dev.reg (Reg.SFL_INDET n)) ∧
    t.dev.reg Reg.SFL_SNAP_STNUM = s.dev.reg Reg.SFL_GOOSE_STNUM ∧ t.dev.reg Reg.SFL_SNAP_RAW_LO = lo32 s.dev.raw ∧
    t.dev.reg Reg.SFL_SNAP_RAW_HI = hi32 s.dev.raw ∧ t.dev = { s.dev with regs := t.dev.regs }))) ∧
  ((∀ (n u : Nat) (s : State), n < 8 → (s.dev.alm n).pulseEnd = some u → u ≤ s.dev.raw → Completes (.almPulseEnd n) s (fun t =>
    s.MainOnly t ∧ (t.dev.alm n).pulseEnd = none ∧ (∀ m, m ≠ n → t.dev.alm m = s.dev.alm m) ∧
      Dev.Keeps (fun off => off == Reg.SFL_ALM_STATUS n) { s.dev with sfl := t.dev.sfl } t.dev)) ∧
  (∀ (n : Nat) (s : State), n < 8 → (s.dev.alm n).turnOn.isSome = true →
    Completes (.almTurnOnSuccess n) s (fun t => s.MainOnly t ∧
      t.dev.alm n = { s.dev.alm n with turnOn := none, episode := false, fails := 0 } ∧
      t.dev.rbit (Reg.SFL_ALM_STATUS n) 1 = true ∧
      Dev.Keeps (fun off => off == Reg.SFL_ALM_STATUS n) { s.dev with sfl := t.dev.sfl } t.dev) ∧
    Completes (.almTurnOnTimeout n) s (fun t => s.MainOnly t ∧ (t.dev.alm n).turnOn = none ∧
      (t.dev.alm n).retryAt = (if (s.dev.alm n).fails < 2 then some (s.dev.raw + 10000000) else none) ∧
      (t.dev.alm n).fails = (if (s.dev.alm n).fails < 2 then (s.dev.alm n).fails + 1 else 0) ∧
      t.dev.rbit (Reg.SFL_ALM_STATUS n) 3 = true ∧
      ((s.dev.alm n).fails ≥ 2 → t.dev.rbit (Reg.SFL_ALM_STATUS n) 4 = true) ∧
      t.dev.fld (Reg.SFL_ALM_STATUS n) 8 8 = min 255 (s.dev.fld (Reg.SFL_ALM_STATUS n) 8 8 + 1) ∧ t.dev.rbit Reg.SFL_EVT 4 = true ∧
      Dev.Keeps (fun off => off == Reg.SFL_ALM_STATUS n || off == Reg.SFL_EVT) { s.dev with sfl := t.dev.sfl } t.dev)) ∧
  (∀ (n u : Nat) (s : State), (s.dev.alm n).retryAt = some u → u ≤ s.dev.raw → (s.dev.alm n).drive = true →
    Completes (.almRetry n) s (fun t => t = { s with dev := s.dev.turnOn n } ∧ (t.dev.alm n).turnOn = some s.dev.raw ∧
      (t.dev.alm n).retryAt = none)) ∧
  (∀ (m : AlarmMsg) (gap : Nat) (s : State), s.dev.sfl.msg = some m → s.dev.sfl.nextTx ≤ s.dev.raw →
    s.dev.op.alarm = true ∨ s.dev.op = .config →
    gap = min (2 * s.dev.sfl.interval) (clampNat 100 60000 (s.dev.fld Reg.SFL_GOOSE 16 16) * 1000000) →
    let d : Dev := { s.dev with sfl := { s.dev.sfl with interval := gap, nextTx := s.dev.raw + gap } }
    let sq := s.dev.reg Reg.SFL_GOOSE_SQNUM + 1
    Completes .gooseRetransmit s (fun t => t = { s with dev := ((d.setReg Reg.SFL_GOOSE_SQNUM sq).sendAlarm
      (s.dev.reg Reg.SFL_GOOSE_STNUM) sq (2 * gap / 1000000) (s.dev.sfl.msgAt : Nat) m) })) ∧
  (∀ (n u : Nat) (s : State), KMap.get? s.dev.sfl.tevHold n = some u → u ≤ s.dev.raw → Completes (.tevOperandExpiry n) s (fun t =>
    t = { s with dev := ({ s.dev with sfl := { s.dev.sfl with tevHold := KMap.del s.dev.sfl.tevHold n } } : Dev).localChange })))

/-- Passes and lanes: the pass at the head of the queue runs; a lane's second failed test in a row takes it out of service, and with
the other lane already out the alarm path fails; both lanes passing after a disagreement is a transient, one failing is its fault;
`SFL_LANE_TEST` is refused while a lane is out; the vector takes the Densitometer's result at its instant. -/
def Obligations.SafelightPassesAndLanes : Prop :=
  (∀ (faults : List (Nat × Nat)) (reads : List (Nat × CellFault)) (s : State), s.dev.op.alarm = true → s.dev.sfl.passes ≠ [] →
    Completes (.safelightPass faults reads) s (fun t => t = { s with dev := s.dev.withReads s.fuse reads (Dev.runPass faults) } ∧
      (reads = [] → t.dev = s.dev.runPass faults))) ∧
  (∀ (faults : List (Nat × Nat)) (reads : List (Nat × CellFault)) (s : State), s.dev.op.alarm = false ∨ s.dev.sfl.passes = [] →
    Completes (.safelightPass faults reads) s (fun t => t = s)) ∧
  (∀ (rc k : Nat) (s : State), s.dev.op.alarm = true → s.dev.sfl.sets.any (fun x => x.loc && x.rc == rc && x.k == k) = true →
    ((slotNs (rateOf rc) (k + 1) : Nat) : Int) ≤ s.dev.tick → Completes (.localRuleSlotEnd rc k) s (fun t =>
      t = { s with dev := s.dev.localSlotEnd rc k } ∧
      ∃ p ∈ t.dev.sfl.passes, p.rc = rc ∧ p.k = k ∧ p.loc = true ∧ p.last = true ∧ p.trig = s.dev.raw)) ∧
  (∀ (lane : Nat) (s : State), s.dev.laneIn lane = true → s.dev.lanesLive = true →
    let failed : Dev := { s.dev with sfl := { s.dev.sfl with katRun := KMap.put s.dev.sfl.katRun lane (KMap.getD s.dev.sfl.katRun lane 0 + 1) } }
    Completes (.sflLaneKat lane true) s (fun t =>
      t = { s with dev := { s.dev with sfl := { s.dev.sfl with katRun := KMap.del s.dev.sfl.katRun lane } } }) ∧
    (KMap.getD s.dev.sfl.katRun lane 0 = 0 → Completes (.sflLaneKat lane false) s (fun t => t = { s with dev := failed })) ∧
    (1 ≤ KMap.getD s.dev.sfl.katRun lane 0 → s.dev.laneIn (1 - lane) = true → Completes (.sflLaneKat lane false) s (fun t =>
      t = { s with dev := failed.laneFail lane 1 })) ∧
    (1 ≤ KMap.getD s.dev.sfl.katRun lane 0 → s.dev.laneIn (1 - lane) = false → Completes (.sflLaneKat lane false) s (fun t =>
      t = { s with dev := failed.alarmPathFails [lane] 6 }))) ∧
  (∀ (a b : Bool) (s : State), s.dev.sfl.disagree.isSome = true → s.dev.lanesLive = true →
    let d : Dev := { s.dev with sfl := { s.dev.sfl with disagree := none } }
    Completes (.sflDisagreeKat a b) s (fun t => t = { s with dev := (if a && b then d.transient else if a then d.laneFail 1 2
      else if b then d.laneFail 0 2 else d.alarmPathFails [0, 1] 3) })) ∧
  (∀ (a b : Bool) (s : State), s.dev.sfl.testing.isEmpty = false → s.dev.lanesLive = true →
    let d : Dev := { s.dev with sfl := { s.dev.sfl with testing := [] } }
    Completes (.sflLaneSelfTest a b) s (fun t => t = { s with dev := (if a && b then
      d.setField Reg.SFL_STATUS 4 1 (if d.laneOut then 0 else 1)
      else if a then d.laneFail 1 4 else if b then d.laneFail 0 4 else d.alarmPathFails [0, 1] 4) })) ∧
  (∀ (h : CmdHdr) (a b : Bool) (s : State), s.dev.Admits h 0x44 [] true [.run, .degraded] →
    (s.dev.laneOut = true → ∀ c, c = .sflLaneTest h a b ∨ c = .sflLaneTestInvert h → Completes c s (fun t =>
      t = { s with dev := s.dev.refuse h 0x44 6 1 0xFFFF [] } ∧ Dev.Keeps noReg s.dev t.dev)) ∧
    (s.dev.laneOut = false → Completes (.sflLaneTest h a b) s (fun t =>
      t = { s with dev := ((s.dev.laneKat 0 a).laneKat 1 b).complete h 0x44 0 [] }) ∧
      Completes (.sflLaneTestInvert h) s (fun t => s.MainOnly t ∧ t.dev.sfl = { s.dev.sfl with invert := true } ∧
        Dev.Keeps noReg { s.dev with sfl := t.dev.sfl } t.dev))) ∧
  (∀ (v : CohResult) (s : State), s.dev.dns.vec = some v → s.dev.op.running = true →
    (((v.sec + 1 : Nat) : Int) * 1000000000) ≤ s.dev.tick →
    (s.dev.tooNear (((v.sec + 1 : Nat) : Int) * 1000000000) = false → Completes .dnsVectorUpdate s (fun t =>
      t = { s with dev := s.dev.vecApply v (((v.sec + 1 : Nat) : Int) * 1000000000) })) ∧
    (s.dev.tooNear (((v.sec + 1 : Nat) : Int) * 1000000000) = true → Completes .dnsVectorUpdate s (fun t => s.MainOnly t ∧
      t.dev.dns = { s.dev.dns with vec := some { v with sec := v.sec + 1 } } ∧
      t.dev.reg Reg.SFL_DYN_DEFER = (s.dev.reg Reg.SFL_DYN_DEFER).satAdd 1 ∧ t.dev = { s.dev with regs := t.dev.regs, dns := t.dev.dns })))

/-- Rule states (Table 6.7): a latched rule stays ASSERTED whatever is decided; one that is not ASSERTED and has counted nothing becomes
ASSERTED at the PERSIST-th true decision in a row and not before; an ASSERTED one without a latch, which has counted nothing, is CLEAR at the
DROPOUT-th false decision in a row and not before. -/
def Obligations.RulesPersistAndDrop : Prop :=
  (∀ (p q : Nat) (res : Option Bool) (x : RuleS), x.st = 1 → (ruleStep p q true res x).st = 1) ∧
  (∀ (p q n : Nat) (latch : Bool) (x : RuleS), x.st ≠ 1 → x.acount = 0 → 1 ≤ p → p ≤ 255 → n ≤ p →
    ((List.replicate n (some true)).foldl (fun y r => ruleStep p q latch r y) x).st = (if n = p then 1 else x.st)) ∧
  (∀ (p q n : Nat) (x : RuleS), x.st = 1 → x.dcount = 0 → 1 ≤ q → q ≤ 255 → n ≤ q →
    ((List.replicate n (some false)).foldl (fun y r => ruleStep p q false r y) x).st = (if n = q then 0 else 1))

/-! ### The Densitometer (chapter 7) -/

/-- The Densitometer's instants: an update moves on to the next analysis instant; a refresh leaves at most 64 modes to publish, and the
publication shows them and counts; an evaluation of forced oscillations sets the time of the next; a coherency result is counted,
or discarded when it is late; the second failed check in a row fails a core,
and an uncorrectable error in its memory at once; the warm-up ends. The Densitometer's host commands: `DNS_RESTART` without a part is a bad argument, with part 0 identification warms up again and
publishes nothing old; `DNS_FAIL` of a core that does not exist is a bad argument, of one out of service is refused. -/
def Obligations.Densitometer : Prop :=
  ((∀ s : State, s.dev.dnsRuns = true → s.dev.instantReady (s.dev.dns.m * 1000000000 / s.dev.aRate) = true → s.dev.dns.paused = none →
    Completes .dnsInstantUpdate s (fun t => s.MainOnly t ∧ t.dev.dns.m = s.dev.dns.m + 1 ∧ t.dev.dns.count = s.dev.dns.count + 1)) ∧
  (∀ s : State, s.dev.op.running = true → s.dev.coresIn ≠ 0 → s.dev.dnsTarget ≠ 4 → s.dev.dns.level = s.dev.dnsTarget →
    ((s.dev.nextRefresh * 200000000 : Nat) : Int) ≤ s.dev.tick →
    (s.dev.idEn = false ∨ s.dev.dns.paused.isSome = true → Completes .dnsRefresh s (fun t =>
      t = { s with dev := { s.dev with dns := { s.dev.dns with refresh := s.dev.nextRefresh } } })) ∧
    (s.dev.idEn = true → s.dev.dns.paused = none → Completes .dnsRefresh s (fun t => s.MainOnly t ∧
      t.dev = { s.dev with dns := t.dev.dns, free := t.dev.free } ∧ t.dev.dns.refresh = s.dev.nextRefresh ∧
      ∃ p, t.dev.dns.pend = some p ∧ p.modes.length ≤ 64 ∧ p.tick = (s.dev.nextRefresh * 200000000 : Nat) ∧ p.epoch = s.dev.tbu.epoch ∧
        (s.dev.dns.empty = true → p.modes = [])))) ∧
  (∀ (p : DnsPub) (s : State), s.dev.dns.pend = some p → s.dev.dnsRuns = true → Completes .dnsPublication s (fun t => s.MainOnly t ∧
    t.dev.dns.shown = p ∧ t.dev.dns.pend = none ∧ t.dev.reg Reg.DNS_MT_SEQ = s.dev.reg Reg.DNS_MT_SEQ + 1 ∧
    t.dev.reg Reg.DNS_MT_INFO = BitVec.ofNat 32 (p.modes.length + p.epoch * 65536))) ∧
  (∀ s : State, s.dev.dnsRuns = true → s.dev.idEn = true → s.dev.rbit Reg.DNS_CTRL 3 = true → s.dev.dns.foDue ≤ s.dev.tick →
    Completes .dnsFoEvaluation s (fun t => s.MainOnly t ∧
      t.dev.dns.foDue = s.dev.dns.foDue + (if s.dev.dnsLevel = 3 then 2000000000 else 1000000000) ∧
      t.dev = { s.dev with dns := t.dev.dns, free := t.dev.free, regs := t.dev.regs, host := t.dev.host, out := t.dev.out })) ∧
  (∀ (k : Nat) (s : State), s.dev.dnsRuns = true → s.dev.rbit Reg.DNS_CTRL 4 = true → k = s.dev.dns.cohSec + 1 →
    ((k * 1000000000 : Nat) : Int) ≤ s.dev.tick →
    let full := s.dev.dns.cohAt ≤ ((k : Int) - (clampNat 2 60 (s.dev.fld Reg.DNS_COH 0 6) : Int)) * 1000000000
    (¬full → k * s.dev.aRate < s.dev.dns.m → Completes .dnsCoherency s (fun t => t = { s with dev := { s.dev with dns := { s.dev.dns with cohSec := k } } })) ∧
    (full → ((k * 1000000000 + 900000000 : Nat) : Int) < s.dev.tick → Completes .dnsCoherency s (fun t => s.MainOnly t ∧
      t.dev.dns = { s.dev.dns with cohSec := k } ∧ t.dev.reg Reg.DNS_COH_LATE = (s.dev.reg Reg.DNS_COH_LATE).satAdd 1 ∧
      t.dev = { s.dev with dns := t.dev.dns, regs := t.dev.regs })) ∧
    (full → s.dev.tick ≤ ((k * 1000000000 + 900000000 : Nat) : Int) → k * s.dev.aRate < s.dev.dns.m → Completes .dnsCoherency s (fun t => s.MainOnly t ∧
      t.dev.dns.cohSec = k ∧ t.dev.reg Reg.DNS_COH_SEQ = s.dev.reg Reg.DNS_COH_SEQ + 1 ∧ t.dev.rbit Reg.DNS_EVT 3 = true ∧
      ∃ v, t.dev.dns.vec = some v ∧ v.sec = k))) ∧
  (∀ (core : Nat) (s : State), core < 16 → s.dev.dns.failed.contains core = false → s.dev.op.running = true ∨ s.dev.op = .config →
    (∀ pass : Bool, Completes (.dnsCoreCheck core pass true) s (fun t => t = { s with dev := s.dev.coreFault core 2 })) ∧
    Completes (.dnsCoreCheck core true false) s (fun t =>
      t = { s with dev := { s.dev with dns := { s.dev.dns with kat := KMap.del s.dev.dns.kat core } } }) ∧
    (KMap.getD s.dev.dns.kat core 0 = 0 → Completes (.dnsCoreCheck core false false) s (fun t =>
      t = { s with dev := { s.dev with dns := { s.dev.dns with kat := KMap.put s.dev.dns.kat core 1 } } })) ∧
    (1 ≤ KMap.getD s.dev.dns.kat core 0 → Completes (.dnsCoreCheck core false false) s (fun t => t = { s with dev := s.dev.coreFault core 1 }))) ∧
  (∀ s : State, s.dev.dns.warming = true → s.dev.dns.idAt + (s.dev.warmupS * 1000000000 : Nat) ≤ s.dev.tick →
    Completes .dnsWarmupEnd s (fun t => s.MainOnly t ∧ t.dev.dns.warming = false))) ∧
  ((∀ (h : CmdHdr) (mask : Nat) (s : State), s.dev.Admits h 0x50 [] true [.run, .degraded] →
    (mask % 8 = 0 → Completes (.dnsRestart h mask) s (fun t => t = { s with dev := s.dev.complete h 0x50 2 [] } ∧ Dev.Keeps noReg s.dev t.dev)) ∧
    (mask.testBit 0 = true → Completes (.dnsRestart h mask) s (fun t => s.MainOnly t ∧ t.dev.dns.warming = true ∧
      t.dev.dns.pend = none ∧ t.dev.dns.idAt = s.dev.tick ∧ t.dev.dns.paused = none)) ∧
    (mask % 8 ≠ 0 → Completes (.dnsRestart h mask) s (fun t => t = { s with dev :=
      ((s.dev.dnsRestartNoted (mask.testBit 0) (mask.testBit 1) (mask.testBit 2)).complete h 0x50 0 []) }))) ∧
  (∀ (h : CmdHdr) (core : Nat) (s : State), s.dev.Admits h 0x51 [] true legalCRD →
    (15 < core → Completes (.dnsFail h core) s (fun t => t = { s with dev := s.dev.complete h 0x51 2 [] } ∧ Dev.Keeps noReg s.dev t.dev)) ∧
    (core ≤ 15 → s.dev.dns.failed.contains core = true → Completes (.dnsFail h core) s (fun t =>
      t = { s with dev := s.dev.refuse h 0x51 6 1 0xFFFF [] } ∧ Dev.Keeps noReg s.dev t.dev)) ∧
    (core ≤ 15 → s.dev.dns.failed.contains core = false → Completes (.dnsFail h core) s (fun t =>
      t = { s with dev := (s.dev.coreFault core 3).complete h 0x51 0 [] }))))

/-! ### Shutter (chapter 8) -/

/-- The life of a capture: a trigger of an armed group with a free record starts a capture under the next identifier, without one
it is missed; at its end instant the group is CLOSING, it closes after its wait, the hold-off ends, and the group arms again when
a record is free; back-fill stands still while P4 is shed. Shutter's host commands: a group that does not exist, or a capture that is unknown or released, is a bad argument; a command that
does not fit the group's or the capture's state is refused; armed, disarmed, triggered, fetched and released as Table 8.13 gives. -/
def Obligations.Shutter : Prop :=
  ((∀ (e : ShtEv) (rest : List ShtEv) (s : State), s.dev.sht.evs = e :: rest →
    (s.dev.op.running = false → Completes .captureTrigger s (fun t => t = { s with dev := { s.dev with sht := { s.dev.sht with evs := rest } } })) ∧
    (∀ k, s.dev.op.running = true → e.g < 16 → (s.dev.grp e.g).st = 1 → s.dev.freeSlot e.g = some k → Completes .captureTrigger s (fun t =>
      s.MainOnly t ∧ t.dev.reg Reg.SHT_NEXT_ID = s.dev.reg Reg.SHT_NEXT_ID + 1 ∧
      t.dev.reg (Reg.SHT_GRP_LAST_ID e.g) = s.dev.reg Reg.SHT_NEXT_ID ∧ (t.dev.grp e.g).st = 2 ∧
      (∃ c ∈ t.dev.sht.caps, c.id = (s.dev.reg Reg.SHT_NEXT_ID).toNat ∧ c.g = e.g ∧ c.slot = k ∧ c.st = 1 ∧ c.t0 = e.inst ∧
        c.primary = e.src ∧ c.released = false) ∧
      t.dev = { s.dev with regs := t.dev.regs, sht := t.dev.sht })) ∧
    (s.dev.op.running = true → e.g < 16 → (s.dev.grp e.g).st = 1 → s.dev.freeSlot e.g = none → Completes .captureTrigger s (fun t =>
      s.MainOnly t ∧ t.dev.reg (Reg.SHT_GRP_MISSED e.g) = (s.dev.reg (Reg.SHT_GRP_MISSED e.g)).satAdd 1 ∧
      t.dev.rbit Reg.SHT_EVT 1 = true ∧ t.dev.sht.caps = s.dev.sht.caps ∧ (t.dev.grp e.g).st = 1 ∧
      Dev.Keeps (fun off => off == Reg.SHT_GRP_MISSED e.g || off == Reg.SHT_EVT) { s.dev with sht := t.dev.sht } t.dev))) ∧
  (∀ (g : Nat) (c : Capture) (s : State), s.dev.recording g = some c →
    ((s.dev.grp g).st = 2 → c.endT ≤ s.dev.t16 → Completes (.captureEndInstant g) s (fun t =>
      t = { s with dev := s.dev.setGrp g { s.dev.grp g with st := 3 } })) ∧
    ((s.dev.grp g).st = 3 → c.endT + closeWait (s.dev.grp g).tab g ≤ s.dev.t16 → s.dev.looksDone c = true →
      Completes (.captureClose g) s (fun t => t = { s with dev := s.dev.closeCapture g 0 none } ∧
        t.dev.sht.caps = s.dev.sht.caps.map (fun x => if x.id = c.id ∧ x.g = c.g then { c with st := 2, reason := 0, chans := c.chans.map (fun y =>
          { y with endN := some (max y.first (firstSmp y.rate c.endT)) }) } else x))) ∧
    (s.dev.t16 < c.endT → Completes (.captureEndInstant g) s (fun t => t = s))) ∧
  (∀ (g : Nat) (s : State), (s.dev.grp g).st = 4 → s.dev.holdOver g = true → Completes (.holdoffEnd g) s (fun t =>
    t = { s with dev := s.dev.setGrp g { s.dev.grp g with st := 5 } })) ∧
  (∀ (g k : Nat) (s : State), (s.dev.grp g).st = 5 → s.dev.freeSlot g = some k → Completes (.groupRearm g) s (fun t =>
    t = { s with dev := s.dev.setGrp g { s.dev.grp g with st := 1 } })) ∧
  (∀ (g fails : Nat) (c : Capture) (s : State), s.dev.filling g = some c →
    (s.dev.sht.p4shed = true → Completes (.backfillBlock g fails) s (fun t => t = s)) ∧
    (s.dev.sht.p4shed = false → s.dev.op.running = true ∨ s.dev.op = .config → c.code = 0 ∨ s.dev.clientTurn 0 = true →
      Completes (.backfillBlock g fails) s (fun t => t = { s with dev := s.dev.fillBlock c fails })))) ∧
  ((∀ (h : CmdHdr) (g : Nat) (s : State), s.dev.Admits h 0x60 [] true [.run, .degraded] →
    (15 < g → Completes (.shtArm h g) s (fun t => t = { s with dev := s.dev.complete h 0x60 2 [] })) ∧
    (g ≤ 15 → gEn s.dev.act g = false ∨ ((s.dev.grp g).st ≠ 0 ∧ (s.dev.grp g).st ≠ 6) → Completes (.shtArm h g) s (fun t =>
      t = { s with dev := s.dev.refuse h 0x60 6 1 0xFFFF [] } ∧ Dev.Keeps noReg s.dev t.dev)) ∧
    (g ≤ 15 → gEn s.dev.act g = true → (s.dev.grp g).st = 6 → Completes (.shtArm h g) s (fun t => s.MainOnly t ∧
      t.dev.grp g = { s.dev.grp g with st := 1 } ∧ Dev.Keeps noReg { s.dev with sht := t.dev.sht } t.dev)) ∧
    (g ≤ 15 → gEn s.dev.act g = true → (s.dev.grp g).st = 0 → Completes (.shtArm h g) s (fun t => s.MainOnly t ∧
      (t.dev.grp g).st = 1 ∧ (t.dev.grp g).tab = s.dev.shtTab ∧ (t.dev.grp g).gen = (s.dev.grp g).gen + 1 ∧ t.dev.sht.caps = s.dev.sht.caps))) ∧
  (∀ (h : CmdHdr) (g : Nat) (s : State), s.dev.Admits h 0x61 [] true [.run, .degraded] →
    (15 < g → Completes (.shtDisarm h g) s (fun t => t = { s with dev := s.dev.complete h 0x61 2 [] })) ∧
    (g ≤ 15 → (s.dev.grp g).st = 0 → Completes (.shtDisarm h g) s (fun t =>
      t = { s with dev := s.dev.refuse h 0x61 6 1 0xFFFF [] } ∧ Dev.Keeps noReg s.dev t.dev)) ∧
    (g ≤ 15 → (s.dev.grp g).st ≠ 0 → Completes (.shtDisarm h g) s (fun t => s.MainOnly t ∧ (t.dev.grp g).st = 0 ∧
      (t.dev.grp g).trigs = [] ∧ (s.dev.recording g = none → Dev.Keeps noReg { s.dev with sht := t.dev.sht } t.dev)))) ∧
  (∀ (h : CmdHdr) (g : Nat) (s : State), s.dev.Admits h 0x62 [] true [.run, .degraded] →
    (15 < g → Completes (.shtTrigger h g) s (fun t => t = { s with dev := s.dev.complete h 0x62 2 [] })) ∧
    (g ≤ 15 → (s.dev.grp g).st = 0 ∨ (s.dev.grp g).st = 6 ∨ (gW (s.dev.grp g).tab g 3).bit 11 = false → Completes (.shtTrigger h g) s (fun t =>
      t = { s with dev := s.dev.refuse h 0x62 6 1 0xFFFF [] } ∧ Dev.Keeps noReg s.dev t.dev)) ∧
    (g ≤ 15 → (s.dev.grp g).st ≠ 0 → (s.dev.grp g).st ≠ 6 → (gW (s.dev.grp g).tab g 3).bit 11 = true → Completes (.shtTrigger h g) s (fun t =>
      let r := s.dev.trigger { g := g, src := 75, inst := s.dev.t16, detail := 0xFFFF, mark := none }
      t = { s with dev := r.2.complete h 0x62 0 [0, 0, BitVec.ofNat 32 r.1] }))) ∧
  (∀ (h : CmdHdr) (id off len addr : Nat) (e : Option Nat) (s : State), s.dev.Admits h 0x63 [] true legalCRD →
    (s.dev.capById id = none → Completes (.shtFetch h id off len addr e) s (fun t => t = { s with dev := s.dev.complete h 0x63 2 [] })) ∧
    (∀ c, s.dev.capById id = some c → 4 ≤ len → len ≤ 4194304 → len % 4 = 0 →
      (c.st ≠ 3 → Completes (.shtFetch h id off len addr e) s (fun t => t = { s with dev := s.dev.refuse h 0x63 6 1 0xFFFF [] })) ∧
      (c.st = 3 → c.bytes < off + len → Completes (.shtFetch h id off len addr e) s (fun t =>
        t = { s with dev := s.dev.complete h 0x63 2 [] } ∧ Dev.Keeps noReg s.dev t.dev)) ∧
      (c.st = 3 → off + len ≤ c.bytes → e = none → Completes (.shtFetch h id off len addr e) s (fun t => s.MainOnly t ∧
        .hostWrite addr (.capture id off (((c.header s.fuse.part.trigSample ++ c.data).drop off).take len)) ∈ t.dev.out ∧
        Dev.Keeps noReg s.dev t.dev)) ∧
      (∀ n, c.st = 3 → off + len ≤ c.bytes → e = some n → Completes (.shtFetch h id off len addr e) s (fun t => s.MainOnly t ∧
        Dev.Keeps (fun o => o == Reg.HST_EVT) s.dev t.dev ∧ t.dev.rbit Reg.HST_EVT 2 = true)))) ∧
  (∀ (h : CmdHdr) (id : Nat) (s : State), s.dev.Admits h 0x64 [] true legalCRD →
    (s.dev.capById id = none → Completes (.shtRelease h id) s (fun t => t = { s with dev := s.dev.complete h 0x64 2 [] })) ∧
    (∀ c, s.dev.capById id = some c → c.st ≠ 3 → Completes (.shtRelease h id) s (fun t =>
      t = { s with dev := s.dev.refuse h 0x64 6 1 0xFFFF [] } ∧ Dev.Keeps noReg s.dev t.dev)) ∧
    (∀ c, s.dev.capById id = some c → c.st = 3 → Completes (.shtRelease h id) s (fun t => s.MainOnly t ∧
      t.dev.sht = { s.dev.sht with caps := reclaim c.g (s.dev.putCap { c with released := true }).sht.caps } ∧
      Dev.Keeps noReg { s.dev with sht := t.dev.sht } t.dev))))

/-! ### Swage (chapter 9) -/

/-- Host job contexts: a context, kind or code out of range is a bad argument, and an idle CLOSED context opens; a buffer is refused by a
CLOSED context, joins the queue of an open one with fewer than 8 and finds no resource beyond; fed samples join the partial block; a
flush of nothing and a close end at once, the abort empties the context; a block is coded in its client's turn, and the client counts as
the last one served. -/
def Obligations.SwageContexts : Prop :=
  (∀ (h : CmdHdr) (ctx kind code label : Nat) (s : State), s.dev.Admits h 0x70 [] s.fuse.part.hasSwg legalCRD →
    (3 < ctx ∨ 1 < kind ∨ code < 1 ∨ 6 < code → Completes (.swgOpen h ctx kind code label) s (fun t =>
      t = { s with dev := s.dev.complete h 0x70 2 [] } ∧ Dev.Keeps noReg s.dev t.dev)) ∧
    (ctx ≤ 3 → kind ≤ 1 → 1 ≤ code → code ≤ 6 → s.dev.swgCtx ctx = SwgCtx.new → Completes (.swgOpen h ctx kind code label) s (fun t =>
      s.MainOnly t ∧ t.dev.swgCtx ctx = { SwgCtx.new with st := 1, kind := kind, code := code, label := label % 65536 } ∧
      (∀ n, n ≠ ctx → t.dev.swgCtx n = s.dev.swgCtx n) ∧ Dev.Keeps noReg { s.dev with swg := t.dev.swg } t.dev))) ∧
  (∀ (h : CmdHdr) (ctx addr len : Nat) (e : Bool) (s : State), s.dev.Admits h 0x71 [] s.fuse.part.hasSwg legalCRD → ctx ≤ 3 → addr % 4 = 0 → len % 4 = 0 →
    (if (s.dev.swgCtx ctx).kind = 0 then 1056 else 5152) ≤ len → len ≤ 16777216 →
    ((s.dev.swgCtx ctx).st = 0 → Completes (.swgBuf h ctx addr len e) s (fun t =>
      t = { s with dev := s.dev.refuse h 0x71 6 1 0xFFFF [] } ∧ Dev.Keeps noReg s.dev t.dev)) ∧
    ((s.dev.swgCtx ctx).st ≠ 0 → 8 ≤ (s.dev.swgCtx ctx).bufs.length → Completes (.swgBuf h ctx addr len e) s (fun t =>
      t = { s with dev := s.dev.complete h 0x71 3 [] } ∧ Dev.Keeps noReg s.dev t.dev)) ∧
    ((s.dev.swgCtx ctx).st ≠ 0 → (s.dev.swgCtx ctx).bufs.length < 8 → (s.dev.swgCtx ctx).coded = none → Completes (.swgBuf h ctx addr len e) s
      (fun t => t = { s with dev := s.dev.putSwgCtx ctx { s.dev.swgCtx ctx with bufs := (s.dev.swgCtx ctx).bufs ++
        [{ hdr := h, addr := addr, len := len, used := 0, blocks := 0 }] } }))) ∧
  (∀ (h : CmdHdr) (ctx addr count : Nat) (xs : List (List Word)) (e : Bool) (s : State), s.dev.Admits h 0x72 [] s.fuse.part.hasSwg legalCRD →
    ctx ≤ 3 → addr % 4 = 0 → 1 ≤ count → count ≤ 1048576 → xs.length ≤ count →
    let x := s.dev.swgCtx ctx
    x.st = 1 → x.cur = none → x.wait = [] → x.ready = none → x.coded = none → x.partial_.length + xs.length < 256 →
    Completes (.swgFeed h ctx addr count xs e) s (fun t => s.MainOnly t ∧
      t.dev.swgCtx ctx = { x with partial_ := x.partial_ ++ xs, index := (x.index + xs.length) % 4294967296 } ∧
      Dev.Keeps (fun o => e && o == Reg.HST_EVT) { s.dev with swg := t.dev.swg } t.dev)) ∧
  (∀ (h : CmdHdr) (ctx : Nat) (s : State), ctx ≤ 3 →
    let x := s.dev.swgCtx ctx
    x.st = 1 → x.cur = none → x.wait = [] → x.ready = none → x.coded = none → x.partial_ = [] →
    (s.dev.Admits h 0x73 [] s.fuse.part.hasSwg legalCRD → Completes (.swgFlush h ctx) s (fun t => s.MainOnly t ∧ t.dev.swgCtx ctx = x ∧
      Dev.Keeps noReg { s.dev with swg := t.dev.swg } t.dev)) ∧
    (s.dev.Admits h 0x74 [] s.fuse.part.hasSwg legalCRD → Completes (.swgClose h ctx) s (fun t => s.MainOnly t ∧
      t.dev.swgCtx ctx = SwgCtx.new ∧ Dev.Keeps noReg { s.dev with swg := t.dev.swg } t.dev))) ∧
  (∀ (h : CmdHdr) (ctx : Nat) (s : State), s.dev.Admits h 0x74 [] s.fuse.part.hasSwg legalCRD → ctx ≤ 3 →
    ((s.dev.swgCtx ctx).st = 0 → Completes (.swgCloseAbort h ctx) s (fun t =>
      t = { s with dev := s.dev.refuse h 0x74 6 1 0xFFFF [] } ∧ Dev.Keeps noReg s.dev t.dev)) ∧
    ((s.dev.swgCtx ctx).st ≠ 0 → Completes (.swgCloseAbort h ctx) s (fun t => s.MainOnly t ∧ t.dev.swgCtx ctx = SwgCtx.new ∧
      Dev.Keeps noReg { s.dev with swg := t.dev.swg } t.dev))) ∧
  (∀ (n fails : Nat) (e : Bool) (s : State), n < 4 →
    ((s.dev.swgCtx n).ready = none → Completes (.swgBlockCode (n + 1) fails e) s (fun t => t = s)) ∧
    ((s.dev.swgCtx n).ready.isSome = true → s.dev.sht.p4shed = false → legalCRD.contains s.dev.op = true → s.dev.clientTurn (n + 1) = true →
      Completes (.swgBlockCode (n + 1) fails e) s (fun t => s.MainOnly t ∧ t.dev.swg.last = n + 1)))

/-! ### The Publisher and Braze (chapter 10) -/

/-- A Braze frame on a port that is on: for another device it counts in `NOPEER`, without a good tag in `AUTH`, with a (session,
sequence) below the last accepted in `REPLAY`, and is dropped; the same number again counts in `REPEAT`; a later one is accepted
and becomes the last. What the Publisher and Braze do by the clock: delayed sets leave in order, the seal of a second ends it and starts the next,
HEARTBEAT, TIME_SYNC, TIME_REQ and TWIN_STATE set the time of the next, a silent link goes DOWN, an alarm that is not acknowledged
goes out again. -/
def Obligations.Braze : Prop :=
  (∀ (f : BrzFrame) (s : State), s.dev.brzRun = true → s.dev.brzPortOn f.port = true →
    let x := s.dev.peer f.port f.src
    let mine := f.dst = s.dev.brzOwn ∨ (s.dev.isTwin = true ∧ f.dst = s.dev.brzPair)
    (¬mine → Completes (.brazeFrameReceived f) s (fun t => t = { s with dev := s.dev.bump (Reg.BRZ_PORT_NOPEER f.port) 1 })) ∧
    (mine → s.dev.brzAuth f = false → Completes (.brazeFrameReceived f) s (fun t =>
      t = { s with dev := s.dev.bump (Reg.BRZ_PORT_AUTH f.port) 1 })) ∧
    (mine → s.dev.brzAuth f = true → seqNum f.session f.seq < seqNum x.session x.seq → Completes (.brazeFrameReceived f) s (fun t =>
      t = { s with dev := s.dev.bump (Reg.BRZ_PORT_REPLAY f.port) 1 })) ∧
    (mine → s.dev.brzAuth f = true → seqNum f.session f.seq = seqNum x.session x.seq → Completes (.brazeFrameReceived f) s (fun t =>
      t = { s with dev := (s.dev.bump (Reg.BRZ_PORT_REPEAT f.port) 1).brzRepeat f })) ∧
    (mine → s.dev.brzAuth f = true → seqNum x.session x.seq < seqNum f.session f.seq → x.up = true → f.payload = .heartbeat →
      Completes (.brazeFrameReceived f) s (fun t => s.MainOnly t ∧
        t.dev.peer f.port f.src = { x with session := f.session, seq := f.seq, lastRx := s.dev.raw } ∧
        t.dev.reg (Reg.BRZ_PORT_RXFRAMES f.port) = s.dev.reg (Reg.BRZ_PORT_RXFRAMES f.port) + 1 ∧
        (∀ off, off ≠ Reg.BRZ_PORT_RXFRAMES f.port → t.dev.reg off = s.dev.reg off) ∧
        t.dev = { s.dev with regs := t.dev.regs, brz := t.dev.brz }))) ∧
  ((∀ (x : Delayed) (rest : List Delayed) (s : State), s.dev.pub.delayed = x :: rest → x.due ≤ s.dev.raw →
    s.dev.op.running = true ∨ s.dev.op = .config → s.dev.pub.withdrawn = false → Completes .standbyDelayedSend s (fun t =>
      s.MainOnly t ∧ t.dev.pub.delayed = rest)) ∧
  (∀ (n : Nat) (c : SealS) (s : State), s.dev.sealDue n = true → KMap.get? s.dev.pub.chains n = some c →
    (((c.sec + 1) * 1000000000 : Nat) : Int) ≤ s.dev.tick → Completes (.sealDatagram n) s (fun t => s.MainOnly t ∧
      KMap.get? t.dev.pub.chains n = some { h := Config.sha256 (beBytes 32 c.h ++ c.frames.flatMap (fun x => beBytes 32 x)),
                                            sec := c.sec + 1, epoch := s.dev.tbu.epoch, frames := c.next, next := [] } ∧
      (s.dev.keyFor 3 (oSealSlot s.dev.act n) = none → t.dev.reg Reg.PUB_SEAL_FAIL = (s.dev.reg Reg.PUB_SEAL_FAIL).satAdd 1 ∧
        t.dev.net = s.dev.net ∧ t.dev.rbit Reg.PUB_EVT 0 = true) ∧
      ((s.dev.keyFor 3 (oSealSlot s.dev.act n)).isSome = true → t.dev.reg Reg.PUB_SEALS = s.dev.reg Reg.PUB_SEALS + 1))) ∧
  (∀ s : State, s.dev.brzRun = true → s.dev.brz.nextHb ≤ s.dev.raw → Completes .brzHeartbeatTx s (fun t => s.MainOnly t ∧
    t.dev.brz = { s.dev.brz with nextHb := s.dev.raw + s.dev.hbNs, tx := t.dev.brz.tx } ∧
    t.dev = { s.dev with regs := t.dev.regs, brz := t.dev.brz, out := t.dev.out })) ∧
  (∀ (port dev : Nat) (s : State), (s.dev.peer port dev).up = true → (s.dev.peer port dev).lastRx + 3 * s.dev.hbNs ≤ s.dev.raw →
    Completes (.brzLinkDown port dev) s (fun t => s.MainOnly t ∧ t.dev.peer port dev = { s.dev.peer port dev with up := false } ∧
      t.dev.rbit Reg.BRZ_EVT 0 = true)) ∧
  (∀ (p : BrzPayload) (s : State), s.dev.brz.pending = some p → s.dev.uplink = true → s.dev.brzRun = true → s.dev.brz.nextRto ≤ s.dev.raw →
    Completes .brzAlarmRetransmit s (fun t => s.MainOnly t ∧ t.dev.brz.nextRto = s.dev.raw + s.dev.rtoNs ∧ t.dev.brz.pending = some p ∧
      t.dev = { s.dev with regs := t.dev.regs, brz := t.dev.brz, out := t.dev.out })) ∧
  (∀ (dev : Nat) (c : Nat × Nat) (s : State), s.dev.children.find? (fun x => x.2 == dev) = some c → s.dev.brzRun = true →
    s.dev.brzActive = true → KMap.getD s.dev.brz.syncAt dev 0 ≤ s.dev.raw → Completes (.brzTimeSyncTx dev) s (fun t => s.MainOnly t ∧
      KMap.get? t.dev.brz.syncAt dev = some (s.dev.raw + 125000000) ∧
      t.dev = { s.dev with regs := t.dev.regs, brz := t.dev.brz, out := t.dev.out })) ∧
  (∀ s : State, s.dev.brzRun = true → s.dev.uplink = true → s.dev.brz.reqAt + 1000000000 ≤ s.dev.raw → Completes .brzTimeReqTx s (fun t =>
    s.MainOnly t ∧ t.dev.brz.reqAt = s.dev.raw ∧ t.dev.brz.t1 = some s.dev.t16 ∧
      t.dev = { s.dev with regs := t.dev.regs, brz := t.dev.brz, out := t.dev.out })) ∧
  (∀ s : State, s.dev.isTwin = true → s.dev.brzRun = true → s.dev.brz.nextTwin ≤ s.dev.raw → Completes .twinStateTx s (fun t =>
    s.MainOnly t ∧ t.dev.brz.nextTwin = s.dev.raw + 1000000 ∧ t.dev.brz.wasLock = decide (s.dev.tbu.sync = 2) ∧
      t.dev.brz.role = s.dev.brz.role ∧ t.dev = { s.dev with regs := t.dev.regs, brz := t.dev.brz, out := t.dev.out })))

/-- Roles of a twin pair: the takeover after `TAKEOVER_MS` makes the device ACTIVE; checks that find both devices well count a
transient; `BRZ_SWAP` is refused unless the device is ACTIVE and its partner ready, and then offers the role. -/
def Obligations.TwinRoles : Prop :=
  (∀ (c u : Nat) (s : State), s.dev.twinWatch.brz.since = some (c, u) →
    (u + zeroActs 1 (s.dev.fld Reg.BRZ_TWIN_TIMING 16 8) * 1000000 ≤ s.dev.raw → Completes .twinTakeover s (fun t => s.MainOnly t ∧
      t.dev = s.dev.twinWatch.takeover c ∧ t.dev.brz.role = 1 ∧ t.dev.brz.since = none)) ∧
    (s.dev.raw < u + zeroActs 1 (s.dev.fld Reg.BRZ_TWIN_TIMING 16 8) * 1000000 → Completes .twinTakeover s (fun t =>
      t = { s with dev := s.dev.twinWatch }))) ∧
  (∀ (x : Nat × Nat) (r : TwinCheckResult) (s : State), s.dev.brz.checkDue = some x → s.dev.op.running = true → r.selfTilesBad = [] →
    r.selfPubOk = true → Completes (.twinChecks r) s (fun t => s.MainOnly t ∧
      t.dev.brz = { s.dev.brz with checkDue := none, trans := if r.partnerOk then s.dev.raw :: s.dev.brz.trans.filter (fun u =>
        decide (s.dev.raw < u + 60000000000)) else s.dev.brz.trans } ∧
      Dev.Keeps noReg { s.dev with brz := t.dev.brz } t.dev)) ∧
  (∀ (h : CmdHdr) (s : State), s.dev.Admits h 0x80 [] true [.run, .degraded] →
    (s.dev.brz.role ≠ 1 ∨ s.dev.partnerReady = false → Completes (.brzSwap h) s (fun t =>
      t = { s with dev := s.dev.refuse h 0x80 6 1 0xFFFF [] } ∧ Dev.Keeps noReg s.dev t.dev)) ∧
    (s.dev.brz.role = 1 → s.dev.partnerReady = true → s.dev.isTwin = true → Completes (.brzSwap h) s (fun t => s.MainOnly t ∧
      t.dev.brz.swap = s.dev.brz.swap ++ [h] ∧ t.dev.brz.giveUp = true ∧ t.dev.brz.role = 1 ∧
      t.dev = { s.dev with regs := t.dev.regs, brz := t.dev.brz, out := t.dev.out })))

/-! ### Filigree (chapter 11) -/

/-- A frame read from the radio: a wrong status is a radio link fault; an unknown version counts in `RX_UNSUP`, another PAN's frame
changes nothing, too low a security level counts in `INSECURE` and for its node, and a hop counter below the last accepted of its node is a replay. Filigree by the clock: a beacon joins the frames that wait; an acknowledgement takes the next hop counter; a clear channel puts the frame on the air; frames
expire; a silent node is LOST; identifiers leave the seen cache; the SFD is stamped to within 8 ns; the radio's reset ends. -/
def Obligations.RadioTraffic : Prop :=
  (∀ (f : FlgFrame) (s : State), s.dev.flgOn = true → s.dev.flg.rst = none →
    (f.statusByte / 16 ≠ 1 → Completes (.flgFrameReceived f) s (fun t => t.dev = s.dev.rlpFault 2 f.statusByte ∧
      t.dev.flg.rst = some (s.dev.raw + 1000000) ∧ t.bd = s.bd)) ∧
    (f.statusByte / 16 = 1 → f.statusByte.testBit 2 = false →
      (f.version ≠ 2 ∨ f.body = .unsupported ∨ 6 < f.level → Completes (.flgFrameReceived f) s (fun t =>
        t.dev = s.dev.bump Reg.FLG_RX_UNSUP 1)) ∧
      (f.version = 2 → f.body ≠ .unsupported → f.level ≤ 6 →
        (f.pan ≠ s.dev.fld Reg.FLG_PAN 0 16 ∨ (f.dst ≠ s.dev.ownShort ∧ f.dst ≠ 0xFFFF) → Completes (.flgFrameReceived f) s (fun t =>
          t.dev = s.dev)) ∧
        (f.pan = s.dev.fld Reg.FLG_PAN 0 16 → f.dst = s.dev.ownShort ∨ f.dst = 0xFFFF →
          (f.level < 5 + s.dev.fld Reg.FLG_SEC 0 1 ∨ f.keyIndex ≠ s.dev.fld Reg.FLG_SEC 16 8 → Completes (.flgFrameReceived f) s (fun t =>
            t.dev = s.dev.nodeMicFail Reg.FLG_INSECURE (s.dev.frameNode f))) ∧
          (∀ n, 5 + s.dev.fld Reg.FLG_SEC 0 1 ≤ f.level → f.keyIndex = s.dev.fld Reg.FLG_SEC 16 8 → f.micOk = true →
            s.dev.frameNode f = some n → f.counter.toNat < (s.dev.flgNode n).lastFc.toNat → Completes (.flgFrameReceived f) s (fun t =>
              t.dev = s.dev.nodeReplay n ∧ (t.dev.flgNode n).lastFc = (s.dev.flgNode n).lastFc)))))) ∧
  ((∀ s : State, s.dev.flgTxOn = true → s.dev.flg.nextBcn ≤ s.dev.tick → Completes .flgBeacon s (fun t =>
    t.dev.flg.nextBcn = (s.dev.tick / ((s.dev.bcnMs * 1000000 : Nat) : Int) + 1) * ((s.dev.bcnMs * 1000000 : Nat) : Int) ∧
      t.dev.flg.queue.length + t.dev.flg.air.toList.length = s.dev.flg.queue.length + s.dev.flg.air.toList.length + 1 ∧
      s.nv.hopCtr ≤ t.nv.hopCtr ∧
      t.nv = { s.nv with hopCtr := t.nv.hopCtr } ∧ t.bd = s.bd)) ∧
  (∀ (x : FlgTx) (rest : List FlgTx) (rssi : List Int) (s : State), s.dev.flg.queue = x :: rest → s.dev.flgTxOn = true →
    s.dev.flg.air = none → x.ready = true → x.due ≤ s.dev.raw →
    (rssi.all (fun r => decide (r < signedOf 8 (s.dev.fld Reg.FLG_LBT 16 8))) = true → Completes (.flgBackoff rssi) s (fun t =>
      t.dev.flg.queue = rest ∧ t.dev.reg Reg.FLG_TX_FRAMES = s.dev.reg Reg.FLG_TX_FRAMES + 1 ∧
      ∃ a, t.dev.flg.air = some a ∧ a.sfd = none ∧ a.pred = s.dev.raw + s.dev.fld Reg.FLG_RLP_TXLAT 0 24)) ∧
    (rssi.all (fun r => decide (r < signedOf 8 (s.dev.fld Reg.FLG_LBT 16 8))) = false → x.nb < s.dev.fld Reg.FLG_LBT 12 3 →
      Completes (.flgBackoff rssi) s (fun t => ∃ y, t.dev.flg.queue = y :: rest ∧ y.nb = x.nb + 1 ∧ y.f = x.f ∧
        t.dev = { s.dev with flg := t.dev.flg, free := t.dev.free })) ∧
    (rssi.all (fun r => decide (r < signedOf 8 (s.dev.fld Reg.FLG_LBT 16 8))) = false → s.dev.fld Reg.FLG_LBT 12 3 ≤ x.nb →
      Completes (.flgBackoff rssi) s (fun t => t.dev = s.dev.ccaFail x rest))) ∧
  (∀ (due dst q : Nat) (pend : Bool) (rest : List (Nat × Nat × Nat × Bool)) (s : State), s.dev.flg.acks = (due, dst, q, pend) :: rest →
    s.dev.flgTxOn = true → due ≤ s.dev.raw → Completes .flgAckTurnaround s (fun t => t.dev.flg.acks = rest ∧
      t.dev.flg.ctr = s.dev.flg.ctr + 1 ∧ t.dev.reg Reg.FLG_TX_FRAMES = s.dev.reg Reg.FLG_TX_FRAMES + 1)) ∧
  (∀ (a : FlgAir) (u : Nat) (s : State), s.dev.flg.air = some a → a.sfd = some u → a.tx.uni = true →
    u + s.dev.airNs a.tx.f.len + clampNat 1000 65535 (s.dev.fld Reg.FLG_ACK 16 13 * 8) * 1000 ≤ s.dev.raw →
    let d : Dev := { s.dev with flg := { s.dev.flg with air := none } }
    Completes .flgAckTimeout s (fun t => t.dev = d.noAck a.tx)) ∧
  (∀ (x : FlgHeld) (s : State), s.dev.flg.held.find? (fun y => decide (y.due ≤ s.dev.raw)) = some x → Completes .flgHeldFrameExpiry s (fun t =>
    t.dev.flg.held = s.dev.flg.held.filter (fun y => y.id != x.id) ∧ t.bd = s.bd)) ∧
  (∀ (n : Nat) (s : State), s.dev.flgOn = true → (s.dev.flgNode n).st = 2 → (s.dev.flgNode n).heardRaw + 3 * s.dev.contactNs n < s.dev.raw →
    Completes (.flgNodeLost n) s (fun t => (t.dev.flgNode n).st = 3)) ∧
  (∀ (u : Nat) (s : State), s.dev.flg.expect = some u → s.dev.flgOn = true → s.dev.isRouter = true → s.dev.flg.up = 2 → u + 5000000 < s.dev.raw →
    (s.dev.flg.missed < 2 → Completes .flgParentBeaconMissed s (fun t => t.dev = { s.dev with flg := { s.dev.flg with
      missed := s.dev.flg.missed + 1, expect := some (u + s.dev.bcnMs * 1000000) } })) ∧
    (2 ≤ s.dev.flg.missed → Completes .flgParentBeaconMissed s (fun t => t.dev.flg.up = 1 ∧ t.dev.flg.expect = none ∧
      Dev.Keeps (fun off => off == Reg.FLG_EVT) { s.dev with flg := t.dev.flg } t.dev))) ∧
  (∀ (r : Nat × RadioTx) (s : State), s.dev.flg.relay.find? (fun x => decide (x.1 ≤ s.dev.raw)) = some r → Completes .flgFloodRelay s (fun t =>
    t.dev.flg.relay = s.dev.flg.relay.erase r)) ∧
  (∀ s : State, Completes .flgSeenExpiry s (fun t => t.dev = { s.dev with flg := { s.dev.flg with
    seen := s.dev.flg.seen.filter (fun x => decide (s.dev.raw < x.2.2)) } })) ∧
  (∀ s : State, s.dev.flgOn = true → s.dev.flg.air = none → s.dev.flg.ackPred = none → Completes .rlpSfdEdge s (fun t =>
    (t.dev.flg.sfd : Int) ≤ s.dev.raw + 8 ∧ (s.dev.raw : Int) ≤ t.dev.flg.sfd + 8 ∧
      t.dev = { s.dev with flg := { s.dev.flg with sfd := t.dev.flg.sfd }, free := s.dev.free + 1 })) ∧
  (∀ (a : FlgAir) (s : State), s.dev.flgOn = true → s.dev.flg.air = some a → a.sfd = none → a.pred + 2000000 < s.dev.raw →
    Completes .rlpSfdTimeout s (fun t => t.dev = s.dev.rlpFault 1 0 ∧ t.dev.flg.rst = some (s.dev.raw + 1000000))) ∧
  (∀ (u : Nat) (s : State), s.dev.flg.rst = some u → u ≤ s.dev.raw → Completes .rlpResetEnd s (fun t => t.dev.flg.rst = none)))

/-- `FLG_SEND` and `FLG_DISASSOC`: a node or a length outside its range is a bad argument, a node that is not associated is refused, a
unit that does not send ends the send with reason 1; otherwise the payload takes the next replay counter, and the Disassociation
is held for a sleepy node or joins the frames that wait. -/
def Obligations.MeshCommands : Prop :=
  (∀ (h : CmdHdr) (node addr len : Nat) (force : Bool) (data : List Byte) (s : State), s.dev.Admits h 0x90 [] s.fuse.part.hasFlg [.run, .degraded] →
    ((2047 < node ∧ node ≠ 0xFFFF) ∨ len < 1 ∨ 128 < len → Completes (.flgSend h node force addr len data false) s (fun t =>
      t.dev = s.dev.complete h 0x90 2 [] ∧ Dev.Keeps noReg s.dev t.dev)) ∧
    (node ≤ 2047 → 1 ≤ len → len ≤ 128 → force = false → (s.dev.flgNode node).st ≠ 2 → Completes (.flgSend h node force addr len data false) s
      (fun t => t.dev = s.dev.refuse h 0x90 6 1 0xFFFF [] ∧ Dev.Keeps noReg s.dev t.dev)) ∧
    (node ≤ 2047 → 1 ≤ len → len ≤ 128 → force = true ∨ (s.dev.flgNode node).st = 2 →
      (s.dev.flgOn = false ∨ s.dev.flg.ended = true → Completes (.flgSend h node force addr len data false) s (fun t =>
        t.dev = s.dev.complete h 0x90 7 [0, 0, 1] ∧ Dev.Keeps noReg s.dev t.dev)) ∧
      (s.dev.flgOn = true → s.dev.flg.ended = false → s.dev.flg.up ≠ 1 → Completes (.flgSend h node force addr len data false) s (fun t =>
        t.dev.flg.rcOut = s.dev.flg.rcOut + 1 ∧ t.bd = s.bd ∧ t.nv = { s.nv with hopCtr := t.nv.hopCtr })))) ∧
  (∀ (h : CmdHdr) (node : Nat) (s : State), s.dev.Admits h 0x91 [] s.fuse.part.hasFlg [.run, .degraded] →
    (2047 < node → Completes (.flgDisassoc h node) s (fun t => t.dev = s.dev.complete h 0x91 2 [] ∧ Dev.Keeps noReg s.dev t.dev)) ∧
    (node ≤ 2047 → (s.dev.flgNode node).st ≠ 2 ∨ (s.dev.flgNode node).direct = false → Completes (.flgDisassoc h node) s (fun t =>
      t.dev = s.dev.refuse h 0x91 6 1 0xFFFF [] ∧ Dev.Keeps noReg s.dev t.dev)) ∧
    (node ≤ 2047 → (s.dev.flgNode node).st = 2 → (s.dev.flgNode node).direct = true → nSleepy s.dev.act node = false ∨ s.dev.canHold node = true →
      (s.dev.flgOn = false ∨ s.dev.flg.ended = true → Completes (.flgDisassoc h node) s (fun t => (t.dev.flgNode node).st = 1)) ∧
      (s.dev.flgOn = true → s.dev.flg.ended = false →
        (nSleepy s.dev.act node = true → Completes (.flgDisassoc h node) s (fun t =>
          t.dev.flg.held.length = s.dev.flg.held.length + 1 ∧ t.dev.flg.queue = s.dev.flg.queue)) ∧
        (nSleepy s.dev.act node = false → Completes (.flgDisassoc h node) s (fun t => t.dev.flg.held = s.dev.flg.held ∧
          t.dev.flg.queue.length + t.dev.flg.air.toList.length = s.dev.flg.queue.length + s.dev.flg.air.toList.length + 1)))))

/-! ### The host interface (chapter 12) -/

/-- A host command that a check of orders 2 to 4 turns away has no effect: it is refused with that check's status, and nothing outside
the host interface, the proof log's staging and the counts of such refusals changes. Said of the twelve commands without operands. -/
def Obligations.RefusedCommandsChangeNothing : Prop :=
  (∀ (h : CmdHdr) (order status : Nat) (s : State), s.dev.op ≠ .boot → s.dev.op.mainOn = true → s.dev.op ≠ .holdup →
    s.dev.mayStart h 0x02 = true → s.dev.gate h 0x02 [] true [.config] = some (order, status) → Completes (.devStart h) s (fun t =>
      t.dev = s.dev.refuse h 0x02 order status 0xFFFF [] ∧ Dev.Keeps noReg s.dev t.dev ∧ t.nv = { s.nv with hopCtr := t.nv.hopCtr } ∧ t.bd = s.bd)) ∧
  ∀ (c : Instr) (h : CmdHdr) (code : Nat) (present : Bool) (legal : List OpState) (order status : Nat) (s : State),
    (c, code, present, legal) ∈ [(Instr.devStop h, 0x03, true, [.run, .degraded]),
      (.hstNop h, 0x01, true, legalCRD), (.devReset h, 0x04, true, [.config, .run, .degraded, .safe]), (.stmCancel h, 0x21, true, legalCRD),
      (.stmReload h, 0x22, true, legalCRD), (.sflCancel h, 0x41, true, legalCRD), (.sflReload h, 0x42, true, legalCRD),
      (.sflClearLatched h, 0x43, true, legalCRD), (.sflLaneTestInvert h, 0x44, true, [.run, .degraded]), (.brzSwap h, 0x80, true, [.run, .degraded]),
      (.pwrResCheck h, 0xD1, true, legalCRD)] →
    s.dev.op ≠ .boot → s.dev.op.mainOn = true → s.dev.op ≠ .holdup → s.dev.mayStart h code = true →
    s.dev.gate h code [] present legal = some (order, status) → Completes c s (fun t =>
      t = { s with dev := s.dev.refuse h code order status 0xFFFF [] } ∧ Dev.Keeps noReg s.dev t.dev)

/-- Polling: a kick is taken up by the next poll; the poll that finds its page sets the time of the next and counts, one that does not
stops polling for every ring and shows 0x480; enabling starts polling at once. A descriptor fetched moves the ring's head on by
one and is outstanding; the command that does nothing completes with `OK`. Rings, vectors and host frames: a ring enabled takes the index of the page as head and tail, one disabled keeps its size and its
completion ring; coalescing ends in one message; a vector unmasked sends what was pending; a host frame is refused with no port up,
and otherwise waits on each port of the pair that is up. -/
def Obligations.PollingRingsAndFrames : Prop :=
  ((∀ (p : PollRead) (s : State), s.dev.rbit Reg.HST_CTRL 0 = true → s.dev.host.polling = true → s.dev.host.link = true → s.dev.op.mainOn = true →
    (s.dev.host.kicked = true ∨ s.dev.host.nextPoll ≤ s.dev.raw →
      (p.pageOk = true → Completes (.hstPoll p) s (fun t => s.MainOnly t ∧ t.dev.host.polls = s.dev.host.polls + 1 ∧ t.dev.host.kicked = false ∧
        t.dev.host.nextPoll = s.dev.raw + s.dev.pollNs)) ∧
      (p.pageOk = false → Completes (.hstPoll p) s (fun t => s.MainOnly t ∧ t.dev.host.polling = false ∧ t.dev.reg Reg.HST_RING_ERR = 0x480 ∧
        t.dev.rbit Reg.HST_EVT 1 = true ∧ Dev.Keeps noReg s.dev t.dev))) ∧
    (s.dev.host.kicked = false → s.dev.raw < s.dev.host.nextPoll → Completes (.hstPoll p) s (fun t => t = s))) ∧
  (∀ s : State, s.dev.hstWritable = true → Completes .hstEnable s (fun t => s.MainOnly t ∧
    t.dev.host = { s.dev.host with polling := true, nextPoll := s.dev.raw } ∧ t.dev.rbit Reg.HST_CTRL 0 = true ∧
    (∀ off, off ≠ Reg.HST_CTRL → t.dev.reg off = s.dev.reg off) ∧ t.dev = { s.dev with regs := t.dev.regs, host := t.dev.host })) ∧
  (∀ s : State, s.dev.hstWritable = true → s.dev.rbit Reg.HST_CTRL 0 = true → s.dev.host.polling = true → Completes .hstKick s (fun t =>
    t = { s with dev := { s.dev with host := { s.dev.host with kicked := true } } })) ∧
  (∀ (x : Desc) (d : Dev), x.ring < 64 → x.reserved = false → cmdCode x.code = true →
    (d.fetchOne x).reg (Reg.HST_RING_HEAD x.ring) = d.reg (Reg.HST_RING_HEAD x.ring) + 1 ∧
    (d.fetchOne x).host.fetched = d.host.fetched ++ [{ ring := x.ring, tag := x.tag, code := x.code, fence := x.fence, noCqe := false }] ∧
    (∀ off, off ≠ Reg.HST_RING_HEAD x.ring → (d.fetchOne x).reg off = d.reg off)) ∧
  (∀ (h : CmdHdr) (s : State), s.dev.Admits h 0x01 [] true legalCRD → Completes (.hstNop h) s (fun t =>
    t = { s with dev := s.dev.complete h 0x01 0 [] } ∧ Dev.Keeps noReg s.dev t.dev))) ∧
  ((∀ (n idx : Nat) (v : Word) (s : State), s.dev.hstWritable = true → n < 128 → s.dev.rbit (Reg.HST_RING_CTRL n) 0 = false → v.bit 0 = true →
    (n < 64 → 64 ≤ v.field 8 7) → Completes (.ringEnable n v idx) s (fun t => s.MainOnly t ∧ t.dev.reg (Reg.HST_RING_HEAD n) = BitVec.ofNat 32 idx ∧
      t.dev.reg (Reg.HST_RING_TAIL n) = BitVec.ofNat 32 idx ∧
      t.dev.reg (Reg.HST_RING_CTRL n) = (s.dev.hostSet (Reg.HST_RING_CTRL n) v).reg (Reg.HST_RING_CTRL n) ∧
      (∀ off, off ≠ Reg.HST_RING_CTRL n → off ≠ Reg.HST_RING_HEAD n → off ≠ Reg.HST_RING_TAIL n → t.dev.reg off = s.dev.reg off) ∧
      t.dev = { s.dev with regs := t.dev.regs, host := t.dev.host })) ∧
  (∀ (n idx : Nat) (v : Word) (s : State), 127 < n ∨ s.dev.rbit (Reg.HST_RING_CTRL n) 0 = true ∨ (n < 64 ∧ v.field 8 7 < 64) →
    Completes (.ringEnable n v idx) s (fun t => t = s)) ∧
  (∀ (n : Nat) (v : Word) (s : State), s.dev.hstWritable = true → n < 128 → s.dev.rbit (Reg.HST_RING_CTRL n) 0 = true → v.bit 0 = false →
    Completes (.ringDisable n v) s (fun t => s.MainOnly t ∧
      t.dev = s.dev.hostSet (Reg.HST_RING_CTRL n) ((v.setField 1 4 ((s.dev.ringCtrl n).field 1 4)).setField 8 7 ((s.dev.ringCtrl n).field 8 7)) ∧
      (∀ off, off ≠ Reg.HST_RING_CTRL n → t.dev.reg off = s.dev.reg off))) ∧
  (∀ (n u : Nat) (s : State), KMap.get? s.dev.host.coal n = some u → u ≤ s.dev.raw → Completes (.msixCoalesceExpiry n) s (fun t => s.MainOnly t ∧
    t.dev.host.coal = KMap.del s.dev.host.coal n ∧ t.dev.reg = s.dev.reg ∧
    (s.dev.reg (Reg.HST_RING_TAIL n) ≠ s.dev.reg (Reg.HST_RING_HEAD n) → s.dev.host.ringSent.contains n = false →
      t.dev.host.ringSent = n :: s.dev.host.ringSent ∧
      (if s.dev.host.unmasked.contains (n - 48) then t.dev.out = .msix (n - 48) :: s.dev.out else (n - 48) ∈ t.dev.host.pendBits)))) ∧
  (∀ (v : Nat) (s : State), v ≤ 143 → s.dev.op.mainOn = true → s.dev.host.unmasked.contains v = false → Completes (.msixUnmask v) s (fun t =>
    s.MainOnly t ∧ t.dev.host = { s.dev.host with unmasked := v :: s.dev.host.unmasked, pendBits := s.dev.host.pendBits.filter (· != v) } ∧
    t.dev.out = (if s.dev.host.pendBits.contains v then .msix v :: s.dev.out else s.dev.out) ∧
    t.dev = { s.dev with host := t.dev.host, out := t.dev.out })) ∧
  (∀ (h : CmdHdr) (pair addr len : Nat) (ws : List Word) (s : State), s.dev.Admits h 0x08 [] true legalCRD →
    (1 < pair ∨ len < 14 ∨ 1512 < len ∨ addr % 4 ≠ 0 → Completes (.hstTxFrame h pair addr len ws false) s (fun t =>
      t = { s with dev := s.dev.complete h 0x08 2 [] } ∧ Dev.Keeps noReg s.dev t.dev)) ∧
    (pair ≤ 1 → 14 ≤ len → len ≤ 1480 → addr % 4 = 0 →
      (s.dev.portUp (2 * pair) = false → s.dev.portUp (2 * pair + 1) = false → Completes (.hstTxFrame h pair addr len ws false) s (fun t =>
        t = { s with dev := s.dev.refuse h 0x08 6 1 0xFFFF [] } ∧ Dev.Keeps noReg s.dev t.dev)) ∧
      (s.dev.portUp (2 * pair) = true ∨ s.dev.portUp (2 * pair + 1) = true → Completes (.hstTxFrame h pair addr len ws false) s (fun t =>
        s.MainOnly t ∧ t.dev.net.nextTx = s.dev.net.nextTx + 1 ∧
        (h, s.dev.net.nextTx, [2 * pair, 2 * pair + 1].filter (fun n => s.dev.portUp n)) ∈ t.dev.net.hostTx ∧
        t.dev = { s.dev with net := t.dev.net, tbu := t.dev.tbu, out := t.dev.out })))))

/-- Spill queues: a drain moves the oldest item that fits whole to the host buffer; a header read begins an item or waits; a data read
in no item is counted and returns 0; a flush empties the queue and completes when no producer is inside; the rest of an item may be
dropped; enabling and disabling empty the queue. -/
def Obligations.SpillQueues : Prop :=
  (∀ (q : Nat) (i : SpqItem) (rest : List SpqItem) (s : State), q < 64 → s.dev.spqServed = true → s.dev.rbit (Reg.SPQ_Q_CTRL q) 0 = true →
    s.dev.rbit (Reg.SPQ_Q_CTRL q) 1 = false → (s.dev.spqQ q).items = i :: rest →
    let size := s.dev.hbufSize q
    let at_ := (s.dev.reg (Reg.SPQ_WR q)).toNat % size
    let bytes := ceilDiv (8 + 4 * i.words.length) 8 * 8
    let skip := if size < at_ + bytes then size - at_ else 0
    let held := (s.dev.reg (Reg.SPQ_WR q) - (s.dev.spqQ q).hostRead).toNat
    (size < held + skip + bytes → Completes (.spqDrain q .clean) s (fun t => t = s)) ∧
    (held + skip + bytes ≤ size → Completes (.spqDrain q .clean) s (fun t => s.MainOnly t ∧
      t.dev.spqQ q = { s.dev.spqQ q with items := rest, drops := 0, sent := true } ∧
      t.dev.reg (Reg.SPQ_WR q) = s.dev.reg (Reg.SPQ_WR q) + BitVec.ofNat 32 (skip + bytes) ∧
      t.dev.reg (Reg.SPQ_ITEMS q) = s.dev.reg (Reg.SPQ_ITEMS q) + 1 ∧ (∀ k, k ≠ q → t.dev.spqQ k = s.dev.spqQ k)))) ∧
  (∀ (q : Nat) (s : State), q < 64 → s.dev.op.mainOn = true → s.dev.host.link = true → (s.dev.spqQ q).stall = none →
    s.dev.popServed q = true →
    (∀ i rest, (s.dev.spqQ q).inside = none → (s.dev.spqQ q).items = i :: rest →
      Completes (.spqPopHdr q .clean) s (fun t => s.MainOnly t ∧ t.dev.out = .readData (Reg.SPQ_POP_HDR q) i.header :: s.dev.out ∧
        t.dev.spqQ q = { s.dev.spqQ q with items := rest, inside := some (i.words.length, i.words) } ∧
        t.dev = { s.dev with spq := t.dev.spq, out := t.dev.out })) ∧
    ((s.dev.spqQ q).inside = none → (s.dev.spqQ q).items = [] → s.dev.stallNs ≠ 0 →
      Completes (.spqPopHdr q .clean) s (fun t =>
        t = { s with dev := s.dev.setSpq q { s.dev.spqQ q with stall := some (s.dev.raw + s.dev.stallNs) } })) ∧
    ((s.dev.spqQ q).inside = none → Completes (.spqPopData q .clean) s (fun t => t = { s with dev := s.dev.badPop q (Reg.SPQ_POP_DATA q) } ∧
      t.dev.reg (Reg.SPQ_BAD_POP q) = (s.dev.reg (Reg.SPQ_BAD_POP q)).satAdd 1 ∧ t.dev.out = .readData (Reg.SPQ_POP_DATA q) 0 :: s.dev.out))) ∧
  (∀ (q u : Nat) (s : State), (s.dev.spqQ q).stall = some u → u ≤ s.dev.raw → Completes (.spqPopStallEnd q) s (fun t => s.MainOnly t ∧
    t.dev.spqQ q = { s.dev.spqQ q with stall := none } ∧ t.dev.out = .readData (Reg.SPQ_POP_HDR q) 0 :: s.dev.out)) ∧
  (∀ (h : CmdHdr) (q : Nat) (s : State), s.dev.Admits h 0x09 [] true legalCRD →
    (63 < q → Completes (.spqFlush h q) s (fun t => t = { s with dev := s.dev.complete h 0x09 2 [] } ∧ Dev.Keeps noReg s.dev t.dev)) ∧
    (q ≤ 63 → s.dev.rbit (Reg.SPQ_Q_CTRL q) 0 = false ∨ (s.dev.spqQ q).flush.isSome = true → Completes (.spqFlush h q) s (fun t =>
      t = { s with dev := s.dev.refuse h 0x09 6 1 0xFFFF [] } ∧ Dev.Keeps noReg s.dev t.dev)) ∧
    (q ≤ 63 → s.dev.rbit (Reg.SPQ_Q_CTRL q) 0 = true → (s.dev.spqQ q).flush = none → Completes (.spqFlush h q) s (fun t => s.MainOnly t ∧
      t.dev.spqQ q = { s.dev.spqQ q with items := [], inside := none, flush := some (h, (s.dev.spqQ q).held, (s.dev.spqQ q).unread) } ∧
      t.dev = { s.dev with spq := t.dev.spq }))) ∧
  (∀ (h : CmdHdr) (q items bytes : Nat) (s : State), (s.dev.spqQ q).flush = some (h, items, bytes) → Completes (.spqFlushDone q) s (fun t =>
    s.MainOnly t ∧ t.dev.spqQ q = { s.dev.spqQ q with flush := none } ∧ Dev.Keeps noReg { s.dev with spq := t.dev.spq } t.dev)) ∧
  (∀ (h : CmdHdr) (q : Nat) (s : State), s.dev.Admits h 0x0A [] true legalCRD →
    (63 < q → Completes (.spqDropRem h q) s (fun t => t = { s with dev := s.dev.complete h 0x0A 2 [] } ∧ Dev.Keeps noReg s.dev t.dev)) ∧
    (q ≤ 63 → (s.dev.spqQ q).inside = none ∨ s.dev.rbit (Reg.SPQ_Q_CTRL q) 1 = false → Completes (.spqDropRem h q) s (fun t =>
      t = { s with dev := s.dev.refuse h 0x0A 6 1 0xFFFF [] } ∧ Dev.Keeps noReg s.dev t.dev)) ∧
    (q ≤ 63 → (s.dev.spqQ q).inside.isSome = true → s.dev.rbit (Reg.SPQ_Q_CTRL q) 1 = true → Completes (.spqDropRem h q) s (fun t =>
      s.MainOnly t ∧ t.dev.spqQ q = { s.dev.spqQ q with inside := none } ∧ Dev.Keeps noReg { s.dev with spq := t.dev.spq } t.dev))) ∧
  (∀ (q idx : Nat) (v : Word) (s : State), q < 64 → s.dev.hstWritable = true → s.dev.rbit (Reg.SPQ_Q_CTRL q) 0 = false → v.bit 0 = true →
    (s.dev.middleBad s.fuse q v = true → Completes (.spqEnable q v idx) s (fun t =>
      t = { s with dev := s.dev.setSpq q { s.dev.spqQ q with cfgErr := true } })) ∧
    (s.dev.middleBad s.fuse q v = false → Completes (.spqEnable q v idx) s (fun t => s.MainOnly t ∧
      t.dev.spqQ q = { s.dev.spqQ q with items := [], inside := none, sent := false, cfgErr := false, hostRead := BitVec.ofNat 32 idx } ∧
      t.dev.reg (Reg.SPQ_WR q) = BitVec.ofNat 32 idx ∧
      (∀ off, off ≠ Reg.SPQ_WR q → off ≠ Reg.SPQ_Q_CTRL q → t.dev.reg off = s.dev.reg off) ∧
      t.dev = { s.dev with regs := t.dev.regs, spq := t.dev.spq }))) ∧
  (∀ (q : Nat) (s : State), q < 64 → s.dev.hstWritable = true → s.dev.rbit (Reg.SPQ_Q_CTRL q) 0 = true → Completes (.spqDisable q) s (fun t =>
    s.MainOnly t ∧ t.dev.rbit (Reg.SPQ_Q_CTRL q) 0 = false ∧ t.dev.spqQ q = { s.dev.spqQ q with items := [], inside := none } ∧
      (∀ off, off ≠ Reg.SPQ_Q_CTRL q → t.dev.reg off = s.dev.reg off) ∧ t.dev = { s.dev with regs := t.dev.regs, spq := t.dev.spq }))

/-- An item's words come out in order: reading a queue's data register once for each word of the item the consumer is inside returns the
words in order, and leaves the consumer outside it with the item counted once. -/
def Obligations.SpillWordsComeOutInOrder : Prop :=
  ∀ (q n : Nat) (w : Word) (ws : List Word) (d : Dev), (d.spqQ q).inside = some (n, w :: ws) →
    let e := (w :: ws).foldl (fun (e : Dev) _ => e.popData q) d
    e.out = (w :: ws).reverse.map (fun x => .readData (Reg.SPQ_POP_DATA q) x) ++ d.out ∧ (e.spqQ q).inside = none ∧
      (e.spqQ q).items = (d.spqQ q).items ∧ e.reg (Reg.SPQ_ITEMS q) = d.reg (Reg.SPQ_ITEMS q) + 1

/-! ### Keys, attestation and access (chapter 13) -/

/-- The key commands before they take effect: one that names a slot which an earlier one holds waits; otherwise the first check of
Table 13.6 that fails refuses it with its reason, and the plate, the vault and the backup domain stay. -/
def Obligations.KeyCommandsWaitOrAreRefused : Prop :=
  ∀ (c : Instr) (h : CmdHdr) (op : KeyOp) (s : State), keyCommand c = some (h, op) → s.dev.Admits h op.code op.slots true legalCRD →
    (op.slots.any (fun k => s.dev.busySlots.contains k) = true → Completes c s (fun t =>
      t = { s with dev := { s.dev with key := { s.dev.key with waiting := s.dev.key.waiting ++ [(h, op)] } } })) ∧
    (∀ f, s.dev.SlotsFree op → keyCheck s.nv s.dev op = some f → Completes c s (fun t => s.MainOnly t ∧
      t.dev = s.dev.keyRefuse h op.code f (op.slots.headD 0xFFFF) ∧ Dev.Keeps noReg s.dev t.dev))

/-- The key commands that pass their checks: `KEY_GENERATE` and `KEY_IMPORT` begin an installation, whose key carries the generation
after the slot's and is not used yet; `KEY_DESTROY` empties its slot in the vault and in the plate and leaves its generation;
`KEY_PUBLIC` writes the public key and changes no key. -/
def Obligations.KeyCommandsTakeEffect : Prop :=
  (∀ (h : CmdHdr) (a : KeyArgs) (s : State), s.dev.Admits h 0xA0 [a.slot] true legalCRD → s.dev.SlotsFree (.gen a) →
    keyCheck s.nv s.dev (.gen a) = none → Completes (.keyGenerate h a) s (fun t =>
      (∃ k : KeyRec, t.dev.key = { s.dev.key with rngRuns := 0, install := s.dev.key.install ++ [{ hdr := h, code := 0xA0, slot := a.slot, newKey := k, counter := none }] } ∧
        k.typ = a.typ ∧ k.usage = a.usage.toNat ∧ k.origin = 1 ∧ k.keyId = a.keyId ∧ k.gen = s.nv.genOf a.slot + 1 ∧ k.copy = !s.bd.copyOf a.slot) ∧
      t.dev = { s.dev with key := t.dev.key, free := t.dev.free } ∧ t.bd = s.bd ∧ t.nv = { s.nv with store := t.nv.store } ∧
      (∀ n, n ≠ a.slot → KMap.get? t.nv.store n = KMap.get? s.nv.store n))) ∧
  (∀ (h : CmdHdr) (a : KeyArgs) (tslot addr : Nat) (b : ImportBlob) (s : State), s.dev.Admits h 0xA1 [a.slot, tslot] true legalCRD →
    addr % 4 = 0 → s.dev.SlotsFree (.imp a tslot b) → keyCheck s.nv s.dev (.imp a tslot b) = none → b.memErr = false →
    (b.counter.toNat ≤ s.nv.importCtr ∨ b.tagOk = false ∨ b.kcvOk = false → Completes (.keyImport h a tslot addr b) s (fun t => s.MainOnly t ∧
      t.dev = s.dev.keyEnd h 0xA1 7 9 ∧ Dev.Keeps noReg s.dev t.dev)) ∧
    (s.nv.importCtr < b.counter.toNat → b.tagOk = true → b.kcvOk = true → Completes (.keyImport h a tslot addr b) s (fun t =>
      (∃ k : KeyRec, t.dev.key = { s.dev.key with install := s.dev.key.install ++ [{ hdr := h, code := 0xA1, slot := a.slot, newKey := k, counter := some b.counter.toNat }] } ∧
        k.typ = a.typ ∧ k.usage = a.usage.toNat ∧ k.origin = 2 ∧ k.keyId = a.keyId ∧ k.gen = s.nv.genOf a.slot + 1 ∧ k.key = b.key) ∧
      t.dev = { s.dev with key := t.dev.key } ∧ t.bd = s.bd ∧ t.nv = { s.nv with store := t.nv.store }))) ∧
  (∀ (h : CmdHdr) (slot : Nat) (s : State), s.dev.Admits h 0xA2 [slot] true legalCRD → s.dev.SlotsFree (.destroy slot) →
    keyCheck s.nv s.dev (.destroy slot) = none → Completes (.keyDestroy h slot) s (fun t =>
      KMap.get? t.dev.key.plate slot = none ∧ KMap.get? t.nv.store slot = none ∧ t.nv.genOf slot = s.nv.genOf slot ∧
      (∀ n, n ≠ slot → KMap.get? t.dev.key.plate n = KMap.get? s.dev.key.plate n ∧ KMap.get? t.nv.store n = KMap.get? s.nv.store n) ∧
      t.nv = { s.nv with store := t.nv.store } ∧ t.bd = s.bd ∧ Dev.Keeps noReg { s.dev with key := t.dev.key } t.dev)) ∧
  (∀ (h : CmdHdr) (slot addr : Nat) (e : Bool) (r : KeyRec) (s : State), s.dev.Admits h 0xA3 [slot] true legalCRD →
    s.dev.SlotsFree (.pubKey slot addr e) → s.dev.slotKey slot = some r → keyCheck s.nv s.dev (.pubKey slot addr e) = none →
    Completes (.keyPublic h slot addr e) s (fun t => s.MainOnly t ∧
      (e = false → .hostWrite addr (.pubKey (Config.pubOf r.key)) ∈ t.dev.out ∧ Dev.Keeps noReg s.dev t.dev) ∧
      (e = true → t.dev = s.dev.memFail h 0xA3 [])))

/-- Keys change at the journal flip: until then the plate holds the old key; at the flip the new one stands in the plate, the journal
names its copy, the generation is its own, and other slots stay; a check that fails erases the shadow and keeps the old key. A
replaced Braze key leaves after its grace time; MKA installs the key of a port's association; the third failed health test in a
row stops the random generator. -/
def Obligations.KeysChangeAtTheFlip : Prop :=
  (∀ (slot : Nat) (x : Install) (s : State), s.dev.key.install.find? (fun y => y.slot == slot) = some x → s.dev.key.waiting = [] →
    Completes (.keyJournalFlip slot true) s (fun t =>
      KMap.get? t.dev.key.plate slot = some { x.newKey with instMs := s.dev.opMs % 2 ^ 32 } ∧ t.bd.copyOf slot = x.newKey.copy ∧
      t.nv.genOf slot = x.newKey.gen ∧ t.nv.importCtr = x.counter.getD s.nv.importCtr ∧
      (∀ n, n ≠ slot → KMap.get? t.dev.key.plate n = KMap.get? s.dev.key.plate n ∧ t.bd.copyOf n = s.bd.copyOf n ∧ t.nv.genOf n = s.nv.genOf n) ∧
      t.dev.reg Reg.KEY_FLIPS = s.dev.reg Reg.KEY_FLIPS + 1 ∧ t.dev.rbit Reg.KEY_EVT 0 = true ∧
      t.dev.key.install = s.dev.key.install.filter (fun y => y.slot != slot) ∧ t.bd.root = s.bd.root ∧ t.nv.lc = s.nv.lc) ∧
    Completes (.keyJournalFlip slot false) s (fun t =>
      t.dev.key = { s.dev.key with install := s.dev.key.install.filter (fun y => y.slot != slot) } ∧ t.bd = s.bd ∧
      t.nv = { s.nv with store := t.nv.store } ∧ Dev.Keeps noReg { s.dev with key := t.dev.key } t.dev)) ∧
  (∀ (slot : Nat) (ok : Bool) (s : State), s.dev.key.install.find? (fun y => y.slot == slot) = none →
    Completes (.keyJournalFlip slot ok) s (fun t => t = s)) ∧
  (∀ (slot due : Nat) (r : KeyRec) (s : State), KMap.get? s.dev.key.grace slot = some (r, due) → Completes (.brazeKeyGraceEnd slot) s (fun t =>
    t = if due ≤ s.dev.raw then { s with dev := { s.dev with key := { s.dev.key with grace := KMap.del s.dev.key.grace slot } } } else s)) ∧
  (∀ s : State, s.dev.op.mainOn = true → s.dev.key.rngFail = false →
    (s.dev.key.rngRuns < 2 → Completes .rngHealthFail s (fun t =>
      t = { s with dev := { s.dev with key := { s.dev.key with rngRuns := s.dev.key.rngRuns + 1 } } })) ∧
    (2 ≤ s.dev.key.rngRuns → Completes .rngHealthFail s (fun t => s.MainOnly t ∧
      t.dev.key = { s.dev.key with rngRuns := s.dev.key.rngRuns + 1, rngFail := true } ∧ t.dev.rbit Reg.KEY_EVT 1 = true ∧
      Dev.Keeps (fun off => off == Reg.KEY_EVT) { s.dev with key := t.dev.key } t.dev))) ∧
  (∀ (port sa key : Nat) (keyId : Word) (scs : List Nat) (s : State), port ≤ 3 → sa ≤ 1 → s.nv.keysUsable = true → s.dev.op ∈ legalCRD →
    Completes (.mkaSakInstall port sa key keyId scs) s (fun t => (t.dev.port port).txSa = some sa ∧
      (∃ k : KeyRec, KMap.get? t.dev.key.plate (248 + 2 * port + sa) = some k ∧ k.key = key ∧ k.keyId = keyId ∧ k.typ = 2 ∧ k.usage = 2 ∧
        k.gen = s.nv.genOf (248 + 2 * port + sa) + 1) ∧
      (∀ n, n ≠ 248 + 2 * port + sa → KMap.get? t.dev.key.plate n = KMap.get? s.dev.key.plate n) ∧ t.dev.op = s.dev.op))

/-- Attestation, the certificate and the seal of the log: where the unit can attest and the Annealer sheds nothing, the statement is
written to the host and no state but that of reporting changes; while the Annealer sheds, the command waits; otherwise it is refused. One
whose transfer meets a PCIe error ends ABORTED and raises the host interface's memory error event. -/
def Obligations.HallmarkStatements : Prop :=
  (∀ (h : CmdHdr) (slot nonce addr : Nat) (e : Bool) (r : KeyRec) (s : State), s.dev.Admits h 0xA4 [slot] true legalCRD →
    s.dev.SlotsFree (.attest slot nonce addr e) → keyCheck s.nv s.dev (.attest slot nonce addr e) = none → s.dev.slotKey slot = some r →
    (s.dev.anl.step = 0 → e = false → Completes (.hlmAttest h slot nonce addr e) s (fun t => s.MainOnly t ∧ Dev.Keeps noReg s.dev t.dev ∧
      ∃ pub sig, .hostWrite addr (.attest slot r s.nv.lc.code s.nv.vaultGen (s.dev.fld Reg.PWR_PCC 0 24) s.dev.opMs s.dev.key.debugged pub nonce
        s.dev.key.measure (s.dev.nextSeq s.nv) sig) ∈ t.dev.out)) ∧
    (s.dev.anl.step = 0 → e = true → Completes (.hlmAttest h slot nonce addr e) s (fun t => s.MainOnly t ∧
      Dev.Keeps (fun o => o == Reg.HST_EVT) s.dev t.dev ∧ t.dev.rbit Reg.HST_EVT 2 = true)) ∧
    (s.dev.anl.step ≠ 0 → Completes (.hlmAttest h slot nonce addr e) s (fun t =>
      t = { s with dev := { s.dev with anl := { s.dev.anl with p5wait := s.dev.anl.p5wait ++ [(h, .attest slot nonce addr e, s.dev.raw)] } } }))) ∧
  (∀ (h : CmdHdr) (addr len : Nat) (e : Bool) (s : State), s.dev.Admits h 0xA5 [] true legalCRD →
    (len < s.nv.certLen → Completes (.hlmCert h addr len e) s (fun t => s.MainOnly t ∧
      t.dev = s.dev.complete h 0xA5 2 [BitVec.ofNat 32 s.nv.certLen] ∧ Dev.Keeps noReg s.dev t.dev)) ∧
    (s.nv.certLen ≤ len → s.nv.keysUsable = false ∨ s.dev.key.attestOk = false → Completes (.hlmCert h addr len e) s (fun t => s.MainOnly t ∧
      t.dev = s.dev.keyRefuse h 0xA5 (6, 1, 4) 0xFFFF ∧ Dev.Keeps noReg s.dev t.dev)) ∧
    (s.nv.certLen ≤ len → s.nv.keysUsable = true → s.dev.key.attestOk = true → s.dev.anl.step = 0 → Completes (.hlmCert h addr len e) s (fun t =>
      s.MainOnly t ∧ (e = false → .hostWrite addr (.cert s.nv.certLen s.dev.key.pub) ∈ t.dev.out ∧ Dev.Keeps noReg s.dev t.dev) ∧
      (e = true → t.dev = s.dev.memFail h 0xA5 [])))) ∧
  (∀ (h : CmdHdr) (nonce addr : Nat) (e : Bool) (s : State), s.dev.Admits h 0xC2 [] true legalCRD →
    (s.dev.key.attestOk = false → Completes (.plgSeal h nonce addr e) s (fun t =>
      t = { s with dev := s.dev.refuse h 0xC2 6 1 0xFFFF [] } ∧ Dev.Keeps noReg s.dev t.dev)) ∧
    (s.dev.key.attestOk = true → s.dev.anl.step = 0 → Completes (.plgSeal h nonce addr e) s (fun t => s.MainOnly t ∧
      (e = false → Dev.Keeps noReg s.dev t.dev ∧
        ∃ sig, .hostWrite addr (.logSeal s.fuse.serial (s.nv.sec.next - 1) s.nv.digest nonce sig) ∈ t.dev.out) ∧
      (e = true → t.dev = s.dev.memFail h 0xC2 []))))

/-- The access control table: `ACT_WRITE` from context 0 writes one word of it, keeps the permission of context 0 to issue it, and
posts its record; from another context it is denied. A debug instruction beside the boundary scan is only counted while debug is
closed. -/
def Obligations.AccessControl : Prop :=
  (∀ (h : CmdHdr) (target ctx word : Nat) (v : Word) (s : State), s.dev.ctxOf h.ring = 0 → s.dev.Admits h 0xA7 [] true legalCRD →
    (2 < target ∨ 7 < ctx ∨ 7 < word → Completes (.actWrite h target ctx word v) s (fun t =>
      t = { s with dev := s.dev.complete h 0xA7 2 [] } ∧ Dev.Keeps noReg s.dev t.dev)) ∧
    (ctx ≤ 7 → word ≤ 7 → Completes (.actWrite h 0 ctx word v) s (fun t => s.MainOnly t ∧
      t.dev.reg (Reg.ACT_PERM (ctx * 8 + word)) = (if ctx = 0 ∧ word = 5 then v ||| 0x80#32 else v) ∧
      (s.dev.plg.stage.length < 256 → ∃ (r : LogRec) (k : Nat), r.code = 0x86 ∧
        t.dev.plg.stage = s.dev.plg.stage.take k ++ r :: s.dev.plg.stage.drop k) ∧
      Dev.Keeps (fun off => off == Reg.ACT_PERM (ctx * 8 + word)) s.dev t.dev)) ∧
    (ctx ≤ 7 → Completes (.actWriteSlotRange h ctx v) s (fun t => s.MainOnly t ∧
      t.dev.reg (Reg.ACT_CTX_SLOTS ctx) = v &&& 0xFFFF#32 ∧ Dev.Keeps (fun off => off == Reg.ACT_CTX_SLOTS ctx) s.dev t.dev)) ∧
    (7 < ctx → Completes (.actWriteSlotRange h ctx v) s (fun t => t = { s with dev := s.dev.complete h 0xA7 2 [] } ∧ Dev.Keeps noReg s.dev t.dev)) ∧
    Completes (.actWriteLock h v) s (fun t => s.MainOnly t ∧ t.dev.reg Reg.ACT_LOCK = v &&& 0x1F#32 ∧
      Dev.Keeps (fun off => off == Reg.ACT_LOCK) s.dev t.dev)) ∧
  (∀ (c : Instr) (h : CmdHdr) (target ctx word : Nat) (v : Word) (s : State),
    c = .actWrite h target ctx word v ∨ c = .actWriteSlotRange h ctx v ∨ c = .actWriteLock h v →
    s.dev.ctxOf h.ring ≠ 0 → s.dev.op ∈ [OpState.config, .run, .degraded, .safe] → s.dev.mayStart h 0xA7 = true → Completes c s (fun t =>
      t = { s with dev := s.dev.refuse h 0xA7 2 4 0xFFFF [] } ∧ Dev.Keeps noReg s.dev t.dev)) ∧
  (∀ (b : Bool) (s : State), Completes (.debugInstruction b) s (fun t => t = if s.dev.op.mainOn = true ∧ b = false ∧ s.debugClosed = true then
    { s with dev := s.dev.bump Reg.TMP_DBG_DENIED 1 } else s))

/-! ### The proof log and the identity (chapter 15) -/

/-- Committing to the proof log: the record at the head of staging takes the next number of its partition, a security record also
enters the digest, and the other partition stays; eight slots that fail in a row commit nothing. A token that arrives at a bucket
with suppressed events enters their summary. The time of the last anchor moves on every 3600 s while LOCKED. -/
def Obligations.ProofLogCommits : Prop :=
  (∀ (fails : Nat) (r : LogRec) (rest : List LogRec) (s : State), s.dev.op.mainOn = true → s.dev.mgmt.restart = false → s.dev.plg.stage = r :: rest →
    (fails < 24 → secCode r.code = true → Completes (.proofLogCommit fails) s (fun t => t.nv.sec.next = s.nv.sec.next + 1 ∧
      t.nv.digest = Config.sha256 (beBytes 32 s.nv.digest ++ recBytes s.nv.sec.next r) % 2 ^ 256 ∧ t.nv.gen = s.nv.gen ∧ t.bd = s.bd ∧
      t.nv = { s.nv with sec := t.nv.sec, digest := t.nv.digest, wrapped := t.nv.wrapped } ∧
      (fails < 3 → s.nv.sec.bad.length < 4096 → t.nv.sec.recs.getLast? = some { num := s.nv.sec.next, recd := r, damaged := false }) ∧
      t.dev = { s.dev with plg := t.dev.plg })) ∧
    (fails < 24 → secCode r.code = false → Completes (.proofLogCommit fails) s (fun t => t.nv.gen.next = s.nv.gen.next + 1 ∧
      t.nv = { s.nv with gen := t.nv.gen } ∧ t.bd = s.bd ∧
      (fails < 3 → s.nv.gen.bad.length < 28608 → t.nv.gen.recs.getLast? = some { num := s.nv.gen.next, recd := r, damaged := false }) ∧
      t.dev = { s.dev with plg := t.dev.plg })) ∧
    (24 ≤ fails → Completes (.proofLogCommit fails) s (fun t => t.nv.gen.next = s.nv.gen.next ∧ t.nv.sec.next = s.nv.sec.next ∧
      t.nv.gen.recs = s.nv.gen.recs ∧ t.nv.sec.recs = s.nv.sec.recs ∧ t.bd = s.bd))) ∧
  (∀ (fails : Nat) (s : State), s.dev.plg.stage = [] ∨ s.dev.mgmt.restart = true → Completes (.proofLogCommit fails) s (fun t => t = s)) ∧
  (∀ (code : Nat) (b : Bucket) (s : State), s.dev.op.mainOn = true → KMap.get? s.dev.plg.buckets code = some b → b.due ≤ s.dev.raw →
    (b.count = 0 → Completes (.plgTokenRefill code) s (fun t => s.MainOnly t ∧ t.dev = { s.dev with plg := { s.dev.plg with buckets := t.dev.plg.buckets } } ∧
      KMap.get? t.dev.plg.buckets code = if s.dev.bucketDepth code ≤ b.tokens + 1 then none
        else some { b with tokens := b.tokens + 1, due := b.due + s.dev.bucketRefill code })) ∧
    (b.count ≠ 0 → s.dev.plg.stage.length < 256 → Completes (.plgTokenRefill code) s (fun t => s.MainOnly t ∧
      KMap.get? t.dev.plg.buckets code = some { b with count := 0, due := b.due + s.dev.bucketRefill code } ∧
      ∃ (r : LogRec) (k : Nat), t.dev.plg.stage = s.dev.plg.stage.take k ++ r :: s.dev.plg.stage.drop k ∧ r.code = code ∧ r.summary = true ∧
        r.p = [BitVec.ofNat 32 b.count, BitVec.ofNat 32 b.first, BitVec.ofNat 32 b.last, b.p0]))) ∧
  (∀ s : State, s.dev.op.mainOn = true → s.dev.op ≠ .boot →
    (s.dev.tbu.sync = 2 → s.dev.plg.lastAnchor + 3600000000000 ≤ s.dev.raw → Completes .timeAnchor s (fun t => s.MainOnly t ∧
      t.dev.plg.lastAnchor = s.dev.raw ∧ Dev.Keeps noReg s.dev t.dev)) ∧
    (s.dev.tbu.sync ≠ 2 ∨ s.dev.raw < s.dev.plg.lastAnchor + 3600000000000 → Completes .timeAnchor s (fun t => t = s)))

/-- Reading and clearing the log, the identity block and the scrubber: the cursor latches the record it names; `PLG_READ` writes up to
`COUNT` records from the first asked for on; `PLG_CLEAR` discards the general partition and leaves its numbers and the security
partition; `ID_READ` writes the identity block; the scrubber counts what it corrects and shows where it could not. -/
def Obligations.ProofLogReads : Prop :=
  (∀ (v : Word) (s : State), s.dev.cursorWritable = true → Completes (.plgCursorWrite v) s (fun t => s.MainOnly t ∧
    t.dev.reg Reg.PLG_CURSOR_0 = v ∧ t.dev.plgCursor = v.toNat + (s.dev.plgCursor - (s.dev.reg Reg.PLG_CURSOR_0).toNat) ∧
    (∀ c, (s.nv.part (s.dev.rbit Reg.PLG_CTRL 0)).find? (s.nv.number (s.dev.rbit Reg.PLG_CTRL 0) t.dev.plgCursor) = some c →
      t.dev.plg.cursorLost = false ∧ ∀ w, w < 8 → t.dev.reg (Reg.PLG_REC w) = recWord c.num c.recd w) ∧
    ((s.nv.part (s.dev.rbit Reg.PLG_CTRL 0)).find? (s.nv.number (s.dev.rbit Reg.PLG_CTRL 0) t.dev.plgCursor) = none →
      t.dev.plg.cursorLost = true ∧ ∀ w, w < 8 → t.dev.reg (Reg.PLG_REC w) = 0) ∧ Dev.Keeps noReg s.dev t.dev)) ∧
  (∀ (v : Word) (s : State), s.dev.cursorWritable = true → v.bit 0 = true → Completes (.plgNext v) s (fun t => s.MainOnly t ∧
    t.dev.plgCursor = (s.dev.plgCursor + 1) % (if s.dev.rbit Reg.PLG_CTRL 0 then 2 ^ 80 else 2 ^ 32) ∧ Dev.Keeps noReg s.dev t.dev)) ∧
  (∀ (h : CmdHdr) (part first addr count : Nat) (e : Option Nat) (s : State), s.dev.Admits h 0xC0 [] true legalRead →
    (1 < part ∨ addr % 32 ≠ 0 ∨ count < 1 ∨ 4096 < count → Completes (.plgRead h part first addr count e) s (fun t =>
      t = { s with dev := s.dev.complete h 0xC0 2 [] } ∧ Dev.Keeps noReg s.dev t.dev)) ∧
    (part ≤ 1 → addr % 32 = 0 → 1 ≤ count → count ≤ 4096 → Completes (.plgRead h part first addr count e) s (fun t => s.MainOnly t ∧
      Dev.Keeps (fun o => e.isSome && o == Reg.HST_EVT) s.dev t.dev ∧ ∃ rs : List Committed, .hostWrite addr (.records rs) ∈ t.dev.out ∧
        rs.length ≤ e.getD count ∧ rs.length ≤ count ∧
        ∀ c ∈ rs, c ∈ (s.nv.part (part == 1)).recs ∧ c.damaged = false ∧ s.nv.number (part == 1) first ≤ c.num))) ∧
  (∀ (h : CmdHdr) (s : State), s.dev.Admits h 0xC1 [] true legalCRD → Completes (.plgClear h) s (fun t =>
    t.nv = { s.nv with gen := { s.nv.gen with recs := [], oldest := s.nv.gen.next } } ∧ t.bd = s.bd ∧ Dev.Keeps noReg s.dev t.dev)) ∧
  (∀ (h : CmdHdr) (addr : Nat) (e : Bool) (s : State), s.dev.Admits h 0xC3 [] true legalRead →
    (addr % 4 ≠ 0 → Completes (.idRead h addr e) s (fun t => t = { s with dev := s.dev.complete h 0xC3 2 [] } ∧ Dev.Keeps noReg s.dev t.dev)) ∧
    (addr % 4 = 0 → e = true → Completes (.idRead h addr e) s (fun t => t = { s with dev := s.dev.memFail h 0xC3 [] })) ∧
    (addr % 4 = 0 → e = false → Completes (.idRead h addr e) s (fun t => s.MainOnly t ∧ .hostWrite addr (.identity (idBlock s)) ∈ t.dev.out ∧
      (idBlock s).take 5 = [0xB19120#32, s.fuse.lot, s.fuse.die, lo32 s.fuse.serial, hi32 s.fuse.serial] ∧ (idBlock s).length = 32 ∧
      Dev.Keeps noReg s.dev t.dev))) ∧
  (∀ s : State, s.dev.scrubbing = true → Completes (.memScrub .clean) s (fun t => t = s) ∧
    Completes (.memScrub .corrected) s (fun t => t = { s with dev := s.dev.bump Reg.MEM_CE 1 }) ∧
    ∀ addr, Completes (.memScrub (.uncorrectable addr)) s (fun t => s.MainOnly t ∧ t.dev.reg Reg.MEM_UE = (s.dev.reg Reg.MEM_UE).satAdd 1 ∧
      t.dev.reg Reg.MEM_UE_ADDR_LO = lo32 addr ∧ t.dev.reg Reg.MEM_UE_ADDR_HI = BitVec.ofNat 32 (addr / 4294967296 % 256) ∧
      Dev.Keeps (inBlock 0x17000C 0x170018) s.dev t.dev)) ∧
  (∀ (n : Nat) (f : TileFind) (s : State), s.dev.tilesWatched = true → s.dev.anl.step = 0 → Completes (.memScrub (.tile n f)) s (fun t =>
    t = { s with dev := s.dev.tileFound s.fuse n f }))

/-! ### Register accesses (chapter 16) -/

/-- Reads with an effect: an RC register is returned and cleared, and no other register changes; the first register of a group latches
the others, each with the value it has at that instant. A read that no register answers changes nothing. Register writes: only a whole, aligned word that the operating state accepts is written; a register that only stores takes the bits
its access lets the host write; a word of a table window goes to the staged view, unless a commit of its tables is pending; in
FIELD no tamper source is turned off; no write reaches non-volatile memory. -/
def Obligations.RegisterAccesses : Prop :=
  ((∀ (off : Nat) (s : State), s.dev.readable off = true → Completes (.rcRead off) s (fun t => s.MainOnly t ∧
    t.dev.out = .readData off (s.readWord off) :: s.dev.out ∧
    (rcReg off = true → absentOff s.fuse.part off = false → t.dev.reg off = 0) ∧ (rcReg off = false → t.dev.reg off = s.dev.reg off) ∧
    (∀ o, o ≠ off → t.dev.reg o = s.dev.reg o) ∧ (latchOthers off = none → t.dev.latch = s.dev.latch) ∧
    t.dev = { s.dev with regs := t.dev.regs, latch := t.dev.latch, out := t.dev.out })) ∧
  (∀ (off : Nat) (os : List Nat) (s : State), s.dev.readable off = true → latchOthers off = some os → Completes (.latchedGroupRead off) s (fun t =>
    s.MainOnly t ∧ t.dev.out = .readData off (s.readWord off) :: s.dev.out ∧
    (∀ o, o ∈ os → KMap.get? t.dev.latch o = some (s.current o)) ∧ (∀ o, o ∉ os → KMap.get? t.dev.latch o = KMap.get? s.dev.latch o) ∧
    t.dev = { s.dev with latch := t.dev.latch, out := t.dev.out })) ∧
  (∀ (off : Nat) (s : State), s.dev.readable off = false → Completes (.rcRead off) s (fun t => t = s) ∧ Completes (.latchedGroupRead off) s (fun t => t = s))) ∧
  ((∀ (off be : Nat) (v : Word) (s : State), be ≠ 15 ∨ off % 4 ≠ 0 ∨ s.dev.accepts off = false →
    Completes (.registerWrite off be v) s (fun t => t = s)) ∧
  (∀ (off be : Nat) (v : Word) (s : State), Completes (.registerWrite off be v) s (fun t => t.nv = s.nv ∧ t.bd = { s.bd with srcEn := t.bd.srcEn })) ∧
  (∀ (off : Nat) (v : Word) (r : RegRow) (s : State), off % 4 = 0 → s.dev.accepts off = true → off < 0x200000 → absentOff s.fuse.part off = false →
    off ≠ Reg.TMP_SRC_EN → off ≠ Reg.PLG_CURSOR_0 → off ≠ Reg.PLG_NEXT → s.dev.writeA s.fuse.part off v = none → s.dev.writeB off v = none →
    regRow? off = some r → (r.cfg = true → s.dev.op = .config) → instOf (Reg.PLG_RATE 0) 4 256 off = none →
    Completes (.registerWrite off 15 v) s (fun t => s.MainOnly t ∧ t.dev.reg off = s.dev.written r off v ∧
      ∀ o, o ≠ off → t.dev.reg o = s.dev.reg o)) ∧
  (∀ (off m : Nat) (v : Word) (s : State), off % 4 = 0 → s.dev.accepts off = true → 0x200000 ≤ off → off < partEnd s.fuse.part off →
    absentOff s.fuse.part off = false → cfgMask viewTables off = some m → s.dev.rbit Reg.STM_CTRL 0 = false →
    (s.dev.stm.pend = none → Completes (.registerWrite off 15 v) s (fun t => s.MainOnly t ∧ t.dev.stgW off = v &&& BitVec.ofNat 32 m ∧
      (∀ o, o ≠ off → t.dev.stgW o = s.dev.stgW o) ∧ t.dev = { s.dev with stg := t.dev.stg })) ∧
    (s.dev.stm.pend ≠ none → Completes (.registerWrite off 15 v) s (fun t => t = { s with dev := s.dev.bump Reg.STM_LOCKED_WR 1 }))) ∧
  (∀ (v : Word) (s : State), s.dev.accepts Reg.TMP_SRC_EN = true → s.dev.rbit Reg.ACT_LOCK 1 = false → Completes (.registerWrite Reg.TMP_SRC_EN 15 v) s (fun t =>
    t = if s.nv.lc = .field ∧ (s.bd.srcEn &&& ~~~(v &&& 0xB#32)) ≠ 0 then s else { s with bd := { s.bd with srcEn := v &&& 0xB#32 } })))
end

