-- ==== Sys2Proof/Laws/KMap.lean ====
section
/-! SUPPORT. Laws of the sparse stores: a read after a write, and the canonical form is kept by every operation. -/

namespace Sys2Proof.Machine

variable {α : Type}

theorem KMap.get?_nil (a : Nat) : KMap.get? ([] : KMap α) a = none := rfl

/-- A read after a write of an entry. -/
theorem KMap.get?_put (m : KMap α) (a b : Nat) (v : α) :
    KMap.get? (KMap.put m a v) b = if b = a then some v else KMap.get? m b := by
  induction m with
  | nil => by_cases h : b = a <;> simp [KMap.put, KMap.get?, h]
  | cons p t ih =>
    obtain ⟨k, w⟩ := p
    simp only [KMap.put]
    split
    · by_cases h : b = a <;> simp [KMap.get?, h]
    · split
      · subst_vars; by_cases h : b = k <;> simp [KMap.get?, h]
      · rename_i h1 h2
        by_cases h : b = a
        · subst h; simp [KMap.get?, h2, ih]
        · simp [KMap.get?, ih, h]

/-- A read after an entry's removal. -/
theorem KMap.get?_del (m : KMap α) (a b : Nat) :
    KMap.get? (KMap.del m a) b = if b = a then none else KMap.get? m b := by
  induction m with
  | nil => simp [KMap.del, KMap.get?]
  | cons p t ih =>
    obtain ⟨k, w⟩ := p
    simp only [KMap.del]
    split
    · rename_i h1
      subst h1
      by_cases h : b = a
      · subst h; simpa using ih
      · simp [KMap.get?, h, ih]
    · rename_i h2
      by_cases h : b = a
      · subst h; simp [KMap.get?, h2, ih]
      · simp [KMap.get?, ih, h]

/-- A read after an entry's change. -/
theorem KMap.get?_modify (m : KMap α) (a b : Nat) (f : α → α) :
    KMap.get? (KMap.modify m a f) b = if b = a then (KMap.get? m a).map f else KMap.get? m b := by
  unfold KMap.modify
  split
  · rename_i v h; by_cases hb : b = a <;> simp [KMap.get?_put, hb, h]
  · rename_i h; by_cases hb : b = a <;> simp [hb, h]

/-- A head key lies below every key of a well-formed rest: what `wf` says of a list with a head. -/
theorem KMap.wf_cons (k : Nat) (v : α) (t : KMap α) :
    KMap.wf ((k, v) :: t) = true ↔ (∀ p ∈ t, k < p.1) ∧ KMap.wf t = true := by
  induction t generalizing k v with
  | nil => simp [KMap.wf]
  | cons q t ih =>
    obtain ⟨k', v'⟩ := q
    simp only [KMap.wf, Bool.and_eq_true, decide_eq_true_eq, List.mem_cons, forall_eq_or_imp]
    constructor
    · rintro ⟨h, hw⟩
      exact ⟨⟨h, fun p hp => Nat.lt_trans h ((ih k' v').1 hw |>.1 p hp)⟩, hw⟩
    · rintro ⟨⟨h, _⟩, hw⟩; exact ⟨h, hw⟩

theorem KMap.mem_put (m : KMap α) (a : Nat) (v : α) (p : Nat × α) (h : p ∈ KMap.put m a v) : p = (a, v) ∨ p ∈ m := by
  induction m with
  | nil => simp [KMap.put] at h; exact Or.inl h
  | cons q t ih =>
    obtain ⟨k, w⟩ := q
    simp only [KMap.put] at h
    split at h
    · simpa using h
    · split at h
      · rcases List.mem_cons.1 h with h | h
        · exact Or.inl h
        · exact Or.inr (List.mem_cons_of_mem _ h)
      · rcases List.mem_cons.1 h with h | h
        · exact Or.inr (by simp [h])
        · rcases ih h with h | h
          · exact Or.inl h
          · exact Or.inr (List.mem_cons_of_mem _ h)

theorem KMap.mem_del (m : KMap α) (a : Nat) (p : Nat × α) (h : p ∈ KMap.del m a) : p ∈ m := by
  induction m with
  | nil => simp [KMap.del] at h
  | cons q t ih =>
    obtain ⟨k, w⟩ := q
    simp only [KMap.del] at h
    split at h
    · exact List.mem_cons_of_mem _ (ih h)
    · rcases List.mem_cons.1 h with h | h
      · simp [h]
      · exact List.mem_cons_of_mem _ (ih h)

/-- Setting an entry keeps the keys strictly rising. -/
theorem KMap.wf_put (m : KMap α) (a : Nat) (v : α) (h : KMap.wf m = true) : KMap.wf (KMap.put m a v) = true := by
  induction m with
  | nil => simp [KMap.put, KMap.wf]
  | cons q t ih =>
    obtain ⟨k, w⟩ := q
    have hc := (KMap.wf_cons k w t).1 h
    simp only [KMap.put]
    split
    · rename_i hlt
      refine (KMap.wf_cons a v _).2 ⟨fun p hp => ?_, h⟩
      rcases List.mem_cons.1 hp with hp | hp
      · simp [hp, hlt]
      · exact Nat.lt_trans hlt (hc.1 p hp)
    · split
      · subst_vars; exact (KMap.wf_cons _ v t).2 hc
      · refine (KMap.wf_cons k w _).2 ⟨fun p hp => ?_, ih hc.2⟩
        rcases KMap.mem_put t a v p hp with hp | hp
        · subst hp; simp; omega
        · exact hc.1 p hp

/-- Removing an entry keeps the keys strictly rising. -/
theorem KMap.wf_del (m : KMap α) (a : Nat) (h : KMap.wf m = true) : KMap.wf (KMap.del m a) = true := by
  induction m with
  | nil => simp [KMap.del, KMap.wf]
  | cons q t ih =>
    obtain ⟨k, w⟩ := q
    have hc := (KMap.wf_cons k w t).1 h
    simp only [KMap.del]
    split
    · exact ih hc.2
    · exact (KMap.wf_cons k w _).2 ⟨fun p hp => hc.1 p (KMap.mem_del t a p hp), ih hc.2⟩

/-- Changing an entry keeps the keys strictly rising. -/
theorem KMap.wf_modify (m : KMap α) (a : Nat) (f : α → α) (h : KMap.wf m = true) : KMap.wf (KMap.modify m a f) = true := by
  unfold KMap.modify
  split
  · exact KMap.wf_put m a _ h
  · exact h

/-- A read after a write of a word: the word written, and every other word as before. -/
theorem SMap.get_put (d : Nat → Word) (m : SMap) (a b : Nat) (w : Word) :
    SMap.get d (SMap.put d m a w) b = if b = a then w else SMap.get d m b := by
  unfold SMap.get SMap.put
  by_cases hw : w = d a
  · by_cases hb : b = a
    · subst hb; simp [hw, KMap.get?_del]
    · simp [hw, KMap.get?_del, hb]
  · by_cases hb : b = a <;> simp [hw, KMap.get?_put, hb]

/-- A write keeps the canonical form: it lists no word equal to what an unlisted word reads as. -/
theorem SMap.wf_put (d : Nat → Word) (m : SMap) (a : Nat) (w : Word) (h : SMap.wf d m = true) :
    SMap.wf d (SMap.put d m a w) = true := by
  unfold SMap.wf at *
  simp only [Bool.and_eq_true, List.all_eq_true, bne_iff_ne, ne_eq] at *
  unfold SMap.put
  split
  · exact ⟨KMap.wf_del m a h.1, fun p hp => h.2 p (KMap.mem_del m a p hp)⟩
  · rename_i hw
    refine ⟨KMap.wf_put m a w h.1, fun p hp => ?_⟩
    rcases KMap.mem_put m a w p hp with hp | hp
    · subst hp; exact hw
    · exact h.2 p hp

end Sys2Proof.Machine
end

