-- ==== Sys2Proof/Laws/State.lean ====
section
/-! SUPPORT. One lemma for each field after each plain update of the state: what the update writes, and that it writes
nothing else. -/

namespace Sys2Proof.Machine

/-! ### Registers and table words -/

/-- A register after a store: the word stored, and every other register as before. -/
@[simp] theorem Dev.reg_setReg (off o : Nat) (w : Word) (d : Dev) :
    (d.setReg off w).reg o = if o = off then w else d.reg o := SMap.get_put porOf d.regs off o w

/-- A table word after a store to the active tables. -/
@[simp] theorem Dev.actW_setAct (off o : Nat) (w : Word) (d : Dev) :
    (d.setAct off w).actW o = if o = off then w else d.actW o := SMap.get_put zeroW d.act off o w

/-- A table word after a store to the staged tables. -/
@[simp] theorem Dev.stgW_setStg (off o : Nat) (w : Word) (d : Dev) :
    (d.setStg off w).stgW o = if o = off then w else d.stgW o := SMap.get_put zeroW d.stg off o w

/-! ### `Dev.setReg` -/

@[simp] theorem Dev.setReg_op (off : Nat) (w : Word) (d : Dev) : (d.setReg off w).op = d.op := rfl
@[simp] theorem Dev.setReg_reason (off : Nat) (w : Word) (d : Dev) : (d.setReg off w).reason = d.reason := rfl
@[simp] theorem Dev.setReg_deg (off : Nat) (w : Word) (d : Dev) : (d.setReg off w).deg = d.deg := rfl
@[simp] theorem Dev.setReg_raw (off : Nat) (w : Word) (d : Dev) : (d.setReg off w).raw = d.raw := rfl
@[simp] theorem Dev.setReg_stg (off : Nat) (w : Word) (d : Dev) : (d.setReg off w).stg = d.stg := rfl
@[simp] theorem Dev.setReg_act (off : Nat) (w : Word) (d : Dev) : (d.setReg off w).act = d.act := rfl
@[simp] theorem Dev.setReg_latch (off : Nat) (w : Word) (d : Dev) : (d.setReg off w).latch = d.latch := rfl
@[simp] theorem Dev.setReg_free (off : Nat) (w : Word) (d : Dev) : (d.setReg off w).free = d.free := rfl
@[simp] theorem Dev.setReg_out (off : Nat) (w : Word) (d : Dev) : (d.setReg off w).out = d.out := rfl
@[simp] theorem Dev.setReg_host (off : Nat) (w : Word) (d : Dev) : (d.setReg off w).host = d.host := rfl
@[simp] theorem Dev.setReg_spq (off : Nat) (w : Word) (d : Dev) : (d.setReg off w).spq = d.spq := rfl
@[simp] theorem Dev.setReg_plg (off : Nat) (w : Word) (d : Dev) : (d.setReg off w).plg = d.plg := rfl
@[simp] theorem Dev.setReg_key (off : Nat) (w : Word) (d : Dev) : (d.setReg off w).key = d.key := rfl
@[simp] theorem Dev.setReg_anl (off : Nat) (w : Word) (d : Dev) : (d.setReg off w).anl = d.anl := rfl
@[simp] theorem Dev.setReg_pwr (off : Nat) (w : Word) (d : Dev) : (d.setReg off w).pwr = d.pwr := rfl
@[simp] theorem Dev.setReg_mgmt (off : Nat) (w : Word) (d : Dev) : (d.setReg off w).mgmt = d.mgmt := rfl
@[simp] theorem Dev.setReg_tbu (off : Nat) (w : Word) (d : Dev) : (d.setReg off w).tbu = d.tbu := rfl
@[simp] theorem Dev.setReg_net (off : Nat) (w : Word) (d : Dev) : (d.setReg off w).net = d.net := rfl
@[simp] theorem Dev.setReg_stm (off : Nat) (w : Word) (d : Dev) : (d.setReg off w).stm = d.stm := rfl
@[simp] theorem Dev.setReg_eas (off : Nat) (w : Word) (d : Dev) : (d.setReg off w).eas = d.eas := rfl
@[simp] theorem Dev.setReg_phx (off : Nat) (w : Word) (d : Dev) : (d.setReg off w).phx = d.phx := rfl
@[simp] theorem Dev.setReg_sfl (off : Nat) (w : Word) (d : Dev) : (d.setReg off w).sfl = d.sfl := rfl
@[simp] theorem Dev.setReg_pub (off : Nat) (w : Word) (d : Dev) : (d.setReg off w).pub = d.pub := rfl
@[simp] theorem Dev.setReg_brz (off : Nat) (w : Word) (d : Dev) : (d.setReg off w).brz = d.brz := rfl
@[simp] theorem Dev.setReg_sht (off : Nat) (w : Word) (d : Dev) : (d.setReg off w).sht = d.sht := rfl
@[simp] theorem Dev.setReg_swg (off : Nat) (w : Word) (d : Dev) : (d.setReg off w).swg = d.swg := rfl
@[simp] theorem Dev.setReg_dns (off : Nat) (w : Word) (d : Dev) : (d.setReg off w).dns = d.dns := rfl
@[simp] theorem Dev.setReg_flg (off : Nat) (w : Word) (d : Dev) : (d.setReg off w).flg = d.flg := rfl

/-! ### `Dev.setAct` -/

@[simp] theorem Dev.setAct_op (off : Nat) (w : Word) (d : Dev) : (d.setAct off w).op = d.op := rfl
@[simp] theorem Dev.setAct_reason (off : Nat) (w : Word) (d : Dev) : (d.setAct off w).reason = d.reason := rfl
@[simp] theorem Dev.setAct_deg (off : Nat) (w : Word) (d : Dev) : (d.setAct off w).deg = d.deg := rfl
@[simp] theorem Dev.setAct_raw (off : Nat) (w : Word) (d : Dev) : (d.setAct off w).raw = d.raw := rfl
@[simp] theorem Dev.setAct_regs (off : Nat) (w : Word) (d : Dev) : (d.setAct off w).regs = d.regs := rfl
@[simp] theorem Dev.setAct_stg (off : Nat) (w : Word) (d : Dev) : (d.setAct off w).stg = d.stg := rfl
@[simp] theorem Dev.setAct_latch (off : Nat) (w : Word) (d : Dev) : (d.setAct off w).latch = d.latch := rfl
@[simp] theorem Dev.setAct_free (off : Nat) (w : Word) (d : Dev) : (d.setAct off w).free = d.free := rfl
@[simp] theorem Dev.setAct_out (off : Nat) (w : Word) (d : Dev) : (d.setAct off w).out = d.out := rfl
@[simp] theorem Dev.setAct_host (off : Nat) (w : Word) (d : Dev) : (d.setAct off w).host = d.host := rfl
@[simp] theorem Dev.setAct_spq (off : Nat) (w : Word) (d : Dev) : (d.setAct off w).spq = d.spq := rfl
@[simp] theorem Dev.setAct_plg (off : Nat) (w : Word) (d : Dev) : (d.setAct off w).plg = d.plg := rfl
@[simp] theorem Dev.setAct_key (off : Nat) (w : Word) (d : Dev) : (d.setAct off w).key = d.key := rfl
@[simp] theorem Dev.setAct_anl (off : Nat) (w : Word) (d : Dev) : (d.setAct off w).anl = d.anl := rfl
@[simp] theorem Dev.setAct_pwr (off : Nat) (w : Word) (d : Dev) : (d.setAct off w).pwr = d.pwr := rfl
@[simp] theorem Dev.setAct_mgmt (off : Nat) (w : Word) (d : Dev) : (d.setAct off w).mgmt = d.mgmt := rfl
@[simp] theorem Dev.setAct_tbu (off : Nat) (w : Word) (d : Dev) : (d.setAct off w).tbu = d.tbu := rfl
@[simp] theorem Dev.setAct_net (off : Nat) (w : Word) (d : Dev) : (d.setAct off w).net = d.net := rfl
@[simp] theorem Dev.setAct_stm (off : Nat) (w : Word) (d : Dev) : (d.setAct off w).stm = d.stm := rfl
@[simp] theorem Dev.setAct_eas (off : Nat) (w : Word) (d : Dev) : (d.setAct off w).eas = d.eas := rfl
@[simp] theorem Dev.setAct_phx (off : Nat) (w : Word) (d : Dev) : (d.setAct off w).phx = d.phx := rfl
@[simp] theorem Dev.setAct_sfl (off : Nat) (w : Word) (d : Dev) : (d.setAct off w).sfl = d.sfl := rfl
@[simp] theorem Dev.setAct_pub (off : Nat) (w : Word) (d : Dev) : (d.setAct off w).pub = d.pub := rfl
@[simp] theorem Dev.setAct_brz (off : Nat) (w : Word) (d : Dev) : (d.setAct off w).brz = d.brz := rfl
@[simp] theorem Dev.setAct_sht (off : Nat) (w : Word) (d : Dev) : (d.setAct off w).sht = d.sht := rfl
@[simp] theorem Dev.setAct_swg (off : Nat) (w : Word) (d : Dev) : (d.setAct off w).swg = d.swg := rfl
@[simp] theorem Dev.setAct_dns (off : Nat) (w : Word) (d : Dev) : (d.setAct off w).dns = d.dns := rfl
@[simp] theorem Dev.setAct_flg (off : Nat) (w : Word) (d : Dev) : (d.setAct off w).flg = d.flg := rfl

/-! ### `Dev.setStg` -/

@[simp] theorem Dev.setStg_op (off : Nat) (w : Word) (d : Dev) : (d.setStg off w).op = d.op := rfl
@[simp] theorem Dev.setStg_reason (off : Nat) (w : Word) (d : Dev) : (d.setStg off w).reason = d.reason := rfl
@[simp] theorem Dev.setStg_deg (off : Nat) (w : Word) (d : Dev) : (d.setStg off w).deg = d.deg := rfl
@[simp] theorem Dev.setStg_raw (off : Nat) (w : Word) (d : Dev) : (d.setStg off w).raw = d.raw := rfl
@[simp] theorem Dev.setStg_regs (off : Nat) (w : Word) (d : Dev) : (d.setStg off w).regs = d.regs := rfl
@[simp] theorem Dev.setStg_act (off : Nat) (w : Word) (d : Dev) : (d.setStg off w).act = d.act := rfl
@[simp] theorem Dev.setStg_latch (off : Nat) (w : Word) (d : Dev) : (d.setStg off w).latch = d.latch := rfl
@[simp] theorem Dev.setStg_free (off : Nat) (w : Word) (d : Dev) : (d.setStg off w).free = d.free := rfl
@[simp] theorem Dev.setStg_out (off : Nat) (w : Word) (d : Dev) : (d.setStg off w).out = d.out := rfl
@[simp] theorem Dev.setStg_host (off : Nat) (w : Word) (d : Dev) : (d.setStg off w).host = d.host := rfl
@[simp] theorem Dev.setStg_spq (off : Nat) (w : Word) (d : Dev) : (d.setStg off w).spq = d.spq := rfl
@[simp] theorem Dev.setStg_plg (off : Nat) (w : Word) (d : Dev) : (d.setStg off w).plg = d.plg := rfl
@[simp] theorem Dev.setStg_key (off : Nat) (w : Word) (d : Dev) : (d.setStg off w).key = d.key := rfl
@[simp] theorem Dev.setStg_anl (off : Nat) (w : Word) (d : Dev) : (d.setStg off w).anl = d.anl := rfl
@[simp] theorem Dev.setStg_pwr (off : Nat) (w : Word) (d : Dev) : (d.setStg off w).pwr = d.pwr := rfl
@[simp] theorem Dev.setStg_mgmt (off : Nat) (w : Word) (d : Dev) : (d.setStg off w).mgmt = d.mgmt := rfl
@[simp] theorem Dev.setStg_tbu (off : Nat) (w : Word) (d : Dev) : (d.setStg off w).tbu = d.tbu := rfl
@[simp] theorem Dev.setStg_net (off : Nat) (w : Word) (d : Dev) : (d.setStg off w).net = d.net := rfl
@[simp] theorem Dev.setStg_stm (off : Nat) (w : Word) (d : Dev) : (d.setStg off w).stm = d.stm := rfl
@[simp] theorem Dev.setStg_eas (off : Nat) (w : Word) (d : Dev) : (d.setStg off w).eas = d.eas := rfl
@[simp] theorem Dev.setStg_phx (off : Nat) (w : Word) (d : Dev) : (d.setStg off w).phx = d.phx := rfl
@[simp] theorem Dev.setStg_sfl (off : Nat) (w : Word) (d : Dev) : (d.setStg off w).sfl = d.sfl := rfl
@[simp] theorem Dev.setStg_pub (off : Nat) (w : Word) (d : Dev) : (d.setStg off w).pub = d.pub := rfl
@[simp] theorem Dev.setStg_brz (off : Nat) (w : Word) (d : Dev) : (d.setStg off w).brz = d.brz := rfl
@[simp] theorem Dev.setStg_sht (off : Nat) (w : Word) (d : Dev) : (d.setStg off w).sht = d.sht := rfl
@[simp] theorem Dev.setStg_swg (off : Nat) (w : Word) (d : Dev) : (d.setStg off w).swg = d.swg := rfl
@[simp] theorem Dev.setStg_dns (off : Nat) (w : Word) (d : Dev) : (d.setStg off w).dns = d.dns := rfl
@[simp] theorem Dev.setStg_flg (off : Nat) (w : Word) (d : Dev) : (d.setStg off w).flg = d.flg := rfl

/-! ### `Dev.emit` -/

@[simp] theorem Dev.emit_op (o : Output) (d : Dev) : (d.emit o).op = d.op := rfl
@[simp] theorem Dev.emit_reason (o : Output) (d : Dev) : (d.emit o).reason = d.reason := rfl
@[simp] theorem Dev.emit_deg (o : Output) (d : Dev) : (d.emit o).deg = d.deg := rfl
@[simp] theorem Dev.emit_raw (o : Output) (d : Dev) : (d.emit o).raw = d.raw := rfl
@[simp] theorem Dev.emit_regs (o : Output) (d : Dev) : (d.emit o).regs = d.regs := rfl
@[simp] theorem Dev.emit_stg (o : Output) (d : Dev) : (d.emit o).stg = d.stg := rfl
@[simp] theorem Dev.emit_act (o : Output) (d : Dev) : (d.emit o).act = d.act := rfl
@[simp] theorem Dev.emit_latch (o : Output) (d : Dev) : (d.emit o).latch = d.latch := rfl
@[simp] theorem Dev.emit_free (o : Output) (d : Dev) : (d.emit o).free = d.free := rfl
@[simp] theorem Dev.emit_host (o : Output) (d : Dev) : (d.emit o).host = d.host := rfl
@[simp] theorem Dev.emit_spq (o : Output) (d : Dev) : (d.emit o).spq = d.spq := rfl
@[simp] theorem Dev.emit_plg (o : Output) (d : Dev) : (d.emit o).plg = d.plg := rfl
@[simp] theorem Dev.emit_key (o : Output) (d : Dev) : (d.emit o).key = d.key := rfl
@[simp] theorem Dev.emit_anl (o : Output) (d : Dev) : (d.emit o).anl = d.anl := rfl
@[simp] theorem Dev.emit_pwr (o : Output) (d : Dev) : (d.emit o).pwr = d.pwr := rfl
@[simp] theorem Dev.emit_mgmt (o : Output) (d : Dev) : (d.emit o).mgmt = d.mgmt := rfl
@[simp] theorem Dev.emit_tbu (o : Output) (d : Dev) : (d.emit o).tbu = d.tbu := rfl
@[simp] theorem Dev.emit_net (o : Output) (d : Dev) : (d.emit o).net = d.net := rfl
@[simp] theorem Dev.emit_stm (o : Output) (d : Dev) : (d.emit o).stm = d.stm := rfl
@[simp] theorem Dev.emit_eas (o : Output) (d : Dev) : (d.emit o).eas = d.eas := rfl
@[simp] theorem Dev.emit_phx (o : Output) (d : Dev) : (d.emit o).phx = d.phx := rfl
@[simp] theorem Dev.emit_sfl (o : Output) (d : Dev) : (d.emit o).sfl = d.sfl := rfl
@[simp] theorem Dev.emit_pub (o : Output) (d : Dev) : (d.emit o).pub = d.pub := rfl
@[simp] theorem Dev.emit_brz (o : Output) (d : Dev) : (d.emit o).brz = d.brz := rfl
@[simp] theorem Dev.emit_sht (o : Output) (d : Dev) : (d.emit o).sht = d.sht := rfl
@[simp] theorem Dev.emit_swg (o : Output) (d : Dev) : (d.emit o).swg = d.swg := rfl
@[simp] theorem Dev.emit_dns (o : Output) (d : Dev) : (d.emit o).dns = d.dns := rfl
@[simp] theorem Dev.emit_flg (o : Output) (d : Dev) : (d.emit o).flg = d.flg := rfl

/-! ### `Dev.setSpq` -/

@[simp] theorem Dev.setSpq_op (q : Nat) (x : SpqQ) (d : Dev) : (d.setSpq q x).op = d.op := rfl
@[simp] theorem Dev.setSpq_reason (q : Nat) (x : SpqQ) (d : Dev) : (d.setSpq q x).reason = d.reason := rfl
@[simp] theorem Dev.setSpq_deg (q : Nat) (x : SpqQ) (d : Dev) : (d.setSpq q x).deg = d.deg := rfl
@[simp] theorem Dev.setSpq_raw (q : Nat) (x : SpqQ) (d : Dev) : (d.setSpq q x).raw = d.raw := rfl
@[simp] theorem Dev.setSpq_regs (q : Nat) (x : SpqQ) (d : Dev) : (d.setSpq q x).regs = d.regs := rfl
@[simp] theorem Dev.setSpq_stg (q : Nat) (x : SpqQ) (d : Dev) : (d.setSpq q x).stg = d.stg := rfl
@[simp] theorem Dev.setSpq_act (q : Nat) (x : SpqQ) (d : Dev) : (d.setSpq q x).act = d.act := rfl
@[simp] theorem Dev.setSpq_latch (q : Nat) (x : SpqQ) (d : Dev) : (d.setSpq q x).latch = d.latch := rfl
@[simp] theorem Dev.setSpq_free (q : Nat) (x : SpqQ) (d : Dev) : (d.setSpq q x).free = d.free := rfl
@[simp] theorem Dev.setSpq_out (q : Nat) (x : SpqQ) (d : Dev) : (d.setSpq q x).out = d.out := rfl
@[simp] theorem Dev.setSpq_host (q : Nat) (x : SpqQ) (d : Dev) : (d.setSpq q x).host = d.host := rfl
@[simp] theorem Dev.setSpq_plg (q : Nat) (x : SpqQ) (d : Dev) : (d.setSpq q x).plg = d.plg := rfl
@[simp] theorem Dev.setSpq_key (q : Nat) (x : SpqQ) (d : Dev) : (d.setSpq q x).key = d.key := rfl
@[simp] theorem Dev.setSpq_anl (q : Nat) (x : SpqQ) (d : Dev) : (d.setSpq q x).anl = d.anl := rfl
@[simp] theorem Dev.setSpq_pwr (q : Nat) (x : SpqQ) (d : Dev) : (d.setSpq q x).pwr = d.pwr := rfl
@[simp] theorem Dev.setSpq_mgmt (q : Nat) (x : SpqQ) (d : Dev) : (d.setSpq q x).mgmt = d.mgmt := rfl
@[simp] theorem Dev.setSpq_tbu (q : Nat) (x : SpqQ) (d : Dev) : (d.setSpq q x).tbu = d.tbu := rfl
@[simp] theorem Dev.setSpq_net (q : Nat) (x : SpqQ) (d : Dev) : (d.setSpq q x).net = d.net := rfl
@[simp] theorem Dev.setSpq_stm (q : Nat) (x : SpqQ) (d : Dev) : (d.setSpq q x).stm = d.stm := rfl
@[simp] theorem Dev.setSpq_eas (q : Nat) (x : SpqQ) (d : Dev) : (d.setSpq q x).eas = d.eas := rfl
@[simp] theorem Dev.setSpq_phx (q : Nat) (x : SpqQ) (d : Dev) : (d.setSpq q x).phx = d.phx := rfl
@[simp] theorem Dev.setSpq_sfl (q : Nat) (x : SpqQ) (d : Dev) : (d.setSpq q x).sfl = d.sfl := rfl
@[simp] theorem Dev.setSpq_pub (q : Nat) (x : SpqQ) (d : Dev) : (d.setSpq q x).pub = d.pub := rfl
@[simp] theorem Dev.setSpq_brz (q : Nat) (x : SpqQ) (d : Dev) : (d.setSpq q x).brz = d.brz := rfl
@[simp] theorem Dev.setSpq_sht (q : Nat) (x : SpqQ) (d : Dev) : (d.setSpq q x).sht = d.sht := rfl
@[simp] theorem Dev.setSpq_swg (q : Nat) (x : SpqQ) (d : Dev) : (d.setSpq q x).swg = d.swg := rfl
@[simp] theorem Dev.setSpq_dns (q : Nat) (x : SpqQ) (d : Dev) : (d.setSpq q x).dns = d.dns := rfl
@[simp] theorem Dev.setSpq_flg (q : Nat) (x : SpqQ) (d : Dev) : (d.setSpq q x).flg = d.flg := rfl

@[simp] theorem Dev.emit_out (o : Output) (d : Dev) : (d.emit o).out = o :: d.out := rfl
@[simp] theorem Dev.reg_emit (o : Output) (d : Dev) (off : Nat) : (d.emit o).reg off = d.reg off := rfl
@[simp] theorem Dev.reg_setAct (a : Nat) (w : Word) (d : Dev) (off : Nat) : (d.setAct a w).reg off = d.reg off := rfl
@[simp] theorem Dev.reg_setSpq (q : Nat) (x : SpqQ) (d : Dev) (off : Nat) : (d.setSpq q x).reg off = d.reg off := rfl

/-! ### The whole state -/

@[simp] theorem State.mapDev_fuse (f : Dev → Dev) (s : State) : (s.mapDev f).fuse = s.fuse := rfl
@[simp] theorem State.mapDev_nv (f : Dev → Dev) (s : State) : (s.mapDev f).nv = s.nv := rfl
@[simp] theorem State.mapDev_bd (f : Dev → Dev) (s : State) : (s.mapDev f).bd = s.bd := rfl
@[simp] theorem State.mapDev_pending (f : Dev → Dev) (s : State) : (s.mapDev f).pending = s.pending := rfl
@[simp] theorem State.mapDev_dev (f : Dev → Dev) (s : State) : (s.mapDev f).dev = f s.dev := rfl

/-- What a meaning of the main domain does: it answers a next state, and only the main domain changes. -/
theorem State.onDev_next (f : Dev → Dev) (s : State) : s.onDev f = .next { s with dev := f s.dev } := rfl

end Sys2Proof.Machine
end

