-- ==== Sys2Proof/Laws/Word.lean ====
section
/-! SUPPORT. Laws of words: bit fields after a field is replaced, and the counter that saturates. -/

namespace Sys2Proof

theorem Word.field_lt (w : Word) (lo len : Nat) : w.field lo len < 2 ^ len := by
  unfold Word.field; exact Nat.mod_lt _ (by positivity)

/-- A number as the part below a field, the field, and the part above it. -/
theorem split_field (n lo len : Nat) :
    n = n % 2 ^ lo + (n / 2 ^ lo % 2 ^ len) * 2 ^ lo + n / 2 ^ (lo + len) * 2 ^ (lo + len) := by
  have h1 := Nat.div_add_mod n (2 ^ lo)
  have h2 := Nat.div_add_mod (n / 2 ^ lo) (2 ^ len)
  have h3 : n / 2 ^ (lo + len) = n / 2 ^ lo / 2 ^ len := by rw [Nat.pow_add, Nat.div_div_eq_div_mul]
  rw [h3, Nat.pow_add]
  generalize n / 2 ^ lo / 2 ^ len = c at *
  generalize n / 2 ^ lo % 2 ^ len = b at *
  generalize hq : n / 2 ^ lo = q at *
  subst h2
  have : n = 2 ^ lo * (2 ^ len * c + b) + n % 2 ^ lo := h1.symm
  calc n = 2 ^ lo * (2 ^ len * c + b) + n % 2 ^ lo := this
    _ = _ := by ring

theorem Word.setField_toNat (w : Word) (lo len v : Nat) (h : lo + len ≤ 32) :
    (w.setField lo len v).toNat = w.toNat % 2 ^ lo + (v % 2 ^ len) * 2 ^ lo + w.toNat / 2 ^ (lo + len) * 2 ^ (lo + len) := by
  have hs := split_field w.toNat lo len
  have hf : w.field lo len = w.toNat / 2 ^ lo % 2 ^ len := by simp [Word.field, Nat.shiftRight_eq_div_pow]
  have hlt : w.toNat < 2 ^ 32 := w.isLt
  have hv : v % 2 ^ len < 2 ^ len := Nat.mod_lt _ (by positivity)
  have ha : w.toNat % 2 ^ lo < 2 ^ lo := Nat.mod_lt _ (by positivity)
  have e32 : (2 : Nat) ^ 32 = 2 ^ (lo + len) * 2 ^ (32 - (lo + len)) := by rw [← Nat.pow_add]; congr 1; omega
  have hc : w.toNat / 2 ^ (lo + len) < 2 ^ (32 - (lo + len)) := by
    apply Nat.div_lt_of_lt_mul; rw [← e32]; exact hlt
  have hsum : w.toNat % 2 ^ lo + (v % 2 ^ len) * 2 ^ lo + w.toNat / 2 ^ (lo + len) * 2 ^ (lo + len) < 2 ^ 32 := by
    have h1 : w.toNat % 2 ^ lo + (v % 2 ^ len) * 2 ^ lo < 2 ^ (lo + len) := by
      rw [Nat.pow_add]
      calc w.toNat % 2 ^ lo + (v % 2 ^ len) * 2 ^ lo < 2 ^ lo + (v % 2 ^ len) * 2 ^ lo := by omega
        _ = (v % 2 ^ len + 1) * 2 ^ lo := by ring
        _ ≤ 2 ^ len * 2 ^ lo := Nat.mul_le_mul_right _ hv
        _ = 2 ^ lo * 2 ^ len := Nat.mul_comm _ _
    rw [e32]
    calc _ < 2 ^ (lo + len) + w.toNat / 2 ^ (lo + len) * 2 ^ (lo + len) := by omega
      _ = (w.toNat / 2 ^ (lo + len) + 1) * 2 ^ (lo + len) := by ring
      _ ≤ 2 ^ (32 - (lo + len)) * 2 ^ (lo + len) := Nat.mul_le_mul_right _ hc
      _ = 2 ^ (lo + len) * 2 ^ (32 - (lo + len)) := Nat.mul_comm _ _
  unfold Word.setField
  rw [BitVec.toNat_ofNat, hf]
  have e : w.toNat - (w.toNat / 2 ^ lo % 2 ^ len) * 2 ^ lo + (v % 2 ^ len) * 2 ^ lo
      = w.toNat % 2 ^ lo + (v % 2 ^ len) * 2 ^ lo + w.toNat / 2 ^ (lo + len) * 2 ^ (lo + len) := by
    generalize (w.toNat / 2 ^ lo % 2 ^ len) * 2 ^ lo = X at *
    generalize (v % 2 ^ len) * 2 ^ lo = Y at *
    generalize w.toNat / 2 ^ (lo + len) * 2 ^ (lo + len) = Z at *
    generalize w.toNat % 2 ^ lo = A at *
    omega
  rw [e, Nat.mod_eq_of_lt hsum]

/-- A field just written reads as the value written, cut to its width. -/
theorem Word.field_setField (w : Word) (lo len v : Nat) (h : lo + len ≤ 32) : (w.setField lo len v).field lo len = v % 2 ^ len := by
  have hv : v % 2 ^ len < 2 ^ len := Nat.mod_lt _ (by positivity)
  have ha : w.toNat % 2 ^ lo < 2 ^ lo := Nat.mod_lt _ (by positivity)
  rw [Word.field, Word.setField_toNat w lo len v h, Nat.shiftRight_eq_div_pow]
  have : w.toNat % 2 ^ lo + (v % 2 ^ len) * 2 ^ lo + w.toNat / 2 ^ (lo + len) * 2 ^ (lo + len)
      = w.toNat % 2 ^ lo + 2 ^ lo * (v % 2 ^ len + 2 ^ len * (w.toNat / 2 ^ (lo + len))) := by rw [Nat.pow_add]; ring
  rw [this, Nat.add_mul_div_left _ _ (by positivity), Nat.div_eq_of_lt ha, Nat.zero_add, Nat.add_mul_mod_self_left, Nat.mod_eq_of_lt hv]

theorem Word.bit_eq_field (w : Word) (i : Nat) : w.bit i = decide (w.field i 1 = 1) := by
  simp [Word.bit, Word.field, Nat.testBit_eq_decide_div_mod_eq, Nat.shiftRight_eq_div_pow]

/-- A bit just set or cleared reads so. -/
theorem Word.bit_setBit (w : Word) (i : Nat) (b : Bool) (h : i < 32) : (w.setBit i b).bit i = b := by
  rw [Word.bit_eq_field, Word.setBit, Word.field_setField w i 1 _ (by omega)]
  cases b <;> simp

/-- Bits of a word outside a replaced field are as before. -/
theorem Word.bit_setField_ne (w : Word) (lo len v j : Nat) (h : lo + len ≤ 32) (hj : j < lo ∨ lo + len ≤ j) :
    (w.setField lo len v).bit j = w.bit j := by
  have hs := split_field w.toNat lo len
  have hv : v % 2 ^ len < 2 ^ len := Nat.mod_lt _ (by positivity)
  have hb : w.toNat / 2 ^ lo % 2 ^ len < 2 ^ len := Nat.mod_lt _ (by positivity)
  have ha : w.toNat % 2 ^ lo < 2 ^ lo := Nat.mod_lt _ (by positivity)
  have key : ∀ b : Nat, b < 2 ^ len → (w.toNat % 2 ^ lo + b * 2 ^ lo + w.toNat / 2 ^ (lo + len) * 2 ^ (lo + len)).testBit j
      = if j < lo then (w.toNat % 2 ^ lo).testBit j else (w.toNat / 2 ^ (lo + len)).testBit (j - (lo + len)) := by
    intro b hbl
    have e : w.toNat % 2 ^ lo + b * 2 ^ lo + w.toNat / 2 ^ (lo + len) * 2 ^ (lo + len)
        = 2 ^ lo * (2 ^ len * (w.toNat / 2 ^ (lo + len)) + b) + w.toNat % 2 ^ lo := by rw [Nat.pow_add]; ring
    rw [e, Nat.testBit_two_pow_mul_add _ ha]
    split
    · rfl
    · rename_i hjl
      rw [Nat.testBit_two_pow_mul_add _ hbl]
      rw [if_neg (by omega)]
      congr 1
      omega
  simp only [Word.bit]
  rw [Word.setField_toNat w lo len v h, key _ hv]
  conv_rhs => rw [hs, key _ hb]

/-- The other bits stay when one is set or cleared. -/
theorem Word.bit_setBit_ne (w : Word) (i j : Nat) (b : Bool) (h : i < 32) (hj : j ≠ i) : (w.setBit i b).bit j = w.bit j :=
  Word.bit_setField_ne w i 1 _ j (by omega) (by omega)

/-- A saturating counter (R13): the sum while it fits, and all ones after. -/
theorem Word.satAdd_toNat (w : Word) (n : Nat) : (w.satAdd n).toNat = min (w.toNat + n) 4294967295 := by
  have := w.isLt
  unfold Word.satAdd Word.ones
  split
  · rw [BitVec.toNat_ofNat]; omega
  · simp; omega

end Sys2Proof
end

