-- ==== Sys2Proof/Laws/Ops.lean ====
section
/-! SUPPORT. For each shared operation one law that says once what it can do: reporting operations keep everything outside
`reportReg` and their own registers, and a host command is its refusal or its body. -/

namespace Sys2Proof.Machine

/-! ### Reads of a register after the shared register updates -/

@[simp] theorem Dev.reg_bump (off n o : Nat) (d : Dev) :
    (d.bump off n).reg o = if o = off then (d.reg off).satAdd n else d.reg o := Dev.reg_setReg ..

@[simp] theorem Dev.reg_wrapAdd (off n o : Nat) (d : Dev) :
    (d.wrapAdd off n).reg o = if o = off then d.reg off + BitVec.ofNat 32 n else d.reg o := Dev.reg_setReg ..

@[simp] theorem Dev.reg_setField (off lo len v o : Nat) (d : Dev) :
    (d.setField off lo len v).reg o = if o = off then (d.reg off).setField lo len v else d.reg o := Dev.reg_setReg ..

/-! ### `Dev.Keeps` -/

theorem Dev.Keeps.refl (own : Nat → Bool) (d : Dev) : Dev.Keeps own d d := ⟨rfl, fun _ _ _ => rfl⟩

theorem Dev.Keeps.trans {own : Nat → Bool} {a b c : Dev} (h : Dev.Keeps own a b) (k : Dev.Keeps own b c) : Dev.Keeps own a c := by
  obtain ⟨h1, h2⟩ := h
  obtain ⟨k1, k2⟩ := k
  refine ⟨?_, fun off ho hr => (k2 off ho hr).trans (h2 off ho hr)⟩
  rw [k1, h1]

theorem Dev.Keeps.mono {own own' : Nat → Bool} {a b : Dev} (h : Dev.Keeps own a b) (hi : ∀ o, own' o = false → own o = false) :
    Dev.Keeps own' a b := ⟨h.1, fun off ho hr => h.2 off (hi off ho) hr⟩

/-- A change of what reporting moves, beside the registers. -/
theorem Dev.keeps_of_regs {own : Nat → Bool} {d e : Dev}
    (h : e = { d with regs := e.regs, out := e.out, host := e.host, plg := e.plg, free := e.free }) (hr : e.regs = d.regs) :
    Dev.Keeps own d e := ⟨h, fun off _ _ => by simp [Dev.reg, hr]⟩

/-- A store to a register that is one's own or a reporting one. -/
theorem Dev.keeps_setReg {own : Nat → Bool} (off : Nat) (w : Word) (d : Dev) (h : own off = true ∨ reportReg off = true) :
    Dev.Keeps own d (d.setReg off w) := by
  refine ⟨rfl, fun o ho hr => ?_⟩
  have : o ≠ off := by rintro rfl; rcases h with h | h <;> simp_all
  simp [this]

theorem Dev.keeps_bump {own : Nat → Bool} (off n : Nat) (d : Dev) (h : own off = true ∨ reportReg off = true) :
    Dev.Keeps own d (d.bump off n) := Dev.keeps_setReg off _ d h

theorem Dev.keeps_wrapAdd {own : Nat → Bool} (off n : Nat) (d : Dev) (h : own off = true ∨ reportReg off = true) :
    Dev.Keeps own d (d.wrapAdd off n) := Dev.keeps_setReg off _ d h

theorem Dev.keeps_setField {own : Nat → Bool} (off lo len v : Nat) (d : Dev) (h : own off = true ∨ reportReg off = true) :
    Dev.Keeps own d (d.setField off lo len v) := Dev.keeps_setReg off _ d h

theorem Dev.keeps_emit {own : Nat → Bool} (o : Output) (d : Dev) : Dev.Keeps own d (d.emit o) := Dev.keeps_of_regs rfl rfl

theorem Dev.keeps_host {own : Nat → Bool} (x : HostS) (d : Dev) : Dev.Keeps own d { d with host := x } := Dev.keeps_of_regs rfl rfl

theorem Dev.keeps_plg {own : Nat → Bool} (x : PlgS) (d : Dev) : Dev.Keeps own d { d with plg := x } := Dev.keeps_of_regs rfl rfl

/-! ### Messages and event bits (R381, R382) -/

/-- Sending a vector changes the record of outputs or a pending bit only. -/
theorem Dev.keeps_msix {own : Nat → Bool} (v : Nat) (d : Dev) : Dev.Keeps own d (d.msix v) := by
  unfold Dev.msix
  split
  · exact Dev.keeps_emit _ _
  · split
    · exact Dev.Keeps.refl _ _
    · exact Dev.keeps_host _ _

@[simp] theorem Dev.msix_regs (v : Nat) (d : Dev) : (d.msix v).regs = d.regs := by
  unfold Dev.msix; split <;> (try split) <;> rfl

@[simp] theorem Dev.reg_msix (v off : Nat) (d : Dev) : (d.msix v).reg off = d.reg off := by simp [Dev.reg]

/-- Raising an event bit sets the bit, and changes no other register. -/
@[simp] theorem Dev.reg_raise (off bit o : Nat) (d : Dev) :
    (d.raise off bit).reg o = if o = off then (d.reg off).setBit bit true else d.reg o := by
  unfold Dev.raise
  dsimp only
  split <;> simp

theorem Dev.keeps_raise {own : Nat → Bool} (off bit : Nat) (d : Dev) (h : own off = true ∨ reportReg off = true) :
    Dev.Keeps own d (d.raise off bit) := by
  unfold Dev.raise
  dsimp only
  split
  · exact (Dev.keeps_setReg _ _ _ h).trans (Dev.keeps_msix _ _)
  · exact Dev.keeps_setReg _ _ _ h

/-- The bit raised reads 1. -/
theorem Dev.rbit_raise (off bit : Nat) (d : Dev) (h : bit < 32) : (d.raise off bit).rbit off bit = true := by
  simp [Dev.rbit, Word.bit_setBit _ _ _ h]

/-! ### Posting (R478 to R480) -/

theorem Dev.keeps_stageDrop {own : Nat → Bool} (d : Dev) : Dev.Keeps own d d.stageDrop :=
  (Dev.keeps_bump _ _ _ (Or.inr (by decide))).trans (Dev.keeps_plg _ _)

theorem Dev.keeps_stagePut {own : Nat → Bool} (r : LogRec) (old new : List LogRec) (d : Dev) :
    Dev.Keeps own d (d.stagePut r old new) :=
  Dev.keeps_plg _ _

theorem Dev.keeps_stageRec {own : Nat → Bool} (r : LogRec) (d : Dev) : Dev.Keeps own d (d.stageRec r) := by
  unfold Dev.stageRec
  dsimp only
  split
  · exact Dev.keeps_stagePut _ _ _ _
  · split
    · exact (Dev.keeps_stageDrop d).trans (Dev.keeps_stagePut _ _ _ _)
    · exact (Dev.keeps_stageDrop d).trans (Dev.keeps_stagePut _ _ _ _)
    · split
      · exact Dev.keeps_plg _ _
      · exact Dev.keeps_stageDrop d

theorem Dev.keeps_tokenArrive {own : Nat → Bool} (code : Nat) (d : Dev) : Dev.Keeps own d (d.tokenArrive code) := by
  unfold Dev.tokenArrive
  split
  · exact Dev.Keeps.refl _ _
  · split
    · exact Dev.Keeps.refl _ _
    · split
      · exact Dev.keeps_plg _ _
      · exact (Dev.keeps_plg _ _).trans (Dev.keeps_stageRec _ _)

theorem Dev.keeps_tokensArrive {own : Nat → Bool} (code n : Nat) (d : Dev) : Dev.Keeps own d (d.tokensArrive code n) := by
  induction n generalizing d with
  | zero => exact Dev.Keeps.refl _ _
  | succ n ih =>
    unfold Dev.tokensArrive
    split
    · exact Dev.Keeps.refl _ _
    · split
      · exact Dev.Keeps.refl _ _
      · exact (Dev.keeps_tokenArrive code d).trans (ih _)

/-- Posting an event changes the proof log's staging, its buckets and its counts only. -/
theorem Dev.keeps_post {own : Nat → Bool} (code : Nat) (p : List Word) (d : Dev) : Dev.Keeps own d (d.post code p) := by
  unfold Dev.post
  split
  · exact Dev.keeps_stageRec _ _
  · refine (Dev.keeps_tokensArrive code 256 d).trans ?_
    dsimp only
    split
    · exact (Dev.keeps_plg _ _).trans (Dev.keeps_stageRec _ _)
    · exact (Dev.keeps_plg _ _).trans (Dev.keeps_bump _ _ _ (Or.inr (by decide)))

/-! ### Completion rings (R368, R379, R380) -/

theorem reportReg_hst (off : Nat) (h : 0x120000 ≤ off) (h' : off < 0x130000) : reportReg off = true := by
  simp [reportReg, h, h']

theorem Dev.keeps_doorbell {own : Nat → Bool} (off : Nat) (w : Word) (d : Dev) : Dev.Keeps own d (d.doorbell off w) := by
  unfold Dev.doorbell
  split
  · exact Dev.keeps_emit _ _
  · exact Dev.Keeps.refl _ _

theorem Dev.keeps_ringNotify {own : Nat → Bool} (c : Nat) (d : Dev) : Dev.Keeps own d (d.ringNotify c) := by
  unfold Dev.ringNotify
  split
  · dsimp only
    split
    · exact (Dev.keeps_host _ _).trans (Dev.keeps_msix _ _)
    · split
      · exact Dev.Keeps.refl _ _
      · exact Dev.keeps_host _ _
  · exact Dev.Keeps.refl _ _

/-- Writing an entry of a completion ring (one of the 128 rings). -/
theorem Dev.keeps_cqWrite {own : Nat → Bool} (c : Nat) (o : Nat → Output) (d : Dev) (h : c < 128) : Dev.Keeps own d (d.cqWrite c o) := by
  have ht : reportReg (Reg.HST_RING_TAIL c) = true := reportReg_hst _ (by show _ ≤ _ + _; omega) (by show _ + _ < _; omega)
  have hd : reportReg (Reg.HST_RING_DROP c) = true := reportReg_hst _ (by show _ ≤ _ + _; omega) (by show _ + _ < _; omega)
  unfold Dev.cqWrite
  split
  · exact Dev.Keeps.refl _ _
  · split
    · exact Dev.keeps_bump _ _ _ (Or.inr hd)
    · exact (((Dev.keeps_emit _ _).trans (Dev.keeps_wrapAdd _ _ _ (Or.inr ht))).trans (Dev.keeps_doorbell _ _ _)).trans
        (Dev.keeps_ringNotify _ _)

theorem Dev.cqOf_lt (n : Nat) (d : Dev) : d.cqOf n < 128 := Word.field_lt _ 8 7

/-- Completing a command. -/
theorem Dev.keeps_completeErr {own : Nat → Bool} (h : CmdHdr) (code status : Nat) (m : Bool) (p : List Word) (d : Dev) :
    Dev.Keeps own d (d.completeErr h code status m p) := by
  have key : ∀ m' : Bool, Dev.Keeps own d (
      let d := { d with host := { d.host with fetched := unfetch h code d.host.fetched } }
      if m' || decide (64 ≤ h.ring) then d
      else
        let c := d.cqOf h.ring
        if c < 64 then d else d.cqWrite c (fun a => .cqe a c status code h.tag h.ring m (pad6 p))) := by
    intro m'
    dsimp only
    split
    · exact Dev.keeps_host _ _
    · split
      · exact Dev.keeps_host _ _
      · exact (Dev.keeps_host _ _).trans (Dev.keeps_cqWrite _ _ _ (Dev.cqOf_lt _ _))
  exact key _

theorem Dev.keeps_complete {own : Nat → Bool} (h : CmdHdr) (code status : Nat) (p : List Word) (d : Dev) :
    Dev.Keeps own d (d.complete h code status p) := Dev.keeps_completeErr ..

/-- Writing a notice on the management ring. -/
theorem Dev.keeps_notice {own : Nat → Bool} (code : Nat) (p : List Word) (d : Dev) : Dev.Keeps own d (d.notice code p) := by
  unfold Dev.notice
  split
  · exact (Dev.keeps_bump _ _ _ (Or.inr (by decide))).trans (Dev.keeps_raise _ _ _ (Or.inr (by decide)))
  · exact Dev.keeps_cqWrite _ _ _ (by decide)

/-- Refusing a command: its completion, its counts and its records, and nothing else (R373). -/
theorem Dev.keeps_refuse {own : Nat → Bool} (h : CmdHdr) (code order status slot : Nat) (p : List Word) (d : Dev) :
    Dev.Keeps own d (d.refuse h code order status slot p) := by
  unfold Dev.refuse
  split
  · exact ((Dev.keeps_wrapAdd _ _ _ (Or.inr (by decide))).trans (Dev.keeps_post _ _ _)).trans (Dev.keeps_complete _ _ _ _ _)
  · split
    · exact ((Dev.keeps_bump _ _ _ (Or.inr (by decide))).trans (Dev.keeps_post _ _ _)).trans (Dev.keeps_complete _ _ _ _ _)
    · exact Dev.keeps_complete _ _ _ _ _

/-! ### Host commands (R371 to R373) -/

/-- An admitted command runs its body. -/
theorem Dev.cmd_of_admits {h : CmdHdr} {code : Nat} {slots : List Nat} {present : Bool} {legal : List OpState} {body : Dev → Dev}
    {d : Dev} (ha : d.Admits h code slots present legal) : d.cmd h code slots present legal body = body d := by
  obtain ⟨h1, h2, h3, h4, h5⟩ := ha
  have e1 : (d.op == OpState.boot) = false := by simpa using h1
  have e3 : (d.op == OpState.holdup) = false := by simpa using h3
  simp [Dev.cmd, e1, e3, h2, h4, h5]

theorem State.cmd_of_admits {h : CmdHdr} {code : Nat} {slots : List Nat} {legal : List OpState} {body : State → State}
    {s : State} (ha : s.dev.Admits h code slots true legal) : s.cmd h code slots legal body = body s := by
  obtain ⟨_, _, _, h4, h5⟩ := ha
  simp [State.cmd, h4, h5]

/-- A command keeps what its body keeps. -/
theorem Dev.keeps_cmd {own : Nat → Bool} (h : CmdHdr) (code : Nat) (slots : List Nat) (present : Bool) (legal : List OpState)
    (body : Dev → Dev) (d : Dev) (hb : d.gate h code slots present legal = none → Dev.Keeps own d (body d)) :
    Dev.Keeps own d (d.cmd h code slots present legal body) := by
  unfold Dev.cmd
  split
  · exact Dev.Keeps.refl _ _
  · split
    · exact Dev.keeps_complete _ _ _ _ _
    · split
      · split
        · exact Dev.keeps_refuse _ _ _ _ _ _ _
        · rename_i hg; exact hb hg
      · exact Dev.Keeps.refl _ _

end Sys2Proof.Machine
end

