-- ==== Sys2Proof/Laws/Frames.lean ====
section
/-! SUPPORT. The fields of the main domain that a reporting operation leaves: one lemma for each field and operation, each
from the operation's law. -/

namespace Sys2Proof.Machine

theorem Dev.Keeps.op_eq {own : Nat → Bool} {d e : Dev} (h : Dev.Keeps own d e) : e.op = d.op := by rw [h.1]
theorem Dev.Keeps.reason_eq {own : Nat → Bool} {d e : Dev} (h : Dev.Keeps own d e) : e.reason = d.reason := by rw [h.1]
theorem Dev.Keeps.deg_eq {own : Nat → Bool} {d e : Dev} (h : Dev.Keeps own d e) : e.deg = d.deg := by rw [h.1]
theorem Dev.Keeps.raw_eq {own : Nat → Bool} {d e : Dev} (h : Dev.Keeps own d e) : e.raw = d.raw := by rw [h.1]
theorem Dev.Keeps.stg_eq {own : Nat → Bool} {d e : Dev} (h : Dev.Keeps own d e) : e.stg = d.stg := by rw [h.1]
theorem Dev.Keeps.act_eq {own : Nat → Bool} {d e : Dev} (h : Dev.Keeps own d e) : e.act = d.act := by rw [h.1]
theorem Dev.Keeps.latch_eq {own : Nat → Bool} {d e : Dev} (h : Dev.Keeps own d e) : e.latch = d.latch := by rw [h.1]
theorem Dev.Keeps.spq_eq {own : Nat → Bool} {d e : Dev} (h : Dev.Keeps own d e) : e.spq = d.spq := by rw [h.1]
theorem Dev.Keeps.key_eq {own : Nat → Bool} {d e : Dev} (h : Dev.Keeps own d e) : e.key = d.key := by rw [h.1]
theorem Dev.Keeps.anl_eq {own : Nat → Bool} {d e : Dev} (h : Dev.Keeps own d e) : e.anl = d.anl := by rw [h.1]
theorem Dev.Keeps.pwr_eq {own : Nat → Bool} {d e : Dev} (h : Dev.Keeps own d e) : e.pwr = d.pwr := by rw [h.1]
theorem Dev.Keeps.mgmt_eq {own : Nat → Bool} {d e : Dev} (h : Dev.Keeps own d e) : e.mgmt = d.mgmt := by rw [h.1]
theorem Dev.Keeps.tbu_eq {own : Nat → Bool} {d e : Dev} (h : Dev.Keeps own d e) : e.tbu = d.tbu := by rw [h.1]
theorem Dev.Keeps.net_eq {own : Nat → Bool} {d e : Dev} (h : Dev.Keeps own d e) : e.net = d.net := by rw [h.1]
theorem Dev.Keeps.stm_eq {own : Nat → Bool} {d e : Dev} (h : Dev.Keeps own d e) : e.stm = d.stm := by rw [h.1]
theorem Dev.Keeps.eas_eq {own : Nat → Bool} {d e : Dev} (h : Dev.Keeps own d e) : e.eas = d.eas := by rw [h.1]
theorem Dev.Keeps.phx_eq {own : Nat → Bool} {d e : Dev} (h : Dev.Keeps own d e) : e.phx = d.phx := by rw [h.1]
theorem Dev.Keeps.sfl_eq {own : Nat → Bool} {d e : Dev} (h : Dev.Keeps own d e) : e.sfl = d.sfl := by rw [h.1]
theorem Dev.Keeps.pub_eq {own : Nat → Bool} {d e : Dev} (h : Dev.Keeps own d e) : e.pub = d.pub := by rw [h.1]
theorem Dev.Keeps.brz_eq {own : Nat → Bool} {d e : Dev} (h : Dev.Keeps own d e) : e.brz = d.brz := by rw [h.1]
theorem Dev.Keeps.sht_eq {own : Nat → Bool} {d e : Dev} (h : Dev.Keeps own d e) : e.sht = d.sht := by rw [h.1]
theorem Dev.Keeps.swg_eq {own : Nat → Bool} {d e : Dev} (h : Dev.Keeps own d e) : e.swg = d.swg := by rw [h.1]
theorem Dev.Keeps.dns_eq {own : Nat → Bool} {d e : Dev} (h : Dev.Keeps own d e) : e.dns = d.dns := by rw [h.1]
theorem Dev.Keeps.flg_eq {own : Nat → Bool} {d e : Dev} (h : Dev.Keeps own d e) : e.flg = d.flg := by rw [h.1]

/-- Every register may be one's own. -/
theorem anyReg (off : Nat) : (fun _ : Nat => true) off = true ∨ reportReg off = true := Or.inl rfl

/-! ### `Dev.msix` -/

@[simp] theorem Dev.msix_op (v : Nat) (d : Dev) : (d.msix v).op = d.op := (Dev.keeps_msix (own := fun _ => true) v d).op_eq
@[simp] theorem Dev.msix_reason (v : Nat) (d : Dev) : (d.msix v).reason = d.reason := (Dev.keeps_msix (own := fun _ => true) v d).reason_eq
@[simp] theorem Dev.msix_deg (v : Nat) (d : Dev) : (d.msix v).deg = d.deg := (Dev.keeps_msix (own := fun _ => true) v d).deg_eq
@[simp] theorem Dev.msix_raw (v : Nat) (d : Dev) : (d.msix v).raw = d.raw := (Dev.keeps_msix (own := fun _ => true) v d).raw_eq
@[simp] theorem Dev.msix_stg (v : Nat) (d : Dev) : (d.msix v).stg = d.stg := (Dev.keeps_msix (own := fun _ => true) v d).stg_eq
@[simp] theorem Dev.msix_act (v : Nat) (d : Dev) : (d.msix v).act = d.act := (Dev.keeps_msix (own := fun _ => true) v d).act_eq
@[simp] theorem Dev.msix_latch (v : Nat) (d : Dev) : (d.msix v).latch = d.latch := (Dev.keeps_msix (own := fun _ => true) v d).latch_eq
@[simp] theorem Dev.msix_spq (v : Nat) (d : Dev) : (d.msix v).spq = d.spq := (Dev.keeps_msix (own := fun _ => true) v d).spq_eq
@[simp] theorem Dev.msix_key (v : Nat) (d : Dev) : (d.msix v).key = d.key := (Dev.keeps_msix (own := fun _ => true) v d).key_eq
@[simp] theorem Dev.msix_anl (v : Nat) (d : Dev) : (d.msix v).anl = d.anl := (Dev.keeps_msix (own := fun _ => true) v d).anl_eq
@[simp] theorem Dev.msix_pwr (v : Nat) (d : Dev) : (d.msix v).pwr = d.pwr := (Dev.keeps_msix (own := fun _ => true) v d).pwr_eq
@[simp] theorem Dev.msix_mgmt (v : Nat) (d : Dev) : (d.msix v).mgmt = d.mgmt := (Dev.keeps_msix (own := fun _ => true) v d).mgmt_eq
@[simp] theorem Dev.msix_tbu (v : Nat) (d : Dev) : (d.msix v).tbu = d.tbu := (Dev.keeps_msix (own := fun _ => true) v d).tbu_eq
@[simp] theorem Dev.msix_net (v : Nat) (d : Dev) : (d.msix v).net = d.net := (Dev.keeps_msix (own := fun _ => true) v d).net_eq
@[simp] theorem Dev.msix_stm (v : Nat) (d : Dev) : (d.msix v).stm = d.stm := (Dev.keeps_msix (own := fun _ => true) v d).stm_eq
@[simp] theorem Dev.msix_eas (v : Nat) (d : Dev) : (d.msix v).eas = d.eas := (Dev.keeps_msix (own := fun _ => true) v d).eas_eq
@[simp] theorem Dev.msix_phx (v : Nat) (d : Dev) : (d.msix v).phx = d.phx := (Dev.keeps_msix (own := fun _ => true) v d).phx_eq
@[simp] theorem Dev.msix_sfl (v : Nat) (d : Dev) : (d.msix v).sfl = d.sfl := (Dev.keeps_msix (own := fun _ => true) v d).sfl_eq
@[simp] theorem Dev.msix_pub (v : Nat) (d : Dev) : (d.msix v).pub = d.pub := (Dev.keeps_msix (own := fun _ => true) v d).pub_eq
@[simp] theorem Dev.msix_brz (v : Nat) (d : Dev) : (d.msix v).brz = d.brz := (Dev.keeps_msix (own := fun _ => true) v d).brz_eq
@[simp] theorem Dev.msix_sht (v : Nat) (d : Dev) : (d.msix v).sht = d.sht := (Dev.keeps_msix (own := fun _ => true) v d).sht_eq
@[simp] theorem Dev.msix_swg (v : Nat) (d : Dev) : (d.msix v).swg = d.swg := (Dev.keeps_msix (own := fun _ => true) v d).swg_eq
@[simp] theorem Dev.msix_dns (v : Nat) (d : Dev) : (d.msix v).dns = d.dns := (Dev.keeps_msix (own := fun _ => true) v d).dns_eq
@[simp] theorem Dev.msix_flg (v : Nat) (d : Dev) : (d.msix v).flg = d.flg := (Dev.keeps_msix (own := fun _ => true) v d).flg_eq

/-! ### `Dev.raise` -/

@[simp] theorem Dev.raise_op (off bit : Nat) (d : Dev) : (d.raise off bit).op = d.op := (Dev.keeps_raise (own := fun _ => true) off bit d (anyReg off)).op_eq
@[simp] theorem Dev.raise_reason (off bit : Nat) (d : Dev) : (d.raise off bit).reason = d.reason := (Dev.keeps_raise (own := fun _ => true) off bit d (anyReg off)).reason_eq
@[simp] theorem Dev.raise_deg (off bit : Nat) (d : Dev) : (d.raise off bit).deg = d.deg := (Dev.keeps_raise (own := fun _ => true) off bit d (anyReg off)).deg_eq
@[simp] theorem Dev.raise_raw (off bit : Nat) (d : Dev) : (d.raise off bit).raw = d.raw := (Dev.keeps_raise (own := fun _ => true) off bit d (anyReg off)).raw_eq
@[simp] theorem Dev.raise_stg (off bit : Nat) (d : Dev) : (d.raise off bit).stg = d.stg := (Dev.keeps_raise (own := fun _ => true) off bit d (anyReg off)).stg_eq
@[simp] theorem Dev.raise_act (off bit : Nat) (d : Dev) : (d.raise off bit).act = d.act := (Dev.keeps_raise (own := fun _ => true) off bit d (anyReg off)).act_eq
@[simp] theorem Dev.raise_latch (off bit : Nat) (d : Dev) : (d.raise off bit).latch = d.latch := (Dev.keeps_raise (own := fun _ => true) off bit d (anyReg off)).latch_eq
@[simp] theorem Dev.raise_spq (off bit : Nat) (d : Dev) : (d.raise off bit).spq = d.spq := (Dev.keeps_raise (own := fun _ => true) off bit d (anyReg off)).spq_eq
@[simp] theorem Dev.raise_key (off bit : Nat) (d : Dev) : (d.raise off bit).key = d.key := (Dev.keeps_raise (own := fun _ => true) off bit d (anyReg off)).key_eq
@[simp] theorem Dev.raise_anl (off bit : Nat) (d : Dev) : (d.raise off bit).anl = d.anl := (Dev.keeps_raise (own := fun _ => true) off bit d (anyReg off)).anl_eq
@[simp] theorem Dev.raise_pwr (off bit : Nat) (d : Dev) : (d.raise off bit).pwr = d.pwr := (Dev.keeps_raise (own := fun _ => true) off bit d (anyReg off)).pwr_eq
@[simp] theorem Dev.raise_mgmt (off bit : Nat) (d : Dev) : (d.raise off bit).mgmt = d.mgmt := (Dev.keeps_raise (own := fun _ => true) off bit d (anyReg off)).mgmt_eq
@[simp] theorem Dev.raise_tbu (off bit : Nat) (d : Dev) : (d.raise off bit).tbu = d.tbu := (Dev.keeps_raise (own := fun _ => true) off bit d (anyReg off)).tbu_eq
@[simp] theorem Dev.raise_net (off bit : Nat) (d : Dev) : (d.raise off bit).net = d.net := (Dev.keeps_raise (own := fun _ => true) off bit d (anyReg off)).net_eq
@[simp] theorem Dev.raise_stm (off bit : Nat) (d : Dev) : (d.raise off bit).stm = d.stm := (Dev.keeps_raise (own := fun _ => true) off bit d (anyReg off)).stm_eq
@[simp] theorem Dev.raise_eas (off bit : Nat) (d : Dev) : (d.raise off bit).eas = d.eas := (Dev.keeps_raise (own := fun _ => true) off bit d (anyReg off)).eas_eq
@[simp] theorem Dev.raise_phx (off bit : Nat) (d : Dev) : (d.raise off bit).phx = d.phx := (Dev.keeps_raise (own := fun _ => true) off bit d (anyReg off)).phx_eq
@[simp] theorem Dev.raise_sfl (off bit : Nat) (d : Dev) : (d.raise off bit).sfl = d.sfl := (Dev.keeps_raise (own := fun _ => true) off bit d (anyReg off)).sfl_eq
@[simp] theorem Dev.raise_pub (off bit : Nat) (d : Dev) : (d.raise off bit).pub = d.pub := (Dev.keeps_raise (own := fun _ => true) off bit d (anyReg off)).pub_eq
@[simp] theorem Dev.raise_brz (off bit : Nat) (d : Dev) : (d.raise off bit).brz = d.brz := (Dev.keeps_raise (own := fun _ => true) off bit d (anyReg off)).brz_eq
@[simp] theorem Dev.raise_sht (off bit : Nat) (d : Dev) : (d.raise off bit).sht = d.sht := (Dev.keeps_raise (own := fun _ => true) off bit d (anyReg off)).sht_eq
@[simp] theorem Dev.raise_swg (off bit : Nat) (d : Dev) : (d.raise off bit).swg = d.swg := (Dev.keeps_raise (own := fun _ => true) off bit d (anyReg off)).swg_eq
@[simp] theorem Dev.raise_dns (off bit : Nat) (d : Dev) : (d.raise off bit).dns = d.dns := (Dev.keeps_raise (own := fun _ => true) off bit d (anyReg off)).dns_eq
@[simp] theorem Dev.raise_flg (off bit : Nat) (d : Dev) : (d.raise off bit).flg = d.flg := (Dev.keeps_raise (own := fun _ => true) off bit d (anyReg off)).flg_eq

/-! ### `Dev.bump` -/

@[simp] theorem Dev.bump_op (off n : Nat) (d : Dev) : (d.bump off n).op = d.op := (Dev.keeps_bump (own := fun _ => true) off n d (anyReg off)).op_eq
@[simp] theorem Dev.bump_reason (off n : Nat) (d : Dev) : (d.bump off n).reason = d.reason := (Dev.keeps_bump (own := fun _ => true) off n d (anyReg off)).reason_eq
@[simp] theorem Dev.bump_deg (off n : Nat) (d : Dev) : (d.bump off n).deg = d.deg := (Dev.keeps_bump (own := fun _ => true) off n d (anyReg off)).deg_eq
@[simp] theorem Dev.bump_raw (off n : Nat) (d : Dev) : (d.bump off n).raw = d.raw := (Dev.keeps_bump (own := fun _ => true) off n d (anyReg off)).raw_eq
@[simp] theorem Dev.bump_stg (off n : Nat) (d : Dev) : (d.bump off n).stg = d.stg := (Dev.keeps_bump (own := fun _ => true) off n d (anyReg off)).stg_eq
@[simp] theorem Dev.bump_act (off n : Nat) (d : Dev) : (d.bump off n).act = d.act := (Dev.keeps_bump (own := fun _ => true) off n d (anyReg off)).act_eq
@[simp] theorem Dev.bump_latch (off n : Nat) (d : Dev) : (d.bump off n).latch = d.latch := (Dev.keeps_bump (own := fun _ => true) off n d (anyReg off)).latch_eq
@[simp] theorem Dev.bump_spq (off n : Nat) (d : Dev) : (d.bump off n).spq = d.spq := (Dev.keeps_bump (own := fun _ => true) off n d (anyReg off)).spq_eq
@[simp] theorem Dev.bump_key (off n : Nat) (d : Dev) : (d.bump off n).key = d.key := (Dev.keeps_bump (own := fun _ => true) off n d (anyReg off)).key_eq
@[simp] theorem Dev.bump_anl (off n : Nat) (d : Dev) : (d.bump off n).anl = d.anl := (Dev.keeps_bump (own := fun _ => true) off n d (anyReg off)).anl_eq
@[simp] theorem Dev.bump_pwr (off n : Nat) (d : Dev) : (d.bump off n).pwr = d.pwr := (Dev.keeps_bump (own := fun _ => true) off n d (anyReg off)).pwr_eq
@[simp] theorem Dev.bump_mgmt (off n : Nat) (d : Dev) : (d.bump off n).mgmt = d.mgmt := (Dev.keeps_bump (own := fun _ => true) off n d (anyReg off)).mgmt_eq
@[simp] theorem Dev.bump_tbu (off n : Nat) (d : Dev) : (d.bump off n).tbu = d.tbu := (Dev.keeps_bump (own := fun _ => true) off n d (anyReg off)).tbu_eq
@[simp] theorem Dev.bump_net (off n : Nat) (d : Dev) : (d.bump off n).net = d.net := (Dev.keeps_bump (own := fun _ => true) off n d (anyReg off)).net_eq
@[simp] theorem Dev.bump_stm (off n : Nat) (d : Dev) : (d.bump off n).stm = d.stm := (Dev.keeps_bump (own := fun _ => true) off n d (anyReg off)).stm_eq
@[simp] theorem Dev.bump_eas (off n : Nat) (d : Dev) : (d.bump off n).eas = d.eas := (Dev.keeps_bump (own := fun _ => true) off n d (anyReg off)).eas_eq
@[simp] theorem Dev.bump_phx (off n : Nat) (d : Dev) : (d.bump off n).phx = d.phx := (Dev.keeps_bump (own := fun _ => true) off n d (anyReg off)).phx_eq
@[simp] theorem Dev.bump_sfl (off n : Nat) (d : Dev) : (d.bump off n).sfl = d.sfl := (Dev.keeps_bump (own := fun _ => true) off n d (anyReg off)).sfl_eq
@[simp] theorem Dev.bump_pub (off n : Nat) (d : Dev) : (d.bump off n).pub = d.pub := (Dev.keeps_bump (own := fun _ => true) off n d (anyReg off)).pub_eq
@[simp] theorem Dev.bump_brz (off n : Nat) (d : Dev) : (d.bump off n).brz = d.brz := (Dev.keeps_bump (own := fun _ => true) off n d (anyReg off)).brz_eq
@[simp] theorem Dev.bump_sht (off n : Nat) (d : Dev) : (d.bump off n).sht = d.sht := (Dev.keeps_bump (own := fun _ => true) off n d (anyReg off)).sht_eq
@[simp] theorem Dev.bump_swg (off n : Nat) (d : Dev) : (d.bump off n).swg = d.swg := (Dev.keeps_bump (own := fun _ => true) off n d (anyReg off)).swg_eq
@[simp] theorem Dev.bump_dns (off n : Nat) (d : Dev) : (d.bump off n).dns = d.dns := (Dev.keeps_bump (own := fun _ => true) off n d (anyReg off)).dns_eq
@[simp] theorem Dev.bump_flg (off n : Nat) (d : Dev) : (d.bump off n).flg = d.flg := (Dev.keeps_bump (own := fun _ => true) off n d (anyReg off)).flg_eq

/-! ### `Dev.wrapAdd` -/

@[simp] theorem Dev.wrapAdd_op (off n : Nat) (d : Dev) : (d.wrapAdd off n).op = d.op := (Dev.keeps_wrapAdd (own := fun _ => true) off n d (anyReg off)).op_eq
@[simp] theorem Dev.wrapAdd_reason (off n : Nat) (d : Dev) : (d.wrapAdd off n).reason = d.reason := (Dev.keeps_wrapAdd (own := fun _ => true) off n d (anyReg off)).reason_eq
@[simp] theorem Dev.wrapAdd_deg (off n : Nat) (d : Dev) : (d.wrapAdd off n).deg = d.deg := (Dev.keeps_wrapAdd (own := fun _ => true) off n d (anyReg off)).deg_eq
@[simp] theorem Dev.wrapAdd_raw (off n : Nat) (d : Dev) : (d.wrapAdd off n).raw = d.raw := (Dev.keeps_wrapAdd (own := fun _ => true) off n d (anyReg off)).raw_eq
@[simp] theorem Dev.wrapAdd_stg (off n : Nat) (d : Dev) : (d.wrapAdd off n).stg = d.stg := (Dev.keeps_wrapAdd (own := fun _ => true) off n d (anyReg off)).stg_eq
@[simp] theorem Dev.wrapAdd_act (off n : Nat) (d : Dev) : (d.wrapAdd off n).act = d.act := (Dev.keeps_wrapAdd (own := fun _ => true) off n d (anyReg off)).act_eq
@[simp] theorem Dev.wrapAdd_latch (off n : Nat) (d : Dev) : (d.wrapAdd off n).latch = d.latch := (Dev.keeps_wrapAdd (own := fun _ => true) off n d (anyReg off)).latch_eq
@[simp] theorem Dev.wrapAdd_spq (off n : Nat) (d : Dev) : (d.wrapAdd off n).spq = d.spq := (Dev.keeps_wrapAdd (own := fun _ => true) off n d (anyReg off)).spq_eq
@[simp] theorem Dev.wrapAdd_key (off n : Nat) (d : Dev) : (d.wrapAdd off n).key = d.key := (Dev.keeps_wrapAdd (own := fun _ => true) off n d (anyReg off)).key_eq
@[simp] theorem Dev.wrapAdd_anl (off n : Nat) (d : Dev) : (d.wrapAdd off n).anl = d.anl := (Dev.keeps_wrapAdd (own := fun _ => true) off n d (anyReg off)).anl_eq
@[simp] theorem Dev.wrapAdd_pwr (off n : Nat) (d : Dev) : (d.wrapAdd off n).pwr = d.pwr := (Dev.keeps_wrapAdd (own := fun _ => true) off n d (anyReg off)).pwr_eq
@[simp] theorem Dev.wrapAdd_mgmt (off n : Nat) (d : Dev) : (d.wrapAdd off n).mgmt = d.mgmt := (Dev.keeps_wrapAdd (own := fun _ => true) off n d (anyReg off)).mgmt_eq
@[simp] theorem Dev.wrapAdd_tbu (off n : Nat) (d : Dev) : (d.wrapAdd off n).tbu = d.tbu := (Dev.keeps_wrapAdd (own := fun _ => true) off n d (anyReg off)).tbu_eq
@[simp] theorem Dev.wrapAdd_net (off n : Nat) (d : Dev) : (d.wrapAdd off n).net = d.net := (Dev.keeps_wrapAdd (own := fun _ => true) off n d (anyReg off)).net_eq
@[simp] theorem Dev.wrapAdd_stm (off n : Nat) (d : Dev) : (d.wrapAdd off n).stm = d.stm := (Dev.keeps_wrapAdd (own := fun _ => true) off n d (anyReg off)).stm_eq
@[simp] theorem Dev.wrapAdd_eas (off n : Nat) (d : Dev) : (d.wrapAdd off n).eas = d.eas := (Dev.keeps_wrapAdd (own := fun _ => true) off n d (anyReg off)).eas_eq
@[simp] theorem Dev.wrapAdd_phx (off n : Nat) (d : Dev) : (d.wrapAdd off n).phx = d.phx := (Dev.keeps_wrapAdd (own := fun _ => true) off n d (anyReg off)).phx_eq
@[simp] theorem Dev.wrapAdd_sfl (off n : Nat) (d : Dev) : (d.wrapAdd off n).sfl = d.sfl := (Dev.keeps_wrapAdd (own := fun _ => true) off n d (anyReg off)).sfl_eq
@[simp] theorem Dev.wrapAdd_pub (off n : Nat) (d : Dev) : (d.wrapAdd off n).pub = d.pub := (Dev.keeps_wrapAdd (own := fun _ => true) off n d (anyReg off)).pub_eq
@[simp] theorem Dev.wrapAdd_brz (off n : Nat) (d : Dev) : (d.wrapAdd off n).brz = d.brz := (Dev.keeps_wrapAdd (own := fun _ => true) off n d (anyReg off)).brz_eq
@[simp] theorem Dev.wrapAdd_sht (off n : Nat) (d : Dev) : (d.wrapAdd off n).sht = d.sht := (Dev.keeps_wrapAdd (own := fun _ => true) off n d (anyReg off)).sht_eq
@[simp] theorem Dev.wrapAdd_swg (off n : Nat) (d : Dev) : (d.wrapAdd off n).swg = d.swg := (Dev.keeps_wrapAdd (own := fun _ => true) off n d (anyReg off)).swg_eq
@[simp] theorem Dev.wrapAdd_dns (off n : Nat) (d : Dev) : (d.wrapAdd off n).dns = d.dns := (Dev.keeps_wrapAdd (own := fun _ => true) off n d (anyReg off)).dns_eq
@[simp] theorem Dev.wrapAdd_flg (off n : Nat) (d : Dev) : (d.wrapAdd off n).flg = d.flg := (Dev.keeps_wrapAdd (own := fun _ => true) off n d (anyReg off)).flg_eq

/-! ### `Dev.setField` -/

@[simp] theorem Dev.setField_op (off lo len v : Nat) (d : Dev) : (d.setField off lo len v).op = d.op := (Dev.keeps_setField (own := fun _ => true) off lo len v d (anyReg off)).op_eq
@[simp] theorem Dev.setField_reason (off lo len v : Nat) (d : Dev) : (d.setField off lo len v).reason = d.reason := (Dev.keeps_setField (own := fun _ => true) off lo len v d (anyReg off)).reason_eq
@[simp] theorem Dev.setField_deg (off lo len v : Nat) (d : Dev) : (d.setField off lo len v).deg = d.deg := (Dev.keeps_setField (own := fun _ => true) off lo len v d (anyReg off)).deg_eq
@[simp] theorem Dev.setField_raw (off lo len v : Nat) (d : Dev) : (d.setField off lo len v).raw = d.raw := (Dev.keeps_setField (own := fun _ => true) off lo len v d (anyReg off)).raw_eq
@[simp] theorem Dev.setField_stg (off lo len v : Nat) (d : Dev) : (d.setField off lo len v).stg = d.stg := (Dev.keeps_setField (own := fun _ => true) off lo len v d (anyReg off)).stg_eq
@[simp] theorem Dev.setField_act (off lo len v : Nat) (d : Dev) : (d.setField off lo len v).act = d.act := (Dev.keeps_setField (own := fun _ => true) off lo len v d (anyReg off)).act_eq
@[simp] theorem Dev.setField_latch (off lo len v : Nat) (d : Dev) : (d.setField off lo len v).latch = d.latch := (Dev.keeps_setField (own := fun _ => true) off lo len v d (anyReg off)).latch_eq
@[simp] theorem Dev.setField_spq (off lo len v : Nat) (d : Dev) : (d.setField off lo len v).spq = d.spq := (Dev.keeps_setField (own := fun _ => true) off lo len v d (anyReg off)).spq_eq
@[simp] theorem Dev.setField_key (off lo len v : Nat) (d : Dev) : (d.setField off lo len v).key = d.key := (Dev.keeps_setField (own := fun _ => true) off lo len v d (anyReg off)).key_eq
@[simp] theorem Dev.setField_anl (off lo len v : Nat) (d : Dev) : (d.setField off lo len v).anl = d.anl := (Dev.keeps_setField (own := fun _ => true) off lo len v d (anyReg off)).anl_eq
@[simp] theorem Dev.setField_pwr (off lo len v : Nat) (d : Dev) : (d.setField off lo len v).pwr = d.pwr := (Dev.keeps_setField (own := fun _ => true) off lo len v d (anyReg off)).pwr_eq
@[simp] theorem Dev.setField_mgmt (off lo len v : Nat) (d : Dev) : (d.setField off lo len v).mgmt = d.mgmt := (Dev.keeps_setField (own := fun _ => true) off lo len v d (anyReg off)).mgmt_eq
@[simp] theorem Dev.setField_tbu (off lo len v : Nat) (d : Dev) : (d.setField off lo len v).tbu = d.tbu := (Dev.keeps_setField (own := fun _ => true) off lo len v d (anyReg off)).tbu_eq
@[simp] theorem Dev.setField_net (off lo len v : Nat) (d : Dev) : (d.setField off lo len v).net = d.net := (Dev.keeps_setField (own := fun _ => true) off lo len v d (anyReg off)).net_eq
@[simp] theorem Dev.setField_stm (off lo len v : Nat) (d : Dev) : (d.setField off lo len v).stm = d.stm := (Dev.keeps_setField (own := fun _ => true) off lo len v d (anyReg off)).stm_eq
@[simp] theorem Dev.setField_eas (off lo len v : Nat) (d : Dev) : (d.setField off lo len v).eas = d.eas := (Dev.keeps_setField (own := fun _ => true) off lo len v d (anyReg off)).eas_eq
@[simp] theorem Dev.setField_phx (off lo len v : Nat) (d : Dev) : (d.setField off lo len v).phx = d.phx := (Dev.keeps_setField (own := fun _ => true) off lo len v d (anyReg off)).phx_eq
@[simp] theorem Dev.setField_sfl (off lo len v : Nat) (d : Dev) : (d.setField off lo len v).sfl = d.sfl := (Dev.keeps_setField (own := fun _ => true) off lo len v d (anyReg off)).sfl_eq
@[simp] theorem Dev.setField_pub (off lo len v : Nat) (d : Dev) : (d.setField off lo len v).pub = d.pub := (Dev.keeps_setField (own := fun _ => true) off lo len v d (anyReg off)).pub_eq
@[simp] theorem Dev.setField_brz (off lo len v : Nat) (d : Dev) : (d.setField off lo len v).brz = d.brz := (Dev.keeps_setField (own := fun _ => true) off lo len v d (anyReg off)).brz_eq
@[simp] theorem Dev.setField_sht (off lo len v : Nat) (d : Dev) : (d.setField off lo len v).sht = d.sht := (Dev.keeps_setField (own := fun _ => true) off lo len v d (anyReg off)).sht_eq
@[simp] theorem Dev.setField_swg (off lo len v : Nat) (d : Dev) : (d.setField off lo len v).swg = d.swg := (Dev.keeps_setField (own := fun _ => true) off lo len v d (anyReg off)).swg_eq
@[simp] theorem Dev.setField_dns (off lo len v : Nat) (d : Dev) : (d.setField off lo len v).dns = d.dns := (Dev.keeps_setField (own := fun _ => true) off lo len v d (anyReg off)).dns_eq
@[simp] theorem Dev.setField_flg (off lo len v : Nat) (d : Dev) : (d.setField off lo len v).flg = d.flg := (Dev.keeps_setField (own := fun _ => true) off lo len v d (anyReg off)).flg_eq

/-! ### `Dev.doorbell` -/

@[simp] theorem Dev.doorbell_op (off : Nat) (w : Word) (d : Dev) : (d.doorbell off w).op = d.op := (Dev.keeps_doorbell (own := fun _ => true) off w d).op_eq
@[simp] theorem Dev.doorbell_reason (off : Nat) (w : Word) (d : Dev) : (d.doorbell off w).reason = d.reason := (Dev.keeps_doorbell (own := fun _ => true) off w d).reason_eq
@[simp] theorem Dev.doorbell_deg (off : Nat) (w : Word) (d : Dev) : (d.doorbell off w).deg = d.deg := (Dev.keeps_doorbell (own := fun _ => true) off w d).deg_eq
@[simp] theorem Dev.doorbell_raw (off : Nat) (w : Word) (d : Dev) : (d.doorbell off w).raw = d.raw := (Dev.keeps_doorbell (own := fun _ => true) off w d).raw_eq
@[simp] theorem Dev.doorbell_stg (off : Nat) (w : Word) (d : Dev) : (d.doorbell off w).stg = d.stg := (Dev.keeps_doorbell (own := fun _ => true) off w d).stg_eq
@[simp] theorem Dev.doorbell_act (off : Nat) (w : Word) (d : Dev) : (d.doorbell off w).act = d.act := (Dev.keeps_doorbell (own := fun _ => true) off w d).act_eq
@[simp] theorem Dev.doorbell_latch (off : Nat) (w : Word) (d : Dev) : (d.doorbell off w).latch = d.latch := (Dev.keeps_doorbell (own := fun _ => true) off w d).latch_eq
@[simp] theorem Dev.doorbell_spq (off : Nat) (w : Word) (d : Dev) : (d.doorbell off w).spq = d.spq := (Dev.keeps_doorbell (own := fun _ => true) off w d).spq_eq
@[simp] theorem Dev.doorbell_key (off : Nat) (w : Word) (d : Dev) : (d.doorbell off w).key = d.key := (Dev.keeps_doorbell (own := fun _ => true) off w d).key_eq
@[simp] theorem Dev.doorbell_anl (off : Nat) (w : Word) (d : Dev) : (d.doorbell off w).anl = d.anl := (Dev.keeps_doorbell (own := fun _ => true) off w d).anl_eq
@[simp] theorem Dev.doorbell_pwr (off : Nat) (w : Word) (d : Dev) : (d.doorbell off w).pwr = d.pwr := (Dev.keeps_doorbell (own := fun _ => true) off w d).pwr_eq
@[simp] theorem Dev.doorbell_mgmt (off : Nat) (w : Word) (d : Dev) : (d.doorbell off w).mgmt = d.mgmt := (Dev.keeps_doorbell (own := fun _ => true) off w d).mgmt_eq
@[simp] theorem Dev.doorbell_tbu (off : Nat) (w : Word) (d : Dev) : (d.doorbell off w).tbu = d.tbu := (Dev.keeps_doorbell (own := fun _ => true) off w d).tbu_eq
@[simp] theorem Dev.doorbell_net (off : Nat) (w : Word) (d : Dev) : (d.doorbell off w).net = d.net := (Dev.keeps_doorbell (own := fun _ => true) off w d).net_eq
@[simp] theorem Dev.doorbell_stm (off : Nat) (w : Word) (d : Dev) : (d.doorbell off w).stm = d.stm := (Dev.keeps_doorbell (own := fun _ => true) off w d).stm_eq
@[simp] theorem Dev.doorbell_eas (off : Nat) (w : Word) (d : Dev) : (d.doorbell off w).eas = d.eas := (Dev.keeps_doorbell (own := fun _ => true) off w d).eas_eq
@[simp] theorem Dev.doorbell_phx (off : Nat) (w : Word) (d : Dev) : (d.doorbell off w).phx = d.phx := (Dev.keeps_doorbell (own := fun _ => true) off w d).phx_eq
@[simp] theorem Dev.doorbell_sfl (off : Nat) (w : Word) (d : Dev) : (d.doorbell off w).sfl = d.sfl := (Dev.keeps_doorbell (own := fun _ => true) off w d).sfl_eq
@[simp] theorem Dev.doorbell_pub (off : Nat) (w : Word) (d : Dev) : (d.doorbell off w).pub = d.pub := (Dev.keeps_doorbell (own := fun _ => true) off w d).pub_eq
@[simp] theorem Dev.doorbell_brz (off : Nat) (w : Word) (d : Dev) : (d.doorbell off w).brz = d.brz := (Dev.keeps_doorbell (own := fun _ => true) off w d).brz_eq
@[simp] theorem Dev.doorbell_sht (off : Nat) (w : Word) (d : Dev) : (d.doorbell off w).sht = d.sht := (Dev.keeps_doorbell (own := fun _ => true) off w d).sht_eq
@[simp] theorem Dev.doorbell_swg (off : Nat) (w : Word) (d : Dev) : (d.doorbell off w).swg = d.swg := (Dev.keeps_doorbell (own := fun _ => true) off w d).swg_eq
@[simp] theorem Dev.doorbell_dns (off : Nat) (w : Word) (d : Dev) : (d.doorbell off w).dns = d.dns := (Dev.keeps_doorbell (own := fun _ => true) off w d).dns_eq
@[simp] theorem Dev.doorbell_flg (off : Nat) (w : Word) (d : Dev) : (d.doorbell off w).flg = d.flg := (Dev.keeps_doorbell (own := fun _ => true) off w d).flg_eq

/-! ### `Dev.post` -/

@[simp] theorem Dev.post_op (code : Nat) (p : List Word) (d : Dev) : (d.post code p).op = d.op := (Dev.keeps_post (own := fun _ => true) code p d).op_eq
@[simp] theorem Dev.post_reason (code : Nat) (p : List Word) (d : Dev) : (d.post code p).reason = d.reason := (Dev.keeps_post (own := fun _ => true) code p d).reason_eq
@[simp] theorem Dev.post_deg (code : Nat) (p : List Word) (d : Dev) : (d.post code p).deg = d.deg := (Dev.keeps_post (own := fun _ => true) code p d).deg_eq
@[simp] theorem Dev.post_raw (code : Nat) (p : List Word) (d : Dev) : (d.post code p).raw = d.raw := (Dev.keeps_post (own := fun _ => true) code p d).raw_eq
@[simp] theorem Dev.post_stg (code : Nat) (p : List Word) (d : Dev) : (d.post code p).stg = d.stg := (Dev.keeps_post (own := fun _ => true) code p d).stg_eq
@[simp] theorem Dev.post_act (code : Nat) (p : List Word) (d : Dev) : (d.post code p).act = d.act := (Dev.keeps_post (own := fun _ => true) code p d).act_eq
@[simp] theorem Dev.post_latch (code : Nat) (p : List Word) (d : Dev) : (d.post code p).latch = d.latch := (Dev.keeps_post (own := fun _ => true) code p d).latch_eq
@[simp] theorem Dev.post_spq (code : Nat) (p : List Word) (d : Dev) : (d.post code p).spq = d.spq := (Dev.keeps_post (own := fun _ => true) code p d).spq_eq
@[simp] theorem Dev.post_key (code : Nat) (p : List Word) (d : Dev) : (d.post code p).key = d.key := (Dev.keeps_post (own := fun _ => true) code p d).key_eq
@[simp] theorem Dev.post_anl (code : Nat) (p : List Word) (d : Dev) : (d.post code p).anl = d.anl := (Dev.keeps_post (own := fun _ => true) code p d).anl_eq
@[simp] theorem Dev.post_pwr (code : Nat) (p : List Word) (d : Dev) : (d.post code p).pwr = d.pwr := (Dev.keeps_post (own := fun _ => true) code p d).pwr_eq
@[simp] theorem Dev.post_mgmt (code : Nat) (p : List Word) (d : Dev) : (d.post code p).mgmt = d.mgmt := (Dev.keeps_post (own := fun _ => true) code p d).mgmt_eq
@[simp] theorem Dev.post_tbu (code : Nat) (p : List Word) (d : Dev) : (d.post code p).tbu = d.tbu := (Dev.keeps_post (own := fun _ => true) code p d).tbu_eq
@[simp] theorem Dev.post_net (code : Nat) (p : List Word) (d : Dev) : (d.post code p).net = d.net := (Dev.keeps_post (own := fun _ => true) code p d).net_eq
@[simp] theorem Dev.post_stm (code : Nat) (p : List Word) (d : Dev) : (d.post code p).stm = d.stm := (Dev.keeps_post (own := fun _ => true) code p d).stm_eq
@[simp] theorem Dev.post_eas (code : Nat) (p : List Word) (d : Dev) : (d.post code p).eas = d.eas := (Dev.keeps_post (own := fun _ => true) code p d).eas_eq
@[simp] theorem Dev.post_phx (code : Nat) (p : List Word) (d : Dev) : (d.post code p).phx = d.phx := (Dev.keeps_post (own := fun _ => true) code p d).phx_eq
@[simp] theorem Dev.post_sfl (code : Nat) (p : List Word) (d : Dev) : (d.post code p).sfl = d.sfl := (Dev.keeps_post (own := fun _ => true) code p d).sfl_eq
@[simp] theorem Dev.post_pub (code : Nat) (p : List Word) (d : Dev) : (d.post code p).pub = d.pub := (Dev.keeps_post (own := fun _ => true) code p d).pub_eq
@[simp] theorem Dev.post_brz (code : Nat) (p : List Word) (d : Dev) : (d.post code p).brz = d.brz := (Dev.keeps_post (own := fun _ => true) code p d).brz_eq
@[simp] theorem Dev.post_sht (code : Nat) (p : List Word) (d : Dev) : (d.post code p).sht = d.sht := (Dev.keeps_post (own := fun _ => true) code p d).sht_eq
@[simp] theorem Dev.post_swg (code : Nat) (p : List Word) (d : Dev) : (d.post code p).swg = d.swg := (Dev.keeps_post (own := fun _ => true) code p d).swg_eq
@[simp] theorem Dev.post_dns (code : Nat) (p : List Word) (d : Dev) : (d.post code p).dns = d.dns := (Dev.keeps_post (own := fun _ => true) code p d).dns_eq
@[simp] theorem Dev.post_flg (code : Nat) (p : List Word) (d : Dev) : (d.post code p).flg = d.flg := (Dev.keeps_post (own := fun _ => true) code p d).flg_eq

/-! ### `Dev.completeErr` -/

@[simp] theorem Dev.completeErr_op (h : CmdHdr) (code status : Nat) (m : Bool) (p : List Word) (d : Dev) : (d.completeErr h code status m p).op = d.op := (Dev.keeps_completeErr (own := fun _ => true) h code status m p d).op_eq
@[simp] theorem Dev.completeErr_reason (h : CmdHdr) (code status : Nat) (m : Bool) (p : List Word) (d : Dev) : (d.completeErr h code status m p).reason = d.reason := (Dev.keeps_completeErr (own := fun _ => true) h code status m p d).reason_eq
@[simp] theorem Dev.completeErr_deg (h : CmdHdr) (code status : Nat) (m : Bool) (p : List Word) (d : Dev) : (d.completeErr h code status m p).deg = d.deg := (Dev.keeps_completeErr (own := fun _ => true) h code status m p d).deg_eq
@[simp] theorem Dev.completeErr_raw (h : CmdHdr) (code status : Nat) (m : Bool) (p : List Word) (d : Dev) : (d.completeErr h code status m p).raw = d.raw := (Dev.keeps_completeErr (own := fun _ => true) h code status m p d).raw_eq
@[simp] theorem Dev.completeErr_stg (h : CmdHdr) (code status : Nat) (m : Bool) (p : List Word) (d : Dev) : (d.completeErr h code status m p).stg = d.stg := (Dev.keeps_completeErr (own := fun _ => true) h code status m p d).stg_eq
@[simp] theorem Dev.completeErr_act (h : CmdHdr) (code status : Nat) (m : Bool) (p : List Word) (d : Dev) : (d.completeErr h code status m p).act = d.act := (Dev.keeps_completeErr (own := fun _ => true) h code status m p d).act_eq
@[simp] theorem Dev.completeErr_latch (h : CmdHdr) (code status : Nat) (m : Bool) (p : List Word) (d : Dev) : (d.completeErr h code status m p).latch = d.latch := (Dev.keeps_completeErr (own := fun _ => true) h code status m p d).latch_eq
@[simp] theorem Dev.completeErr_spq (h : CmdHdr) (code status : Nat) (m : Bool) (p : List Word) (d : Dev) : (d.completeErr h code status m p).spq = d.spq := (Dev.keeps_completeErr (own := fun _ => true) h code status m p d).spq_eq
@[simp] theorem Dev.completeErr_key (h : CmdHdr) (code status : Nat) (m : Bool) (p : List Word) (d : Dev) : (d.completeErr h code status m p).key = d.key := (Dev.keeps_completeErr (own := fun _ => true) h code status m p d).key_eq
@[simp] theorem Dev.completeErr_anl (h : CmdHdr) (code status : Nat) (m : Bool) (p : List Word) (d : Dev) : (d.completeErr h code status m p).anl = d.anl := (Dev.keeps_completeErr (own := fun _ => true) h code status m p d).anl_eq
@[simp] theorem Dev.completeErr_pwr (h : CmdHdr) (code status : Nat) (m : Bool) (p : List Word) (d : Dev) : (d.completeErr h code status m p).pwr = d.pwr := (Dev.keeps_completeErr (own := fun _ => true) h code status m p d).pwr_eq
@[simp] theorem Dev.completeErr_mgmt (h : CmdHdr) (code status : Nat) (m : Bool) (p : List Word) (d : Dev) : (d.completeErr h code status m p).mgmt = d.mgmt := (Dev.keeps_completeErr (own := fun _ => true) h code status m p d).mgmt_eq
@[simp] theorem Dev.completeErr_tbu (h : CmdHdr) (code status : Nat) (m : Bool) (p : List Word) (d : Dev) : (d.completeErr h code status m p).tbu = d.tbu := (Dev.keeps_completeErr (own := fun _ => true) h code status m p d).tbu_eq
@[simp] theorem Dev.completeErr_net (h : CmdHdr) (code status : Nat) (m : Bool) (p : List Word) (d : Dev) : (d.completeErr h code status m p).net = d.net := (Dev.keeps_completeErr (own := fun _ => true) h code status m p d).net_eq
@[simp] theorem Dev.completeErr_stm (h : CmdHdr) (code status : Nat) (m : Bool) (p : List Word) (d : Dev) : (d.completeErr h code status m p).stm = d.stm := (Dev.keeps_completeErr (own := fun _ => true) h code status m p d).stm_eq
@[simp] theorem Dev.completeErr_eas (h : CmdHdr) (code status : Nat) (m : Bool) (p : List Word) (d : Dev) : (d.completeErr h code status m p).eas = d.eas := (Dev.keeps_completeErr (own := fun _ => true) h code status m p d).eas_eq
@[simp] theorem Dev.completeErr_phx (h : CmdHdr) (code status : Nat) (m : Bool) (p : List Word) (d : Dev) : (d.completeErr h code status m p).phx = d.phx := (Dev.keeps_completeErr (own := fun _ => true) h code status m p d).phx_eq
@[simp] theorem Dev.completeErr_sfl (h : CmdHdr) (code status : Nat) (m : Bool) (p : List Word) (d : Dev) : (d.completeErr h code status m p).sfl = d.sfl := (Dev.keeps_completeErr (own := fun _ => true) h code status m p d).sfl_eq
@[simp] theorem Dev.completeErr_pub (h : CmdHdr) (code status : Nat) (m : Bool) (p : List Word) (d : Dev) : (d.completeErr h code status m p).pub = d.pub := (Dev.keeps_completeErr (own := fun _ => true) h code status m p d).pub_eq
@[simp] theorem Dev.completeErr_brz (h : CmdHdr) (code status : Nat) (m : Bool) (p : List Word) (d : Dev) : (d.completeErr h code status m p).brz = d.brz := (Dev.keeps_completeErr (own := fun _ => true) h code status m p d).brz_eq
@[simp] theorem Dev.completeErr_sht (h : CmdHdr) (code status : Nat) (m : Bool) (p : List Word) (d : Dev) : (d.completeErr h code status m p).sht = d.sht := (Dev.keeps_completeErr (own := fun _ => true) h code status m p d).sht_eq
@[simp] theorem Dev.completeErr_swg (h : CmdHdr) (code status : Nat) (m : Bool) (p : List Word) (d : Dev) : (d.completeErr h code status m p).swg = d.swg := (Dev.keeps_completeErr (own := fun _ => true) h code status m p d).swg_eq
@[simp] theorem Dev.completeErr_dns (h : CmdHdr) (code status : Nat) (m : Bool) (p : List Word) (d : Dev) : (d.completeErr h code status m p).dns = d.dns := (Dev.keeps_completeErr (own := fun _ => true) h code status m p d).dns_eq
@[simp] theorem Dev.completeErr_flg (h : CmdHdr) (code status : Nat) (m : Bool) (p : List Word) (d : Dev) : (d.completeErr h code status m p).flg = d.flg := (Dev.keeps_completeErr (own := fun _ => true) h code status m p d).flg_eq

/-! ### `Dev.complete` -/

@[simp] theorem Dev.complete_op (h : CmdHdr) (code status : Nat) (p : List Word) (d : Dev) : (d.complete h code status p).op = d.op := (Dev.keeps_complete (own := fun _ => true) h code status p d).op_eq
@[simp] theorem Dev.complete_reason (h : CmdHdr) (code status : Nat) (p : List Word) (d : Dev) : (d.complete h code status p).reason = d.reason := (Dev.keeps_complete (own := fun _ => true) h code status p d).reason_eq
@[simp] theorem Dev.complete_deg (h : CmdHdr) (code status : Nat) (p : List Word) (d : Dev) : (d.complete h code status p).deg = d.deg := (Dev.keeps_complete (own := fun _ => true) h code status p d).deg_eq
@[simp] theorem Dev.complete_raw (h : CmdHdr) (code status : Nat) (p : List Word) (d : Dev) : (d.complete h code status p).raw = d.raw := (Dev.keeps_complete (own := fun _ => true) h code status p d).raw_eq
@[simp] theorem Dev.complete_stg (h : CmdHdr) (code status : Nat) (p : List Word) (d : Dev) : (d.complete h code status p).stg = d.stg := (Dev.keeps_complete (own := fun _ => true) h code status p d).stg_eq
@[simp] theorem Dev.complete_act (h : CmdHdr) (code status : Nat) (p : List Word) (d : Dev) : (d.complete h code status p).act = d.act := (Dev.keeps_complete (own := fun _ => true) h code status p d).act_eq
@[simp] theorem Dev.complete_latch (h : CmdHdr) (code status : Nat) (p : List Word) (d : Dev) : (d.complete h code status p).latch = d.latch := (Dev.keeps_complete (own := fun _ => true) h code status p d).latch_eq
@[simp] theorem Dev.complete_spq (h : CmdHdr) (code status : Nat) (p : List Word) (d : Dev) : (d.complete h code status p).spq = d.spq := (Dev.keeps_complete (own := fun _ => true) h code status p d).spq_eq
@[simp] theorem Dev.complete_key (h : CmdHdr) (code status : Nat) (p : List Word) (d : Dev) : (d.complete h code status p).key = d.key := (Dev.keeps_complete (own := fun _ => true) h code status p d).key_eq
@[simp] theorem Dev.complete_anl (h : CmdHdr) (code status : Nat) (p : List Word) (d : Dev) : (d.complete h code status p).anl = d.anl := (Dev.keeps_complete (own := fun _ => true) h code status p d).anl_eq
@[simp] theorem Dev.complete_pwr (h : CmdHdr) (code status : Nat) (p : List Word) (d : Dev) : (d.complete h code status p).pwr = d.pwr := (Dev.keeps_complete (own := fun _ => true) h code status p d).pwr_eq
@[simp] theorem Dev.complete_mgmt (h : CmdHdr) (code status : Nat) (p : List Word) (d : Dev) : (d.complete h code status p).mgmt = d.mgmt := (Dev.keeps_complete (own := fun _ => true) h code status p d).mgmt_eq
@[simp] theorem Dev.complete_tbu (h : CmdHdr) (code status : Nat) (p : List Word) (d : Dev) : (d.complete h code status p).tbu = d.tbu := (Dev.keeps_complete (own := fun _ => true) h code status p d).tbu_eq
@[simp] theorem Dev.complete_net (h : CmdHdr) (code status : Nat) (p : List Word) (d : Dev) : (d.complete h code status p).net = d.net := (Dev.keeps_complete (own := fun _ => true) h code status p d).net_eq
@[simp] theorem Dev.complete_stm (h : CmdHdr) (code status : Nat) (p : List Word) (d : Dev) : (d.complete h code status p).stm = d.stm := (Dev.keeps_complete (own := fun _ => true) h code status p d).stm_eq
@[simp] theorem Dev.complete_eas (h : CmdHdr) (code status : Nat) (p : List Word) (d : Dev) : (d.complete h code status p).eas = d.eas := (Dev.keeps_complete (own := fun _ => true) h code status p d).eas_eq
@[simp] theorem Dev.complete_phx (h : CmdHdr) (code status : Nat) (p : List Word) (d : Dev) : (d.complete h code status p).phx = d.phx := (Dev.keeps_complete (own := fun _ => true) h code status p d).phx_eq
@[simp] theorem Dev.complete_sfl (h : CmdHdr) (code status : Nat) (p : List Word) (d : Dev) : (d.complete h code status p).sfl = d.sfl := (Dev.keeps_complete (own := fun _ => true) h code status p d).sfl_eq
@[simp] theorem Dev.complete_pub (h : CmdHdr) (code status : Nat) (p : List Word) (d : Dev) : (d.complete h code status p).pub = d.pub := (Dev.keeps_complete (own := fun _ => true) h code status p d).pub_eq
@[simp] theorem Dev.complete_brz (h : CmdHdr) (code status : Nat) (p : List Word) (d : Dev) : (d.complete h code status p).brz = d.brz := (Dev.keeps_complete (own := fun _ => true) h code status p d).brz_eq
@[simp] theorem Dev.complete_sht (h : CmdHdr) (code status : Nat) (p : List Word) (d : Dev) : (d.complete h code status p).sht = d.sht := (Dev.keeps_complete (own := fun _ => true) h code status p d).sht_eq
@[simp] theorem Dev.complete_swg (h : CmdHdr) (code status : Nat) (p : List Word) (d : Dev) : (d.complete h code status p).swg = d.swg := (Dev.keeps_complete (own := fun _ => true) h code status p d).swg_eq
@[simp] theorem Dev.complete_dns (h : CmdHdr) (code status : Nat) (p : List Word) (d : Dev) : (d.complete h code status p).dns = d.dns := (Dev.keeps_complete (own := fun _ => true) h code status p d).dns_eq
@[simp] theorem Dev.complete_flg (h : CmdHdr) (code status : Nat) (p : List Word) (d : Dev) : (d.complete h code status p).flg = d.flg := (Dev.keeps_complete (own := fun _ => true) h code status p d).flg_eq

/-! ### `Dev.notice` -/

@[simp] theorem Dev.notice_op (code : Nat) (p : List Word) (d : Dev) : (d.notice code p).op = d.op := (Dev.keeps_notice (own := fun _ => true) code p d).op_eq
@[simp] theorem Dev.notice_reason (code : Nat) (p : List Word) (d : Dev) : (d.notice code p).reason = d.reason := (Dev.keeps_notice (own := fun _ => true) code p d).reason_eq
@[simp] theorem Dev.notice_deg (code : Nat) (p : List Word) (d : Dev) : (d.notice code p).deg = d.deg := (Dev.keeps_notice (own := fun _ => true) code p d).deg_eq
@[simp] theorem Dev.notice_raw (code : Nat) (p : List Word) (d : Dev) : (d.notice code p).raw = d.raw := (Dev.keeps_notice (own := fun _ => true) code p d).raw_eq
@[simp] theorem Dev.notice_stg (code : Nat) (p : List Word) (d : Dev) : (d.notice code p).stg = d.stg := (Dev.keeps_notice (own := fun _ => true) code p d).stg_eq
@[simp] theorem Dev.notice_act (code : Nat) (p : List Word) (d : Dev) : (d.notice code p).act = d.act := (Dev.keeps_notice (own := fun _ => true) code p d).act_eq
@[simp] theorem Dev.notice_latch (code : Nat) (p : List Word) (d : Dev) : (d.notice code p).latch = d.latch := (Dev.keeps_notice (own := fun _ => true) code p d).latch_eq
@[simp] theorem Dev.notice_spq (code : Nat) (p : List Word) (d : Dev) : (d.notice code p).spq = d.spq := (Dev.keeps_notice (own := fun _ => true) code p d).spq_eq
@[simp] theorem Dev.notice_key (code : Nat) (p : List Word) (d : Dev) : (d.notice code p).key = d.key := (Dev.keeps_notice (own := fun _ => true) code p d).key_eq
@[simp] theorem Dev.notice_anl (code : Nat) (p : List Word) (d : Dev) : (d.notice code p).anl = d.anl := (Dev.keeps_notice (own := fun _ => true) code p d).anl_eq
@[simp] theorem Dev.notice_pwr (code : Nat) (p : List Word) (d : Dev) : (d.notice code p).pwr = d.pwr := (Dev.keeps_notice (own := fun _ => true) code p d).pwr_eq
@[simp] theorem Dev.notice_mgmt (code : Nat) (p : List Word) (d : Dev) : (d.notice code p).mgmt = d.mgmt := (Dev.keeps_notice (own := fun _ => true) code p d).mgmt_eq
@[simp] theorem Dev.notice_tbu (code : Nat) (p : List Word) (d : Dev) : (d.notice code p).tbu = d.tbu := (Dev.keeps_notice (own := fun _ => true) code p d).tbu_eq
@[simp] theorem Dev.notice_net (code : Nat) (p : List Word) (d : Dev) : (d.notice code p).net = d.net := (Dev.keeps_notice (own := fun _ => true) code p d).net_eq
@[simp] theorem Dev.notice_stm (code : Nat) (p : List Word) (d : Dev) : (d.notice code p).stm = d.stm := (Dev.keeps_notice (own := fun _ => true) code p d).stm_eq
@[simp] theorem Dev.notice_eas (code : Nat) (p : List Word) (d : Dev) : (d.notice code p).eas = d.eas := (Dev.keeps_notice (own := fun _ => true) code p d).eas_eq
@[simp] theorem Dev.notice_phx (code : Nat) (p : List Word) (d : Dev) : (d.notice code p).phx = d.phx := (Dev.keeps_notice (own := fun _ => true) code p d).phx_eq
@[simp] theorem Dev.notice_sfl (code : Nat) (p : List Word) (d : Dev) : (d.notice code p).sfl = d.sfl := (Dev.keeps_notice (own := fun _ => true) code p d).sfl_eq
@[simp] theorem Dev.notice_pub (code : Nat) (p : List Word) (d : Dev) : (d.notice code p).pub = d.pub := (Dev.keeps_notice (own := fun _ => true) code p d).pub_eq
@[simp] theorem Dev.notice_brz (code : Nat) (p : List Word) (d : Dev) : (d.notice code p).brz = d.brz := (Dev.keeps_notice (own := fun _ => true) code p d).brz_eq
@[simp] theorem Dev.notice_sht (code : Nat) (p : List Word) (d : Dev) : (d.notice code p).sht = d.sht := (Dev.keeps_notice (own := fun _ => true) code p d).sht_eq
@[simp] theorem Dev.notice_swg (code : Nat) (p : List Word) (d : Dev) : (d.notice code p).swg = d.swg := (Dev.keeps_notice (own := fun _ => true) code p d).swg_eq
@[simp] theorem Dev.notice_dns (code : Nat) (p : List Word) (d : Dev) : (d.notice code p).dns = d.dns := (Dev.keeps_notice (own := fun _ => true) code p d).dns_eq
@[simp] theorem Dev.notice_flg (code : Nat) (p : List Word) (d : Dev) : (d.notice code p).flg = d.flg := (Dev.keeps_notice (own := fun _ => true) code p d).flg_eq

/-! ### `Dev.refuse` -/

@[simp] theorem Dev.refuse_op (h : CmdHdr) (code order status slot : Nat) (p : List Word) (d : Dev) : (d.refuse h code order status slot p).op = d.op := (Dev.keeps_refuse (own := fun _ => true) h code order status slot p d).op_eq
@[simp] theorem Dev.refuse_reason (h : CmdHdr) (code order status slot : Nat) (p : List Word) (d : Dev) : (d.refuse h code order status slot p).reason = d.reason := (Dev.keeps_refuse (own := fun _ => true) h code order status slot p d).reason_eq
@[simp] theorem Dev.refuse_deg (h : CmdHdr) (code order status slot : Nat) (p : List Word) (d : Dev) : (d.refuse h code order status slot p).deg = d.deg := (Dev.keeps_refuse (own := fun _ => true) h code order status slot p d).deg_eq
@[simp] theorem Dev.refuse_raw (h : CmdHdr) (code order status slot : Nat) (p : List Word) (d : Dev) : (d.refuse h code order status slot p).raw = d.raw := (Dev.keeps_refuse (own := fun _ => true) h code order status slot p d).raw_eq
@[simp] theorem Dev.refuse_stg (h : CmdHdr) (code order status slot : Nat) (p : List Word) (d : Dev) : (d.refuse h code order status slot p).stg = d.stg := (Dev.keeps_refuse (own := fun _ => true) h code order status slot p d).stg_eq
@[simp] theorem Dev.refuse_act (h : CmdHdr) (code order status slot : Nat) (p : List Word) (d : Dev) : (d.refuse h code order status slot p).act = d.act := (Dev.keeps_refuse (own := fun _ => true) h code order status slot p d).act_eq
@[simp] theorem Dev.refuse_latch (h : CmdHdr) (code order status slot : Nat) (p : List Word) (d : Dev) : (d.refuse h code order status slot p).latch = d.latch := (Dev.keeps_refuse (own := fun _ => true) h code order status slot p d).latch_eq
@[simp] theorem Dev.refuse_spq (h : CmdHdr) (code order status slot : Nat) (p : List Word) (d : Dev) : (d.refuse h code order status slot p).spq = d.spq := (Dev.keeps_refuse (own := fun _ => true) h code order status slot p d).spq_eq
@[simp] theorem Dev.refuse_key (h : CmdHdr) (code order status slot : Nat) (p : List Word) (d : Dev) : (d.refuse h code order status slot p).key = d.key := (Dev.keeps_refuse (own := fun _ => true) h code order status slot p d).key_eq
@[simp] theorem Dev.refuse_anl (h : CmdHdr) (code order status slot : Nat) (p : List Word) (d : Dev) : (d.refuse h code order status slot p).anl = d.anl := (Dev.keeps_refuse (own := fun _ => true) h code order status slot p d).anl_eq
@[simp] theorem Dev.refuse_pwr (h : CmdHdr) (code order status slot : Nat) (p : List Word) (d : Dev) : (d.refuse h code order status slot p).pwr = d.pwr := (Dev.keeps_refuse (own := fun _ => true) h code order status slot p d).pwr_eq
@[simp] theorem Dev.refuse_mgmt (h : CmdHdr) (code order status slot : Nat) (p : List Word) (d : Dev) : (d.refuse h code order status slot p).mgmt = d.mgmt := (Dev.keeps_refuse (own := fun _ => true) h code order status slot p d).mgmt_eq
@[simp] theorem Dev.refuse_tbu (h : CmdHdr) (code order status slot : Nat) (p : List Word) (d : Dev) : (d.refuse h code order status slot p).tbu = d.tbu := (Dev.keeps_refuse (own := fun _ => true) h code order status slot p d).tbu_eq
@[simp] theorem Dev.refuse_net (h : CmdHdr) (code order status slot : Nat) (p : List Word) (d : Dev) : (d.refuse h code order status slot p).net = d.net := (Dev.keeps_refuse (own := fun _ => true) h code order status slot p d).net_eq
@[simp] theorem Dev.refuse_stm (h : CmdHdr) (code order status slot : Nat) (p : List Word) (d : Dev) : (d.refuse h code order status slot p).stm = d.stm := (Dev.keeps_refuse (own := fun _ => true) h code order status slot p d).stm_eq
@[simp] theorem Dev.refuse_eas (h : CmdHdr) (code order status slot : Nat) (p : List Word) (d : Dev) : (d.refuse h code order status slot p).eas = d.eas := (Dev.keeps_refuse (own := fun _ => true) h code order status slot p d).eas_eq
@[simp] theorem Dev.refuse_phx (h : CmdHdr) (code order status slot : Nat) (p : List Word) (d : Dev) : (d.refuse h code order status slot p).phx = d.phx := (Dev.keeps_refuse (own := fun _ => true) h code order status slot p d).phx_eq
@[simp] theorem Dev.refuse_sfl (h : CmdHdr) (code order status slot : Nat) (p : List Word) (d : Dev) : (d.refuse h code order status slot p).sfl = d.sfl := (Dev.keeps_refuse (own := fun _ => true) h code order status slot p d).sfl_eq
@[simp] theorem Dev.refuse_pub (h : CmdHdr) (code order status slot : Nat) (p : List Word) (d : Dev) : (d.refuse h code order status slot p).pub = d.pub := (Dev.keeps_refuse (own := fun _ => true) h code order status slot p d).pub_eq
@[simp] theorem Dev.refuse_brz (h : CmdHdr) (code order status slot : Nat) (p : List Word) (d : Dev) : (d.refuse h code order status slot p).brz = d.brz := (Dev.keeps_refuse (own := fun _ => true) h code order status slot p d).brz_eq
@[simp] theorem Dev.refuse_sht (h : CmdHdr) (code order status slot : Nat) (p : List Word) (d : Dev) : (d.refuse h code order status slot p).sht = d.sht := (Dev.keeps_refuse (own := fun _ => true) h code order status slot p d).sht_eq
@[simp] theorem Dev.refuse_swg (h : CmdHdr) (code order status slot : Nat) (p : List Word) (d : Dev) : (d.refuse h code order status slot p).swg = d.swg := (Dev.keeps_refuse (own := fun _ => true) h code order status slot p d).swg_eq
@[simp] theorem Dev.refuse_dns (h : CmdHdr) (code order status slot : Nat) (p : List Word) (d : Dev) : (d.refuse h code order status slot p).dns = d.dns := (Dev.keeps_refuse (own := fun _ => true) h code order status slot p d).dns_eq
@[simp] theorem Dev.refuse_flg (h : CmdHdr) (code order status slot : Nat) (p : List Word) (d : Dev) : (d.refuse h code order status slot p).flg = d.flg := (Dev.keeps_refuse (own := fun _ => true) h code order status slot p d).flg_eq

/-! ### Registers outside `reportReg` -/

theorem Dev.reg_doorbell (off : Nat) (w : Word) (d : Dev) (o : Nat) (hr : reportReg o = false) : (d.doorbell off w).reg o = d.reg o :=
  (Dev.keeps_doorbell (own := noReg) off w d).2 o rfl hr

theorem Dev.reg_post (code : Nat) (p : List Word) (d : Dev) (o : Nat) (hr : reportReg o = false) : (d.post code p).reg o = d.reg o :=
  (Dev.keeps_post (own := noReg) code p d).2 o rfl hr

theorem Dev.reg_completeErr (h : CmdHdr) (code status : Nat) (m : Bool) (p : List Word) (d : Dev) (o : Nat) (hr : reportReg o = false) : (d.completeErr h code status m p).reg o = d.reg o :=
  (Dev.keeps_completeErr (own := noReg) h code status m p d).2 o rfl hr

theorem Dev.reg_complete (h : CmdHdr) (code status : Nat) (p : List Word) (d : Dev) (o : Nat) (hr : reportReg o = false) : (d.complete h code status p).reg o = d.reg o :=
  (Dev.keeps_complete (own := noReg) h code status p d).2 o rfl hr

theorem Dev.reg_notice (code : Nat) (p : List Word) (d : Dev) (o : Nat) (hr : reportReg o = false) : (d.notice code p).reg o = d.reg o :=
  (Dev.keeps_notice (own := noReg) code p d).2 o rfl hr

theorem Dev.reg_refuse (h : CmdHdr) (code order status slot : Nat) (p : List Word) (d : Dev) (o : Nat) (hr : reportReg o = false) : (d.refuse h code order status slot p).reg o = d.reg o :=
  (Dev.keeps_refuse (own := noReg) h code order status slot p d).2 o rfl hr

end Sys2Proof.Machine
end

