-- ==== Sys2Proof/Laws/Life.lean ====
section
/-! SUPPORT. Laws of the time base's reports, of the reservoir and of the passes through BOOT: what each operation changes. -/

namespace Sys2Proof.Machine

/-! ### `SYNC` (R53, R481) -/

theorem Dev.keeps_timeSource {own : Nat → Bool} (kind v : Nat) (d : Dev) : Dev.Keeps own d (d.timeSource kind v) := Dev.keeps_post ..

theorem Dev.keeps_timeAnchor {own : Nat → Bool} (d : Dev) : Dev.Keeps own d d.timeAnchor :=
  (Dev.keeps_post ..).trans (Dev.keeps_plg _ _)

/-- Setting `SYNC` changes `SYNC` and whether it ever was LOCKED, and reports a change. -/
theorem Dev.setSync_eq (n : Nat) (d : Dev) : ∃ e, d.setSync n = e ∧
    Dev.Keeps (fun off => off == Reg.TBU_EVT) { d with tbu := { d.tbu with sync := n, everLock := e.tbu.everLock } } e := by
  refine ⟨_, rfl, ?_⟩
  unfold Dev.setSync
  split
  · subst_vars; exact Dev.Keeps.refl _ _
  · dsimp only
    split
    · have hk := (((Dev.keeps_raise (own := fun off => off == Reg.TBU_EVT) Reg.TBU_EVT 0
        { d with tbu := { d.tbu with sync := n, everLock := d.tbu.everLock || n == 2 } } (Or.inl rfl)).trans
        (Dev.keeps_timeSource 2 n _)).trans (Dev.keeps_timeAnchor _))
      rw [hk.tbu_eq]; exact hk
    · have hk := ((Dev.keeps_raise (own := fun off => off == Reg.TBU_EVT) Reg.TBU_EVT 0
        { d with tbu := { d.tbu with sync := n, everLock := d.tbu.everLock || n == 2 } } (Or.inl rfl)).trans
        (Dev.keeps_timeSource 2 n _))
      rw [hk.tbu_eq]; exact hk

/-- The end of a slew changes the time base only. -/
theorem Dev.slewEnd_eq (d : Dev) : ∃ y : TbuS, d.slewEnd = { d with tbu := y } := by
  unfold Dev.slewEnd
  split
  · exact ⟨_, rfl⟩
  · exact ⟨d.tbu, rfl⟩

/-- A cycle of the raw clock advances the raw counter by one; the operating state and every unit but the time base stay. -/
theorem Dev.tickOne_keeps (d : Dev) : ∃ x : TbuS, Dev.Keeps (fun off => off == Reg.TBU_EVT) { d with raw := d.raw + 1, tbu := x } d.tickOne := by
  obtain ⟨y, hy⟩ := Dev.slewEnd_eq ({ d with raw := d.raw + 1 } : Dev)
  unfold Dev.tickOne
  rw [hy]
  dsimp only
  obtain ⟨e, he, hk⟩ := Dev.setSync_eq ({ d with raw := d.raw + 1, tbu := y } : Dev).syncNow { d with raw := d.raw + 1, tbu := y }
  rw [he]
  exact ⟨_, hk⟩

/-! ### The reservoir (R445 to R450) -/

/-- Showing the reservoir writes `PWR_RES_V`, `PWR_RES_E` and `PWR_STATUS` only. -/
theorem Dev.keeps_showRes {own : Nat → Bool} (d : Dev) (h : ∀ off, inBlock 0x20100 0x20140 off = true → own off = true) :
    Dev.Keeps own d d.showRes :=
  ((Dev.keeps_setReg _ _ _ (Or.inl (h _ (by decide)))).trans (Dev.keeps_setReg _ _ _ (Or.inl (h _ (by decide))))).trans
    (Dev.keeps_setField _ _ _ _ _ (Or.inl (h _ (by decide))))

theorem Dev.keeps_setCharging {own : Nat → Bool} (on : Bool) (d : Dev) (h : ∀ off, inBlock 0x20100 0x20140 off = true → own off = true) :
    Dev.Keeps own d (d.setCharging on) := Dev.keeps_setField _ _ _ _ _ (Or.inl (h _ (by decide)))

theorem Dev.keeps_chargeNow {own : Nat → Bool} (d : Dev) (h : ∀ off, inBlock 0x20100 0x20140 off = true → own off = true) :
    Dev.Keeps own d d.chargeNow := Dev.keeps_setCharging _ _ h

@[simp] theorem Dev.chargeNow_pwr (d : Dev) : d.chargeNow.pwr = d.pwr := rfl
@[simp] theorem Dev.showRes_pwr (d : Dev) : d.showRes.pwr = d.pwr := rfl
@[simp] theorem Dev.setCharging_pwr (on : Bool) (d : Dev) : (d.setCharging on).pwr = d.pwr := rfl

/-- Switching the bleed changes its level, and a change is seen on the pad. -/
theorem Dev.keeps_setBleed {own : Nat → Bool} (on : Bool) (d : Dev) :
    Dev.Keeps own { d with pwr := { d.pwr with bleed := on } } (d.setBleed on) := by
  unfold Dev.setBleed
  split
  · rename_i h; subst h; exact Dev.Keeps.refl _ _
  · exact Dev.keeps_emit _ _

@[simp] theorem Dev.setBleed_pwr (on : Bool) (d : Dev) : (d.setBleed on).pwr = { d.pwr with bleed := on } :=
  (Dev.keeps_setBleed (own := noReg) on d).pwr_eq

@[simp] theorem Dev.reg_setBleed (on : Bool) (d : Dev) (off : Nat) : (d.setBleed on).reg off = d.reg off := by
  unfold Dev.setBleed; split <;> rfl

/-! ### The plate -/

@[simp] theorem Dev.zeroize_op (k : Bool) (d : Dev) : (d.zeroize k).op = d.op := rfl
@[simp] theorem Dev.zeroize_plate (d : Dev) : (d.zeroize false).key.plate = [] := rfl

end Sys2Proof.Machine
end

