-- ==== Sys2Proof/Laws/Onward.lean ====
section
/-! SUPPORT. What the operations that reach beyond the main domain do to the queue, the fuses, the proof log and the counters
that never go back. -/

namespace Sys2Proof.Machine

/-! ### Partitions of the proof log (R474 to R477) -/

theorem Partition.wf_iff (p : Partition) : p.wf = true ↔
    p.recs.map (fun c => c.num) = (List.range p.recs.length).map (fun i => p.oldest + i) ∧ p.oldest + p.recs.length = p.next := by
  simp [Partition.wf]

theorem Partition.markBad_recs (sec : Bool) (p : Partition) :
    (p.markBad sec).recs = p.recs ∧ (p.markBad sec).next = p.next ∧ (p.markBad sec).oldest = p.oldest := ⟨rfl, rfl, rfl⟩

/-- Marking slots bad changes neither the records held nor their numbers. -/
theorem Partition.markBads_recs (sec : Bool) (n : Nat) (p : Partition) :
    (p.markBads sec n).recs = p.recs ∧ (p.markBads sec n).next = p.next ∧ (p.markBads sec n).oldest = p.oldest := by
  induction n generalizing p with
  | zero => exact ⟨rfl, rfl, rfl⟩
  | succ n ih => exact ih (p.markBad sec)

theorem Partition.wf_congr {p q : Partition} (h : q.recs = p.recs ∧ q.next = p.next ∧ q.oldest = p.oldest) (hp : p.wf = true) :
    q.wf = true := by
  rw [Partition.wf_iff] at *; rw [h.1, h.2.1, h.2.2]; exact hp

/-- Appending a record keeps the numbers consecutive, the oldest records lost to a full ring included. -/
theorem Partition.append_wf (sec : Bool) (r : LogRec) (p : Partition) (hp : p.wf = true) : (p.append sec r).wf = true := by
  rw [Partition.wf_iff] at *
  obtain ⟨h1, h2⟩ := hp
  simp only [Partition.append, dropOver]
  generalize hk : (p.recs ++ [({ num := p.next, recd := r, damaged := false } : Committed)]).length - p.cap sec = k
  have hlen : (p.recs ++ [({ num := p.next, recd := r, damaged := false } : Committed)]).length = p.recs.length + 1 := by simp
  have hkl : k ≤ p.recs.length + 1 := by omega
  have hnum : (p.recs ++ [({ num := p.next, recd := r, damaged := false } : Committed)]).map (fun c => c.num)
      = (List.range (p.recs.length + 1)).map (fun i => p.oldest + i) := by
    rw [List.map_append, h1, List.range_succ, List.map_append]; simp [h2]
  constructor
  · rw [List.map_drop, hnum, List.length_drop, hlen]
    apply List.ext_getElem
    · simp
    · intro i h3 h4
      simp at h3 h4
      simp
      omega
  · rw [List.length_drop, hlen]; omega

theorem Partition.append_next (sec : Bool) (r : LogRec) (p : Partition) : (p.append sec r).next = p.next + 1 := rfl

theorem Partition.clear_wf (p : Partition) : p.clear.wf = true := by simp [Partition.wf_iff, Partition.clear]

theorem Partition.damage_wf (nums : List Nat) (p : Partition) (h : p.wf = true) : (p.damage nums).wf = true := by
  rw [Partition.wf_iff] at *
  simp only [Partition.damage, List.map_map, List.length_map]
  exact h

/-! ### Non-volatile memory -/

/-- What an operation does to non-volatile memory that the statements rely on: a whole log stays whole, and nothing goes back. -/
def Nv.Onward (a b : Nv) : Prop :=
  (a.LogWhole → b.LogWhole) ∧ (a.pcc ≤ 0xFFFFFF → NeverBack a b ∧ b.pcc ≤ 0xFFFFFF)

theorem Nv.Onward.refl (a : Nv) : a.Onward a := ⟨id, fun h => ⟨⟨le_refl _, le_refl _, le_refl _, le_refl _, le_refl _⟩, h⟩⟩

theorem Nv.Onward.trans {a b c : Nv} (h : a.Onward b) (k : b.Onward c) : a.Onward c := by
  refine ⟨fun x => k.1 (h.1 x), fun x => ?_⟩
  obtain ⟨⟨h1, h2, h3, h4, h5⟩, h6⟩ := h.2 x
  obtain ⟨⟨k1, k2, k3, k4, k5⟩, k6⟩ := k.2 h6
  exact ⟨⟨h1.trans k1, h2.trans k2, h3.trans k3, h4.trans k4, h5.trans k5⟩, k6⟩

/-- An operation that leaves the log and the counters. -/
theorem Nv.Onward.of_eq {a b : Nv} (h1 : b.gen = a.gen) (h2 : b.sec = a.sec) (h3 : a.updCtr ≤ b.updCtr) (h4 : a.bootSvn ≤ b.bootSvn)
    (h5 : b.pcc = a.pcc) : a.Onward b := by
  unfold Nv.Onward Nv.LogWhole NeverBack
  rw [h1, h2, h5]
  exact ⟨id, fun h => ⟨⟨h3, h4, le_refl _, le_refl _, le_refl _⟩, h⟩⟩

theorem Nv.commit_onward (fails : Nat) (r : LogRec) (nv : Nv) : nv.Onward (nv.commit fails r) := by
  unfold Nv.commit
  split
  · have hb := Partition.markBads_recs true (fails / 3) nv.sec
    refine ⟨fun h => ⟨h.1, Partition.append_wf _ _ _ (Partition.wf_congr hb h.2)⟩, fun h => ⟨⟨le_refl _, le_refl _, le_refl _, le_refl _, ?_⟩, h⟩⟩
    show nv.sec.next ≤ (nv.sec.markBads true (fails / 3)).next + 1
    rw [hb.2.1]; omega
  · have hb := Partition.markBads_recs false (fails / 3) nv.gen
    refine ⟨fun h => ⟨Partition.append_wf _ _ _ (Partition.wf_congr hb h.1), h.2⟩, fun h => ⟨⟨le_refl _, le_refl _, le_refl _, ?_, le_refl _⟩, h⟩⟩
    show nv.gen.next ≤ (nv.gen.markBads false (fails / 3)).next + 1
    rw [hb.2.1]; omega

theorem commitHead_onward (fails : Nat) (nv : Nv) (d : Dev) : nv.Onward (commitHead fails nv d).1 := by
  unfold commitHead
  split
  · exact Nv.Onward.refl _
  · exact Nv.commit_onward _ _ _

theorem commitAll_onward (n : Nat) (nv : Nv) (d : Dev) : nv.Onward (commitAll n nv d).1 := by
  induction n generalizing nv d with
  | zero => exact Nv.Onward.refl _
  | succ n ih =>
    unfold commitAll
    split
    · exact Nv.Onward.refl _
    · exact (commitHead_onward 0 nv d).trans (ih _ _)

/-! ### The whole state -/

/-- The queue and the fuses stay, a whole log stays whole, and nothing goes back. -/
def State.Onward (s t : State) : Prop := t.pending = s.pending ∧ t.fuse = s.fuse ∧ s.nv.Onward t.nv

theorem State.Onward.refl (s : State) : s.Onward s := ⟨rfl, rfl, Nv.Onward.refl _⟩

theorem State.Onward.trans {a b c : State} (h : a.Onward b) (k : b.Onward c) : a.Onward c :=
  ⟨k.1.trans h.1, k.2.1.trans h.2.1, h.2.2.trans k.2.2⟩

theorem State.Onward.of_nv {s t : State} (h1 : t.pending = s.pending) (h2 : t.fuse = s.fuse) (h3 : t.nv = s.nv) : s.Onward t :=
  ⟨h1, h2, by rw [h3]; exact Nv.Onward.refl _⟩

theorem State.mapDev_onward (f : Dev → Dev) (s : State) : s.Onward (s.mapDev f) := State.Onward.of_nv rfl rfl rfl

theorem State.copyRtc_onward (s : State) : s.Onward s.copyRtc := State.Onward.of_nv rfl rfl rfl

theorem State.lastWork_onward (s : State) : s.Onward s.lastWork := ⟨rfl, rfl, commitAll_onward 1024 s.nv s.dev⟩

theorem State.switchOff_onward (s : State) : s.Onward s.switchOff := State.Onward.of_nv rfl rfl rfl

/-- A pass through BOOT counts a power cycle, up to all ones of the counter. -/
theorem State.enterBoot_onward (cause order : Nat) (s : State) : s.Onward (s.enterBoot cause order) := by
  refine ⟨rfl, rfl, id, fun h => ⟨⟨le_refl _, le_refl _, ?_, le_refl _, le_refl _⟩, ?_⟩⟩
  · show s.nv.pcc ≤ min 0xFFFFFF (1 + max s.bd.pcc s.nv.pcc); omega
  · show min 0xFFFFFF (1 + max s.bd.pcc s.nv.pcc) ≤ 0xFFFFFF; omega

/-! ### Keys -/

theorem State.p5Run_onward (h : CmdHdr) (op : P5Op) (s : State) : s.Onward (s.p5Run h op) := by
  unfold State.p5Run
  split
  · split <;> exact State.mapDev_onward _ _
  · exact State.mapDev_onward _ _
  · exact State.mapDev_onward _ _

theorem State.p5Start_onward (h : CmdHdr) (op : P5Op) (s : State) : s.Onward (s.p5Start h op) := by
  unfold State.p5Start
  split
  · exact State.p5Run_onward h op s
  · exact State.mapDev_onward _ _

theorem State.install_onward (h : CmdHdr) (code slot : Nat) (k : KeyRec) (ctr : Option Nat) (s : State) :
    s.Onward (s.install h code slot k ctr) := ⟨rfl, rfl, Nv.Onward.of_eq rfl rfl (le_refl _) (le_refl _) rfl⟩

theorem State.replaced_onward (slot : Nat) (old : Option KeyRec) (s : State) : s.Onward (s.replaced slot old) := by
  have key : ∀ s' : State, s.Onward s' → s.Onward (
      if s'.fuse.part.hasFlg && s'.dev.fld Reg.FLG_SEC 8 8 == slot && (s'.dev.keyFor 5 slot).isSome then
        { s' with nv := { s'.nv with hopCtr := 0 }
                  dev := { s'.dev with flg := { s'.dev.flg with
                    ctr := 0, ended := false, upFc := 0, nodes := s'.dev.flg.nodes.map (fun p => (p.1, { p.2 with lastFc := 0 })) } } }
      else s') := by
    intro s' hs
    split
    · exact hs.trans ⟨rfl, rfl, Nv.Onward.of_eq rfl rfl (le_refl _) (le_refl _) rfl⟩
    · exact hs
  unfold State.replaced
  refine key _ ?_
  split
  · split
    · exact State.mapDev_onward _ _
    · exact State.Onward.refl _
  · exact State.Onward.refl _

theorem State.flip_onward (slot : Nat) (k : KeyRec) (ctr : Option Nat) (s : State) : s.Onward (s.flip slot k ctr) := by
  unfold State.flip
  exact State.Onward.trans ⟨rfl, rfl, Nv.Onward.of_eq rfl rfl (le_refl _) (le_refl _) rfl⟩ (State.replaced_onward _ _ _)

theorem State.destroyKey_onward (h : CmdHdr) (slot : Nat) (s : State) : s.Onward (s.destroyKey h slot) :=
  ⟨rfl, rfl, Nv.Onward.of_eq rfl rfl (le_refl _) (le_refl _) rfl⟩

theorem State.importKey_onward (h : CmdHdr) (a : KeyArgs) (b : ImportBlob) (s : State) : s.Onward (s.importKey h a b) := by
  unfold State.importKey
  split
  · exact State.mapDev_onward _ _
  · split
    · exact State.mapDev_onward _ _
    · exact State.install_onward _ _ _ _ _ _

theorem State.keyExec_onward (h : CmdHdr) (op : KeyOp) (s : State) : s.Onward (s.keyExec h op) := by
  unfold State.keyExec
  split
  · exact State.mapDev_onward _ _
  · split
    · exact (State.mapDev_onward _ s).trans (State.install_onward _ _ _ _ _ _)
    · exact State.importKey_onward _ _ _ _
    · exact State.destroyKey_onward _ _ _
    · split
      · exact State.mapDev_onward _ _
      · exact State.Onward.refl _
    · exact State.p5Start_onward _ _ _

theorem State.keyStart_onward (h : CmdHdr) (op : KeyOp) (s : State) : s.Onward (s.keyStart h op) := by
  unfold State.keyStart
  split
  · exact State.mapDev_onward _ _
  · exact State.keyExec_onward _ _ _

/-- A fold of operations that each go onward goes onward. -/
theorem State.foldl_onward {α : Type} (f : State → α → State) (hf : ∀ (s : State) (x : α), s.Onward (f s x)) (l : List α) (s : State) :
    s.Onward (l.foldl f s) := by
  induction l generalizing s with
  | nil => exact State.Onward.refl _
  | cons x l ih => exact (hf s x).trans (ih _)

theorem State.keyResume_onward (s : State) : s.Onward s.keyResume :=
  (State.mapDev_onward _ s).trans (State.foldl_onward _ (fun (e : State) (x : CmdHdr × KeyOp) => State.keyStart_onward x.1 x.2 e) _ _)

/-- A command goes onward when its body does. -/
theorem State.cmd_onward (h : CmdHdr) (code : Nat) (slots : List Nat) (legal : List OpState) (body : State → State) (s : State)
    (hb : s.Onward (body s)) : s.Onward (s.cmd h code slots legal body) := by
  unfold State.cmd
  dsimp only
  split
  · exact hb
  · exact State.Onward.of_nv rfl rfl rfl

/-! ### Update messages (R424, R426) -/

theorem State.eraseKeys_onward (k : Bool) (s : State) : s.Onward (s.eraseKeys k) :=
  ⟨rfl, rfl, Nv.Onward.of_eq rfl rfl (le_refl _) (le_refl _) rfl⟩

theorem State.drawRoot_onward (s : State) : s.Onward s.drawRoot := ⟨rfl, rfl, Nv.Onward.of_eq rfl rfl (le_refl _) (le_refl _) rfl⟩

theorem State.noteLatch_onward (s : State) : s.Onward s.noteLatch := by
  unfold State.noteLatch; split
  · exact State.Onward.refl _
  · exact State.Onward.of_nv rfl rfl rfl

theorem State.ite_onward {s a b : State} (c : Prop) [Decidable c] (ha : s.Onward a) (hb : s.Onward b) : s.Onward (if c then a else b) := by
  split <;> assumption

/-- A message that is accepted carries a counter above the last one. -/
theorem msgReason_zero {fz : Fuse} {nv : Nv} {flash : Bool} {op : OpState} {m : UpdateMsg} (h : msgReason fz nv flash op m = 0) :
    nv.updCtr < m.counter.toNat := by
  unfold msgReason at h
  by_contra hc
  simp only [not_lt] at hc
  simp only [hc, if_true] at h
  split at h
  · simp at h
  · split at h
    · simp at h
    · split at h
      · simp at h
      · split at h
        · simp at h
        · simp at h

theorem State.msgEffect_onward (m : UpdateMsg) (s : State) (h : s.nv.updCtr < m.counter.toNat) : s.Onward (s.msgEffect m) := by
  unfold State.msgEffect
  dsimp only
  have h0 : s.Onward { s with nv := { s.nv with updCtr := m.counter.toNat } } :=
    ⟨rfl, rfl, Nv.Onward.of_eq rfl rfl (le_of_lt h) (le_refl _) rfl⟩
  generalize ({ s with nv := { s.nv with updCtr := m.counter.toNat } } : State) = s0 at *
  have h1 : s.Onward (if m.typ ≤ 5 ∨ m.typ = 8 then s0.eraseKeys (m.typ != 4) else s0) :=
    State.ite_onward _ (h0.trans (State.eraseKeys_onward _ _)) h0
  generalize (if m.typ ≤ 5 ∨ m.typ = 8 then s0.eraseKeys (m.typ != 4) else s0) = s1 at *
  have h2 : s.Onward (if m.typ = 1 ∨ m.typ = 5 then s1.drawRoot else s1) := State.ite_onward _ (h1.trans (State.drawRoot_onward _)) h1
  generalize (if m.typ = 1 ∨ m.typ = 5 then s1.drawRoot else s1) = s2 at *
  have h3 : s.Onward (if m.typ = 3 ∨ m.typ = 4 then { s2 with bd := { s2.bd with root := none } } else s2) :=
    State.ite_onward _ (h2.trans (State.Onward.of_nv rfl rfl rfl)) h2
  generalize (if m.typ = 3 ∨ m.typ = 4 then ({ s2 with bd := { s2.bd with root := none } } : State) else s2) = s3 at *
  have h4 : s.Onward (if m.typ = 5 then { s3.noteLatch with bd := s3.noteLatch.bd.clearLatch } else s3) :=
    State.ite_onward _ ((h3.trans (State.noteLatch_onward _)).trans (State.Onward.of_nv rfl rfl rfl)) h3
  generalize (if m.typ = 5 then ({ s3.noteLatch with bd := s3.noteLatch.bd.clearLatch } : State) else s3) = s4 at *
  exact h4.trans ⟨rfl, rfl, Nv.Onward.of_eq rfl rfl (le_refl _) (le_refl _) rfl⟩

theorem State.flashMsg_onward (m : UpdateMsg) (s : State) : s.Onward (s.flashMsg m) := by
  unfold State.flashMsg
  split
  · rename_i h; exact (State.msgEffect_onward m s (msgReason_zero h)).trans (State.mapDev_onward _ _)
  · exact State.mapDev_onward _ _
  · exact State.mapDev_onward _ _

theorem State.flashRow_onward (typ : Nat) (m : UpdateMsg) (s : State) : s.Onward (s.flashRow typ m) := by
  unfold State.flashRow
  split
  · exact State.flashMsg_onward m s
  · exact State.Onward.refl _

/-! ### The pass through BOOT -/

theorem State.scanLog_onward (r : BootReport) (s : State) : s.Onward (s.scanLog r) :=
  ⟨rfl, rfl, fun h => ⟨Partition.damage_wf _ _ h.1, Partition.damage_wf _ _ h.2⟩,
    fun h => ⟨⟨le_refl _, le_refl _, le_refl _, le_refl _, le_refl _⟩, h⟩⟩

theorem State.unwrapSlot_onward (bad : List Nat) (s : State) (p : Nat × KeyCopies) : s.Onward (s.unwrapSlot bad p) := by
  unfold State.unwrapSlot
  have h0 : s.Onward { s with nv := s.nv.eraseShadow (!s.bd.copyOf p.1) p.1 } :=
    ⟨rfl, rfl, Nv.Onward.of_eq rfl rfl (le_refl _) (le_refl _) rfl⟩
  dsimp only
  split
  · exact h0
  · split
    · exact h0
    · split <;> exact h0.trans (State.mapDev_onward _ _)

theorem State.bootImage_onward (r : BootReport) (slot : Nat) (i : ImageSlot) (s : State) : s.Onward (s.bootImage r slot i) := by
  have hu : ∀ s : State, s.Onward (s.unwrapKeys r.badKeys) := fun s =>
    State.foldl_onward _ (fun e p => State.unwrapSlot_onward r.badKeys e p) _ _
  have hn : ∀ s : State, s.Onward s.noteDebug := fun s => State.ite_onward _ (State.mapDev_onward _ _) (State.Onward.refl _)
  have hv : ∀ s : State, s.Onward { s with nv := { s.nv with bootSvn := max s.nv.bootSvn i.svn } } := fun s =>
    ⟨rfl, rfl, Nv.Onward.of_eq rfl rfl (le_refl _) (le_max_left _ _) rfl⟩
  unfold State.bootImage
  refine State.Onward.trans ?_ (State.ite_onward _ (State.mapDev_onward _ _) (State.Onward.refl _))
  refine State.Onward.trans ?_ (hv _)
  refine State.Onward.trans ?_ (State.mapDev_onward _ _)
  refine State.Onward.trans ?_ (State.mapDev_onward _ _)
  refine State.Onward.trans ?_ (hn _)
  refine State.Onward.trans ?_ (hu _)
  exact (State.mapDev_onward _ s).trans (State.mapDev_onward _ _)

theorem State.checkLatch_onward (s : State) : s.Onward s.checkLatch.2 := by
  unfold State.checkLatch
  dsimp only
  split
  · exact State.noteLatch_onward s
  · split
    · exact State.noteLatch_onward s
    · exact (State.noteLatch_onward s).trans (State.Onward.of_nv rfl rfl rfl)

/-- A whole pass through BOOT. -/
theorem State.boot_onward (r : BootReport) (s : State) : s.Onward (s.boot r) := by
  have h1 : s.Onward (s.deriveHallmark r) := State.ite_onward _ (State.mapDev_onward _ _) (State.Onward.refl _)
  have h2 : s.Onward ((s.deriveHallmark r).scanLog r).checkHoldup :=
    (h1.trans (State.scanLog_onward r _)).trans (State.ite_onward _ (State.Onward.of_nv rfl rfl rfl) (State.Onward.refl _))
  have h3 : s.Onward ((s.deriveHallmark r).scanLog r).checkHoldup.checkVault :=
    h2.trans (State.ite_onward _ (State.Onward.of_nv rfl rfl rfl) (State.Onward.refl _))
  have h4 := h3.trans (State.checkLatch_onward _)
  unfold State.boot
  dsimp only
  split
  · rename_i heq; rw [heq] at h4; exact h4.trans (State.mapDev_onward _ _)
  · rename_i heq
    rw [heq] at h4
    split
    · exact h4.trans (State.bootImage_onward _ _ _ _)
    · exact h4.trans (State.mapDev_onward _ _)

end Sys2Proof.Machine
end

