-- ==== Sys2Proof/Tests/Slice0.lean ====
section
/-! SUPPORT. Tests of the model: an ill-formed command for each check of well-formedness, single steps with the numbers of
the spec's worked examples, and for every statement of the obligations a state and operands that meet its hypotheses,
clause by clause. -/

open Sys2Proof Sys2Proof.Machine
namespace Sys2Proof.Tests

set_option linter.unusedVariables false

/-- A state of an operating state, 100,000 s after power-up, in which context 0 may issue every command and name every slot. -/
def st (o : OpState) : State :=
  let d := State.reset.dev
  let acl := (List.range 8).map (fun w => (Reg.ACT_PERM w, Word.ones)) ++ [(Reg.ACT_CTX_SLOTS 0, 0xFF00)]
  { State.reset with dev := { d with regs := acl ++ d.regs, op := o, raw := 100000000000000, host := { d.host with link := true } } }

def on (f : Dev → Dev) (s : State) : State := { s with dev := f s.dev }
def put (off : Nat) (w : Word) (s : State) : State := on (Dev.setReg off w) s
def table (off : Nat) (w : Word) (s : State) : State := on (Dev.setAct off w) s
def hdr : CmdHdr := { ring := 0, tag := 1, fence := false }
def slotBad : ImageSlot :=
  { magicOk := false, keyOk := true, sigOk := true, bodyOk := true, svn := 0, fwVer := 0, bytes := 0, measure := 0, board := none, act := none }
def bootBad : BootReport :=
  { hallmarkOk := true, hallmarkKey := 1, slotA := slotBad, slotB := slotBad, dramMib := 0, badKeys := [], damagedGen := [], damagedSec := [],
    tilesBad := [], phxBad := [], laneABad := false, laneBBad := false, coresBad := [], swageBad := false, skewCal := 0, bootMs := 0 }
def msg (typ : Nat) (ctr : Word) : UpdateMsg :=
  { lenOk := true, formatOk := true, typ := typ, payloadOk := true, serial := BitVec.ofNat 64 Fuse.default.serial, counter := ctr, signer := 0,
    sigOk := true, keyOk := true, key := 5, memErr := false }
def rx (len : Nat) (ok : Bool) (b : FrameBody) : RxFrame :=
  { len := len, fcsOk := true, reasmOk := ok, tags := 0, dst := 1, src := 2, rct := none, sec := .none, free := 1536, body := b, words := [] }
/-- A port that is on, with its link up. -/
def port (n : Nat) (f : PortS → PortS) (s : State) : State :=
  on (Dev.setPort n (f { PortS.new with link := true })) (put (Reg.NET_CTRL n) 5 s)

def payload : Payload := { freq := ⟨0, true⟩, dfreq := ⟨0, true⟩, ph := [], an := [], dg := [] }
def frame (num den : Nat) : TileFrame :=
  { idx := 0, rev := 0, num := num, den := den, stat := 0, mtq := 0, pay := payload, arrNs := 0, arrRaw := 0 }
def cell10 (state : Nat) : Cell :=
  { k := 10, st := state, num := 1, den := 1, stat := 0, mtq := 0, arrNs := 0, arrRaw := 0, pay := some payload, rev := 0, merged := false,
    ue := false, spUe := false, first := none }
def set10 : SetS := { rc := 0, k := 10, first := 0, final := 0, done := false, image := [], refv := none, flag := false }
/-- RUN, stream 0 valid at 10 frames a second, the set of second 1 open, and a frame waiting at tile 0. -/
def tile0 (f : TileFrame) (sets : List SetS) (cells : KMap Cell) : State :=
  st .run |> table (stmOff 0 0) 1 |> on (fun d => { d with eas := { d.eas with sets := sets, cells := cells } })
    |> on (Dev.setTile 0 { TileS.new with inq := [f] })
def ch50 : PhxCh := { PhxCh.new with ft := 0x42480000 }
def cap (state : Nat) : Capture :=
  { id := 1, g := 0, slot := 0, st := state, reason := 0, flags := 0, srcs := [], primary := 0, details := [], t0 := 0, i0 := 0, rg := 0, epoch := 0,
    tq := 0, utc := 0, raw0 := 0, fnom := 50, endT := 6553600000000000000, start := 0, exts := 0, marks := [], chans := [], code := 0, off := none,
    rawLen := 0, data := [], released := false, gen := 0 }
/-- A state with group 0 in a state of Table 8.7 and captures of it. -/
def group0 (o : OpState) (state : Nat) (caps : List Capture) : State :=
  st o |> on (Dev.setGrp 0 { ShtGroup.new with st := state, tab := [(0x34000C, 0x800)] })
    |> on (fun d => { d with sht := { d.sht with caps := caps } })
def swg0 (x : SwgCtx) : State := st .run |> on (Dev.putSwgCtx 0 x)
def radio : RadioTx :=
  { kind := 1, dst := 0, seq := 0, counter := 0, timing := none, mesh := none, e2e := none, pend := false, arg := [], pan := 0, oui := 0, len := 20 }
def radioTx (nb : Nat) : FlgTx :=
  { f := radio, uni := true, node := none, hdr := none, held := none, nb := nb, be := 3, due := 0, tries := 0, ready := true }
def mac (status version dst level : Nat) : FlgFrame :=
  { statusByte := status, version := version, pan := 0, src := 0x1000, dst := dst, seq := 0, level := level, keyIndex := 0, micOk := true,
    counter := 0, ackReq := false, len := 20, rssi := 0, lqi := 0, timing := none, body := .dataReq }
/-- RUN with the mesh on. -/
def mesh (f : FlgS → FlgS) : State := st .run |> put Reg.FLG_CTRL 3 |> put Reg.FLG_SEC 0 |> on (fun d => { d with flg := f d.flg })
def node0 : FlgNode := { FlgNode.new with st := 2, direct := true, lastFc := 1 }
def key (typ usage : Nat) : KeyRec :=
  { copy := false, typ := typ, origin := 1, usage := usage, keyId := 0, gen := 1, kcv := 0, instMs := 0, instPcc := 0, hostTag := 0, key := 7 }
/-- A state of a provisioned device. -/
def prov (o : OpState) (f : KeyS → KeyS) : State :=
  let s := st o |> on (fun d => { d with key := f d.key })
  { s with nv := { s.nv with lc := .provisioned, certLen := 100 } }
def blob (counter : Word) : ImportBlob :=
  { len := 132, aligned := true, counter := counter, tagOk := true, kcvOk := true, kcv := 0, key := 9, memErr := false }
def installing : Install := { hdr := hdr, code := 0xA0, slot := 5, newKey := key 4 128, counter := none }
def beat (dst : Nat) (cur : Bool) (seq : Word) : BrzFrame :=
  { port := 1, src := 2, dst := dst, session := 0, seq := seq, authCur := cur, authPrev := false, payload := .heartbeat }
/-- RUN with Braze on, and a child, device 2, on stream 0 with its key in slot 5. -/
def brz (f : BrzS → BrzS) : State :=
  st .run |> put Reg.BRZ_CTRL 0x101 |> put (Reg.BRZ_PORT_CTRL 1) 1 |> put Reg.BRZ_UP 1 |> put Reg.BRZ_DEV 0
    |> table (stmOff 0 0) 7 |> table (stmOff 0 1) 2 |> table (stmOff 0 10) 0x500
    |> on (fun d => { d with key := { d.key with plate := [(5, key 2 16)] }, brz := f d.brz })
def peer2 (seq : Word) (up : Bool) : BrzPeer := { BrzPeer.new with seq := seq, up := up }
def twin (f : BrzS → BrzS) : State := brz f |> put Reg.BRZ_TWIN 0x103
def logRec (code : Nat) : LogRec := { code := code, summary := false, late := false, pcc := 1, ms := 0, p := [] }
def staged (r : LogRec) : State := st .run |> on (fun d => { d with plg := { d.plg with stage := [r] } })
def bucket (count : Nat) : Bucket := { tokens := 0, due := 0, count := count, first := 0, last := 0, p0 := 0 }
def queue (ctrl : Word) (x : SpqQ) : State := st .run |> put (Reg.SPQ_Q_CTRL 0) ctrl |> on (Dev.setSpq 0 x)
def item : SpqItem := { prod := 1, cnt := 0, words := [1, 2] }
def page (ok : Bool) : PollRead := { pageOk := ok, tails := [], heads := [], spqRead := [], descs := [], fetchBad := [], writeBad := [] }
def polling (kicked : Bool) (next : Nat) : State :=
  st .run |> put Reg.HST_CTRL 1 |> on (fun d => { d with host := { d.host with polling := true, kicked := kicked, nextPoll := next } })
def dns (f : DnsS → DnsS) : State := st .run |> put Reg.DNS_CTRL 0x1C |> on (fun d => { d with dns := f d.dns })


/-! ### Ill-formed commands: one for each check -/

theorem test_wf_ring64 : Instr.wf (.hstNop { hdr with ring := 64 }) = false := by decide
theorem test_wf_ring : Instr.wf (.ringDisable 128 0) = false := by decide
theorem test_wf_completion_ring : Instr.wf (.msixCoalesceExpiry 63) = false := by decide
theorem test_wf_port : Instr.wf (.linkUp 4) = false := by decide
theorem test_wf_braze_port : Instr.wf (.brzLinkDown 2 0) = false := by decide
theorem test_wf_device : Instr.wf (.brzTimeSyncTx 512) = false := by decide
theorem test_wf_rate : Instr.wf (.slotStrobe 16 0) = false := by decide
theorem test_wf_source : Instr.wf (.sourceLossTimeout 5) = false := by decide
theorem test_wf_comparator : Instr.wf (.tevFire 8) = false := by decide
theorem test_wf_alarm_output : Instr.wf (.almRetry 8) = false := by decide
theorem test_wf_stream : Instr.wf (.streamStale 8192) = false := by decide
theorem test_wf_tile : Instr.wf (.tilePlaceFrame 32 none) = false := by decide
theorem test_wf_channel : Instr.wf (.phxEstimate 512 0) = false := by decide
theorem test_wf_class : Instr.wf (.phxEstimate 0 2) = false := by decide
theorem test_wf_detector : Instr.wf (.detHoldEnd 0 2) = false := by decide
theorem test_wf_chain_lane : Instr.wf (.phxLaneCheck 8 true) = false := by decide
theorem test_wf_lane : Instr.wf (.sflLaneKat 2 true) = false := by decide
theorem test_wf_output_set : Instr.wf (.sealDatagram 64) = false := by decide
theorem test_wf_group : Instr.wf (.groupRearm 16) = false := by decide
theorem test_wf_client : Instr.wf (.swgBlockCode 5 0 false) = false := by decide
theorem test_wf_queue : Instr.wf (.spqDisable 64) = false := by decide
theorem test_wf_key_slot : Instr.wf (.brazeKeyGraceEnd 256) = false := by decide
theorem test_wf_core : Instr.wf (.dnsCoreCheck 16 true false) = false := by decide
theorem test_wf_node : Instr.wf (.flgNodeLost 2048) = false := by decide
theorem test_wf_record_code : Instr.wf (.plgTokenRefill 256) = false := by decide
theorem test_wf_vector : Instr.wf (.msixUnmask 144) = false := by decide
theorem test_wf_association : Instr.wf (.mkaSakInstall 0 4 0 0 []) = false := by decide
theorem test_wf_offset : Instr.wf (.rcRead 16777216) = false := by decide
theorem test_wf_byte_enables : Instr.wf (.registerWrite 0 16 0) = false := by decide
theorem test_wf_octet : Instr.wf (.easFail hdr 256) = false := by decide
theorem test_wf_half : Instr.wf (.sflClear hdr 65536) = false := by decide
theorem test_wf_frame_length : Instr.wf (.frameReceived 0 (rx 65536 true .other)) = false := by decide
theorem test_wf_key_arguments : Instr.wf (.keyGenerate hdr ⟨65536, 4, 8, 0, 0⟩) = false := by decide

/-- A well-formed command of each of three shapes. -/
theorem test_wf_accepts : Instr.wf (.registerWrite 16777212 15 0) = true ∧ Instr.wf (.phxEstimate 511 1) = true ∧ Instr.wf (.brzSwap hdr) = true := by
  decide

/-! ### One step on small states, with the spec's numbers -/

/-- What a command answers on a state. -/
def after (c : Instr) (s : State) : State := match exec c s with
  | .next t => t
  | _ => s

set_option maxRecDepth 50000 in
/-- Table 14.7: the causes of the passes through BOOT. -/
theorem test_reset_causes :
    (after .powerUp (st .off)).dev.reg Reg.RST_CAUSE = 1 ∧ (after .porNReset (st .run)).dev.reg Reg.RST_CAUSE = 2 ∧
    (after (.devReset hdr) (st .run)).dev.reg Reg.RST_CAUSE = 3 ∧ (after .brownout (st .run)).dev.reg Reg.RST_CAUSE = 5 := by decide

/-- R51, Example 6.1: slot 4 of second 9,000 at 60 frames a second has slot time 9,000.066666666. -/
theorem test_slot_time : slotNs (rateOf 7) (9000 * 60 + 4) = 9000066666666 := by decide

/-- Example 9.1: the coded block of five samples at code 4. -/
theorem test_sv_block_of_example_9_1 :
    let b := (encodeSv 4 [1000000, 1000300, 1000590, 1000870, 1001140]).1
    b.length = 40 ∧ b.take 12 = [1, 2, 0, 0, 0x40, 0x42, 0x0F, 0, 2, 0, 0, 0] ∧ b.drop 32 = [0x00, 0x4B, 0x49, 0x46, 0x43, 0, 0, 0] := by decide +kernel

/-- Example 7.1: 0.25 and 2.8 as binary32. -/
theorem test_binary32_of_a_quarter : F32.ofFrac 1 4 = 0x3E800000 := by decide +kernel
theorem test_binary32_of_2_8 : F32.ofFrac 28 10 = 0x40333333 := by decide +kernel

/-- The published check values of CRC-32 and CRC-CCITT over the nine digits. -/
theorem test_crc32 : crc32 [0x31, 0x32, 0x33, 0x34, 0x35, 0x36, 0x37, 0x38, 0x39] = 0xCBF43926 := by decide +kernel
theorem test_crc_ccitt : crcCcitt [0x31, 0x32, 0x33, 0x34, 0x35, 0x36, 0x37, 0x38, 0x39] = 0x29B1 := by decide +kernel

/-- Table 1.8: `DEV_RESET` is taken in RUN and the device enters BOOT. -/
theorem test_reset_in_run : (after (.devReset hdr) (st .run)).dev.op = .boot := by decide +kernel

/-- Table 1.10, R432: a tamper in RUN ends in SAFE. -/
theorem test_tamper : (after (.tamperDetected .shield) (st .run)).dev.op = .safe := by decide +kernel

/-- A read of a read-to-clear register clears it (R11). -/
theorem test_read_clears :
    (after (.rcRead Reg.SWG_VERIFY_FAIL) (st .run |> put Reg.SWG_VERIFY_FAIL 7)).dev.reg Reg.SWG_VERIFY_FAIL = 0 := by decide

/-- A write of an event register clears the bits written 1 and no other (R11). -/
theorem test_write_one_clears :
    (after (.registerWrite Reg.SWG_EVT 15 2) (st .run |> put Reg.SWG_EVT 7)).dev.reg Reg.SWG_EVT = 5 := by decide

/-- R77: a leap second inserted at the end of the day takes the offset from 37 to 38. -/
theorem test_leap :
    let s := st .run |> put Reg.TBU_UTC 0x125
    (after .leapSecond s).dev.fld Reg.TBU_UTC 0 8 = 38 := by decide

/-- Table 9.4: `SWG_OPEN` opens context 3 with its kind and code. -/
theorem test_open_context :
    ((after (.swgOpen hdr 3 1 6 0) (st .run)).dev.swgCtx 3).st = 1 ∧ ((after (.swgOpen hdr 3 1 6 0) (st .run)).dev.swgCtx 3).code = 6 := by decide

/-- The step takes the first command that waits. -/
theorem test_first_in_first_out :
    (match step { st .run with pending := [.hstKick, .brownout] } with | .next t => t.pending | _ => []) = [.brownout] := by decide

/-! ### Witnesses: what meets the hypotheses of each statement, one for each clause -/

theorem meets_StepTakesTheFront :
    ∃ (c : Instr) (rest : List Instr) (s : State), s.pending = c :: rest :=
  ⟨.hstKick, [], { st .run with pending := [.hstKick] }, by decide⟩

theorem meets_IdleStepIsATick :
    ∃ s : State, s.pending = [] :=
  ⟨st .off, by decide⟩

theorem meets_NoCommandMovesQueueOrFuses :
    ∃ (c : Instr) (s t : State), exec c s = .next t :=
  ⟨.hstKick, st .run, _, rfl⟩

theorem meets_StepKeepsLogWhole :
    ∃ s t : State, s.nv.LogWhole ∧ step s = .next t :=
  ⟨st .run, _, ⟨by decide, by decide⟩, rfl⟩

theorem meets_StepNeverGoesBack :
    ∃ s t : State, s.nv.pcc ≤ 0xFFFFFF ∧ step s = .next t :=
  ⟨{ st .run with nv := { (st .run).nv with pcc := 0xFFFFFF } }, _, by decide, rfl⟩

theorem meets_SuppliesAndRestarts :
    (∃ s : State, (s.dev.op = .off ∨ s.dev.op = .backup)) ∧
    (∃ s : State, s.dev.op.mainOn = true) ∧
    (∃ (h : CmdHdr) (s : State), s.dev.Admits h 0x04 [] true [.config, .run, .degraded, .safe]) ∧
    (∃ s : State, s.dev.op = .off) ∧
    (∃ s : State, s.dev.op = .backup) :=
  ⟨⟨st .off, by decide⟩,
    ⟨st .run, by decide⟩,
    ⟨hdr, st .safe, by unfold Dev.Admits; decide⟩,
    ⟨st .off, by decide⟩,
    ⟨st .backup, by decide⟩⟩

theorem meets_InputLossAndLastGasp :
    (∃ (mv : Nat) (s : State), s.dev.op.mainOn = true ∧ s.dev.resEn = true ∧ s.dev.pwr.vinLow = none ∧ mv < s.dev.fld Reg.PWR_VIN 0 16) ∧
    (∃ s : State, s.dev.pwr.vinLow.isSome = true ∧ s.dev.vinLost = false ∧ s.dev.op.mainOn = true ∧ s.dev.op ≠ .holdup) ∧
    (∃ s : State, legalCRD.contains s.dev.op = true ∧ s.dev.resEn = true ∧ s.dev.vinLost = true) ∧
    (∃ s : State, s.dev.op = .holdup) ∧
    (∃ s : State, s.dev.op = .safe ∧ s.dev.resEn = true ∧ s.dev.vinLost = true) :=
  ⟨⟨42999, st .run |> put Reg.PWR_RES_CTRL 1 |> put Reg.PWR_VIN 43000, by decide⟩,
    ⟨st .safe |> on (fun d => { d with pwr := { d.pwr with vinLow := some d.raw } }), by decide⟩,
    ⟨st .config |> put Reg.PWR_RES_CTRL 1 |> on (fun d => { d with pwr := { d.pwr with vinLow := some 0 } }), by decide⟩,
    ⟨st .holdup, by decide⟩,
    ⟨st .safe |> put Reg.PWR_RES_CTRL 1 |> on (fun d => { d with pwr := { d.pwr with vinLow := some 0 } }), by decide⟩⟩

theorem meets_ReservoirStatements :
    (∃ (mv : Nat) (s : State), legalCRD.contains s.dev.op = true ∧ s.dev.resEn = true) ∧
    (∃ (mv : Nat) (s : State), s.dev.op.mainOn = true ∧ 16500 < mv) ∧
    (∃ (mv : Nat) (s : State), s.dev.pwr.ovEp = true ∧ mv < 16000) ∧
    (∃ (h : CmdHdr) (s : State), s.dev.Admits h 0xD1 [] true legalCRD ∧ s.dev.resEn = true ∧ s.dev.pwr.check = none ∧ s.dev.rbit Reg.PWR_STATUS 1 = false) ∧
    (∃ (mv : Nat) (c : ResCheck) (s : State), s.dev.pwr.check = some c ∧ c.bleeding = true ∧ mv + 1000 ≤ c.startMv) :=
  ⟨⟨0, st .config |> put Reg.PWR_RES_CTRL 1, by decide⟩,
    ⟨16501, st .holdup, by decide⟩,
    ⟨15999, st .run |> on (fun d => { d with pwr := { d.pwr with ovEp := true } }), by decide⟩,
    ⟨hdr, st .config |> put Reg.PWR_RES_CTRL 1, by unfold Dev.Admits; decide⟩,
    ⟨15000, ⟨hdr, 0, 16000, true⟩, st .run |> on (fun d => { d with pwr := { d.pwr with check := some ⟨hdr, 0, 16000, true⟩ } }), by decide⟩⟩

theorem meets_AnnealerCapAndPeriod :
    (∃ (h : CmdHdr) (cap : Nat) (s : State), s.dev.Admits h 0xD0 [] true legalCRD ∧ 50 ≤ cap ∧ cap ≤ 150) ∧
    (∃ (h : CmdHdr) (cap : Nat) (s : State), s.dev.Admits h 0xD0 [] true legalCRD ∧ (cap < 50 ∨ 150 < cap)) ∧
    (∃ (a : AnnealerInput) (s : State), s.dev.op = .holdup ∧ s.dev.mgmt.restart = false ∧ s.dev.anl.p5wait = []) ∧
    (∃ (a : AnnealerInput) (s : State), (legalCRD.contains s.dev.op = true ∨ s.dev.op = .safe) ∧ s.dev.mgmt.restart = false) :=
  ⟨⟨hdr, 50, st .config, by unfold Dev.Admits; decide⟩,
    ⟨hdr, 151, st .run, by unfold Dev.Admits; decide⟩,
    ⟨⟨0, 0, 0, []⟩, st .holdup, by decide⟩,
    ⟨⟨0, 0, 0, []⟩, st .safe, by decide⟩⟩

theorem meets_PlaneStartsAndStops :
    (∃ (h : CmdHdr) (s : State), s.dev.Admits h 0x02 [] true [.config]) ∧
    (∃ (h : CmdHdr) (s : State), s.dev.Admits h 0x03 [] true [.run, .degraded] ∧ s.dev.host.stopping = none) ∧
    (∃ (h k : CmdHdr) (s : State), s.dev.Admits h 0x03 [] true [.run, .degraded] ∧ s.dev.host.stopping = some k) ∧
    (∃ (h : CmdHdr) (s : State), s.dev.host.stopping = some h ∧ s.dev.op.running = true) :=
  ⟨⟨hdr, st .config, by unfold Dev.Admits; decide⟩,
    ⟨hdr, st .run, by unfold Dev.Admits; decide⟩,
    ⟨hdr, hdr, st .run |> on (fun d => { d with host := { d.host with stopping := some hdr } }), by unfold Dev.Admits; decide⟩,
    ⟨hdr, st .degraded |> on (fun d => { d with host := { d.host with stopping := some hdr } }), by decide⟩⟩

theorem meets_HostResetAndWatchdog :
    (∃ (c : Instr) (s : State), (c = .functionLevelReset ∨ c = .pciePerst) ∧ s.dev.op.mainOn = true) ∧
    (∃ s : State, s.dev.op.mainOn = true ∧ s.dev.mgmt.lastWdt = none) ∧
    (∃ s : State, s.dev.mgmt.restart = true) ∧
    (∃ (n : Nat) (s : State), s.dev.op.mainOn = true ∧ 999500000 ≤ n ∧ n ≤ 1000500000) :=
  ⟨⟨.pciePerst, st .safe, by decide⟩,
    ⟨st .run, by decide⟩,
    ⟨st .run |> on (fun d => { d with mgmt := { d.mgmt with restart := true } }), by decide⟩,
    ⟨999500000, st .boot, by decide⟩⟩

theorem meets_Tampers :
    (∃ (src : TamperSrc) (s : State), s.dev.op ≠ .off ∧ s.tamperLive src = true) ∧
    (∃ (src : TamperSrc) (s : State), (s.dev.op = .backup ∨ s.dev.op = .safe) ∧ s.tamperLive src = true) :=
  ⟨⟨.shield, st .backup, by decide⟩,
    ⟨.shield, st .safe, by decide⟩⟩

theorem meets_BootEnds :
    ∃ (r : BootReport) (s : State), s.dev.op = .boot ∧ s.bd.causes = 0 ∧ s.bd.root.isSome = true ∧ bootImage? s.nv.bootSvn r = none :=
  ⟨bootBad, { st .boot with bd := { (st .boot).bd with root := some 1 } }, by decide⟩

theorem meets_UpdateMessages :
    (∃ (typ : Nat) (m : UpdateMsg) (c : Instr) (s : State), (typ, c) ∈ [(1, Instr.provision m), (2, .advance m), (3, .return_ m), (4, .scrap m), (5, .reseal m), (6, .rotateAuthority m), (7, .debugOpen m), (8, .reblank m)] ∧ s.dev.op = .boot ∧ m.typ = typ ∧ msgReason s.fuse s.nv true .boot m = 0) ∧
    (∃ (typ : Nat) (m : UpdateMsg) (c : Instr) (s : State), (typ, c) ∈ [(1, Instr.provision m), (2, .advance m), (3, .return_ m), (4, .scrap m), (5, .reseal m), (6, .rotateAuthority m), (7, .debugOpen m), (8, .reblank m)] ∧ s.dev.op = .boot ∧ m.typ = typ ∧ msgReason s.fuse s.nv true .boot m = 5) ∧
    (∃ (h : CmdHdr) (m : UpdateMsg) (r : Nat) (s : State), s.dev.Admits h 0xA6 [] true legalCRD ∧ m.memErr = false ∧ msgReason s.fuse s.nv false s.dev.op m = r ∧ r ≠ 0 ∧ r ≠ 6) ∧
    (∃ (h : CmdHdr) (m : UpdateMsg) (s : State), s.dev.Admits h 0xA6 [] true legalCRD ∧ m.memErr = false ∧ msgReason s.fuse s.nv false s.dev.op m = 6) ∧
    (∃ (h : CmdHdr) (m : UpdateMsg) (s : State), s.dev.Admits h 0xA6 [] true legalCRD ∧ m.memErr = false ∧ s.dev.key.rngFail = false ∧ m.typ ≤ 5 ∧ msgReason s.fuse s.nv false s.dev.op m = 0) :=
  ⟨⟨1, msg 1 1, .provision (msg 1 1), st .boot, by decide⟩,
    ⟨1, msg 1 0, .provision (msg 1 0), st .boot, by decide⟩,
    ⟨hdr, { msg 1 1 with lenOk := false }, 1, st .run, by unfold Dev.Admits; decide⟩,
    ⟨hdr, msg 1 1, st .run, by unfold Dev.Admits; decide⟩,
    ⟨hdr, msg 1 1, st .config, by unfold Dev.Admits; decide⟩⟩

theorem meets_StrobesAndTimedEvents :
    (∃ (rc k : Nat) (s : State), s.dev.op.mainOn = true ∧ rc < 12 ∧ KMap.getD s.dev.tbu.nextSlot rc 0 = k ∧ (slot16 (rateOf rc) k : Nat) ≤ s.dev.t16) ∧
    (∃ (rc k : Nat) (s : State), s.dev.op.mainOn = true ∧ rc < 12 ∧ KMap.getD s.dev.tbu.nextPre rc 0 = k ∧ (slot16 (rateOf rc) k : Nat) ≤ s.dev.t16 + 12000 * 65536) ∧
    (∃ (n : Nat) (v : Word) (s : State) (ahead : Int), s.dev.writable = true ∧ n < 8 ∧ v.bit 0 = true ∧ s.dev.rbit (Reg.TBU_TEV_CTRL n) 0 = false ∧ ahead = signedOf 40 ((((s.dev.fld (Reg.TBU_TEV_TARGET_HI n) 0 8 * 4294967296 + (s.dev.reg (Reg.TBU_TEV_TARGET_LO n)).toNat : Nat) : Int) - s.dev.tick) % 1099511627776).toNat ∧ 0 < ahead) ∧
    (∃ (n : Nat) (s : State), s.dev.op.mainOn = true ∧ s.dev.tevDue n = true ∧ s.dev.fld (Reg.TBU_TEV_CTRL n) 4 4 = 0 ∧ s.dev.tevMode n = 0) ∧
    (∃ (n e : Nat) (s : State), KMap.get? s.dev.tbu.pins n = some e ∧ e ≤ s.dev.raw) :=
  ⟨⟨0, 0, st .run, by decide⟩,
    ⟨11, 0, st .run, by decide⟩,
    ⟨7, 1, st .config, 55558127616, by decide⟩,
    ⟨0, st .run |> on (fun d => { d with tbu := { d.tbu with tevs := [(0, ⟨0, 0, 0⟩)] } }), by decide⟩,
    ⟨0, 100000000000000, st .run |> on (fun d => { d with tbu := { d.tbu with pins := [(0, 100000000000000)] } }), by decide⟩⟩

theorem meets_TimeBaseWrites :
    (∃ (hi : Bool) (v : Word) (s : State), s.dev.writable = true ∧ s.dev.rbit Reg.TBU_CTRL 0 = false) ∧
    (∃ (hi : Bool) (v : Word) (s : State), s.dev.writable = true ∧ s.dev.rbit Reg.TBU_CTRL 0 = true) ∧
    (∃ (v : Word) (s : State), s.dev.writable = true ∧ v.bit 0 = true) ∧
    (∃ (v : Word) (s : State), s.dev.writable = true ∧ s.dev.rbit Reg.TBU_CTRL 0 = true ∧ v.bit 0 = false) ∧
    (∃ (v : Word) (s : State), s.dev.writable = true ∧ v.bit 2 = true) :=
  ⟨⟨true, 0, st .run |> put Reg.TBU_CTRL 0, by decide⟩,
    ⟨true, 0, st .run |> put Reg.TBU_CTRL 1, by decide⟩,
    ⟨1, st .config, by decide⟩,
    ⟨0, st .run |> put Reg.TBU_CTRL 1, by decide⟩,
    ⟨4, st .run, by decide⟩⟩

theorem meets_StepsOfTime :
    (∃ (h : CmdHdr) (rel : Int) (sec ns : Nat) (s : State), s.dev.Admits h 0x10 [] true legalCRD ∧ rel ≠ 0 ∧ 0 ≤ s.dev.tick + rel) ∧
    (∃ (h : CmdHdr) (rel : Int) (sec ns : Nat) (s : State), s.dev.Admits h 0x10 [] true legalCRD ∧ ns < 1000000000) ∧
    (∃ (h : CmdHdr) (mode : Nat) (rel : Int) (sec ns : Nat) (s : State), s.dev.Admits h 0x10 [] true legalCRD ∧ (1 < mode ∨ (mode = 0 ∧ (rel = 0 ∨ s.dev.tick + rel < 0)) ∨ (mode = 1 ∧ 1000000000 ≤ ns))) ∧
    (∃ (st : StepDue) (rest : List StepDue) (s : State), s.dev.tbu.stepDue = st :: rest ∧ s.dev.op.mainOn = true ∧ st.due ≤ s.dev.raw) :=
  ⟨⟨hdr, -100000000000000, 0, 0, st .run, by unfold Dev.Admits; decide⟩,
    ⟨hdr, 0, 0, 999999999, st .run, by unfold Dev.Admits; decide⟩,
    ⟨hdr, 2, 0, 0, 0, st .run, by unfold Dev.Admits; decide⟩,
    ⟨⟨1, none, true, none, 100000000000000⟩, [], st .run |> on (fun d => { d with tbu := { d.tbu with stepDue := [⟨1, none, true, none, 100000000000000⟩] } }), by decide⟩⟩

theorem meets_LeapSeconds :
    (∃ (h : CmdHdr) (v : Nat) (s : State), s.dev.Admits h 0x11 [] true legalCRD ∧ 1 ≤ v ∧ v ≤ 2 ∧ s.dev.utcSecond % 86400 ≠ 86399 ∧ s.dev.rbit Reg.TBU_UTC 8 = false) ∧
    (∃ (h : CmdHdr) (s : State), s.dev.Admits h 0x11 [] true legalCRD ∧ s.dev.utcSecond % 86400 ≠ 86399 ∧ (s.dev.rbit Reg.TBU_UTC 8 = true → s.dev.tick < s.dev.leapTick - 1000000000)) ∧
    (∃ (h : CmdHdr) (v : Nat) (s : State), s.dev.Admits h 0x11 [] true legalCRD ∧ (2 < v ∨ s.dev.utcSecond % 86400 = 86399 ∨ (s.dev.rbit Reg.TBU_UTC 8 = true ∧ s.dev.leapTick - 1000000000 ≤ s.dev.tick))) ∧
    (∃ s : State, s.dev.op.mainOn = true ∧ s.dev.rbit Reg.TBU_UTC 8 = true ∧ s.dev.leapTick ≤ s.dev.tick) ∧
    (∃ (r : Nat) (s : State), s.dev.tbu.leapOccur = some r ∧ r + 86400000000000 ≤ s.dev.raw) :=
  ⟨⟨hdr, 1, st .run |> put Reg.TBU_UTC 0, by unfold Dev.Admits; decide⟩,
    ⟨hdr, st .run, by unfold Dev.Admits; decide⟩,
    ⟨hdr, 3, st .run, by unfold Dev.Admits; decide⟩,
    ⟨st .run |> put Reg.TBU_UTC 0x100, by decide⟩,
    ⟨0, st .run |> on (fun d => { d with tbu := { d.tbu with leapOccur := some 0 } }), by decide⟩⟩

theorem meets_SourcesAndReferences :
    (∃ (n : Nat) (s : State), s.dev.op.mainOn = true ∧ 2 ≤ n ∧ n ≤ 4 ∧ (s.dev.srcS n).lastRaw + 3000000000 ≤ s.dev.raw) ∧
    (∃ s : State, s.dev.op.mainOn = true ∧ s.dev.tbu.sync = 3) ∧
    (∃ (f : Bool) (s : State), s.dev.op.mainOn = true ∧ s.dev.rbit Reg.TBU_REFIN_CTRL 0 = true ∧ s.dev.rbit Reg.TBU_REFIN_CTRL 1 = f ∧ s.dev.rbit Reg.TBU_REFIN_CTRL 2 = false) ∧
    (∃ (g : NmeaSentence) (s : State), s.dev.op.mainOn = true ∧ s.dev.rbit Reg.TBU_REFIN_CTRL 0 = true ∧ g.checksumOk = true ∧ s.dev.rbit Reg.TBU_REFIN_CTRL 2 = true) ∧
    (∃ (g : NmeaSentence) (r : Nat) (e : Int) (s : State), s.dev.op.mainOn = true ∧ s.dev.rbit Reg.TBU_REFIN_CTRL 0 = true ∧ g.checksumOk = true ∧ s.dev.rbit Reg.TBU_REFIN_CTRL 2 = false ∧ s.dev.tbu.pps = some (r, e) ∧ s.dev.raw ≤ r + 900000000) ∧
    (∃ (g : IrigFrame) (s : State), s.dev.op.mainOn = true ∧ s.dev.rbit Reg.TBU_REFIN_CTRL 8 = true ∧ g.ext = none) ∧
    (∃ s : State, s.dev.op.mainOn = true ∧ s.dev.tbu.sync = 2 ∧ s.dev.tbu.lastRtc + 1000000000 ≤ s.dev.raw) :=
  ⟨⟨4, st .run, by decide⟩,
    ⟨st .run |> on (fun d => { d with tbu := { d.tbu with sync := 3 } }), by decide⟩,
    ⟨false, st .run |> put Reg.TBU_REFIN_CTRL 1, by decide⟩,
    ⟨⟨true, 0⟩, st .run |> put Reg.TBU_REFIN_CTRL 5, by decide⟩,
    ⟨⟨true, 0⟩, 99999100000000, 0, st .run |> put Reg.TBU_REFIN_CTRL 1 |> on (fun d => { d with tbu := { d.tbu with pps := some (99999100000000, 0) } }), by decide⟩,
    ⟨⟨0, true, none⟩, st .run |> put Reg.TBU_REFIN_CTRL 256, by decide⟩,
    ⟨st .run |> on (fun d => { d with tbu := { d.tbu with sync := 2 } }), by decide⟩⟩

theorem meets_Qualification :
    (∃ (n : Nat) (o : Int) (d : Dev), (d.srcS n).qualified = true ∧ n ≠ d.tbu.src ∧ (d.srcS n).outRun < 2 ∧ d.fld Reg.TBU_SRC_CTRL 21 11 * 65536 < (o - (d.srcS n).lastOff).natAbs) ∧
    (∃ (n : Nat) (o : Int) (d : Dev), (d.srcS n).qualified = false ∧ (((o :: (d.srcS n).offs).take (max 2 (d.fld Reg.TBU_SRC_CTRL 17 4))).length < max 2 (d.fld Reg.TBU_SRC_CTRL 17 4))) :=
  ⟨⟨2, 1000000000000, (st .run |> on (Dev.setSrc 2 { SrcS.new with qualified := true })).dev, by decide⟩,
    ⟨2, 0, (st .run).dev, by decide⟩⟩

theorem meets_FramesAtTheMac :
    (∃ (port : Nat) (f : RxFrame) (s : State), port < 4 ∧ s.dev.portUp port = true ∧ s.dev.op ≠ .boot ∧ s.dev.op.mainOn = true ∧ f.reasmOk = false) ∧
    (∃ (port : Nat) (f : RxFrame) (s : State), port < 4 ∧ s.dev.portUp port = true ∧ s.dev.op ≠ .boot ∧ s.dev.op.mainOn = true ∧ f.reasmOk = true ∧ (f.len < 64 ∨ 1522 < f.len ∨ f.fcsOk = false)) ∧
    (∃ (port : Nat) (f : RxFrame) (s : State), ∃ op q, port < 4 ∧ s.dev.portUp port = true ∧ s.dev.op ≠ .boot ∧ s.dev.op.mainOn = true ∧ f.reasmOk = true ∧ 64 ≤ f.len ∧ f.len ≤ 1522 ∧ f.fcsOk = true ∧ f.tags < 2 ∧ f.rct = none ∧ f.body = .macCtrl op q ∧ op ≠ 1) ∧
    (∃ (port : Nat) (f : RxFrame) (s : State), ∃ q, port < 4 ∧ s.dev.portUp port = true ∧ s.dev.op ≠ .boot ∧ s.dev.op.mainOn = true ∧ f.reasmOk = true ∧ 64 ≤ f.len ∧ f.len ≤ 1522 ∧ f.fcsOk = true ∧ f.tags < 2 ∧ f.rct = none ∧ f.body = .macCtrl 1 q ∧ 0 < q ∧ q < 65536 ∧ 1536 ≤ f.free ∧ (s.dev.port port).stormUntil = none) :=
  ⟨⟨0, rx 64 false .other, (st .run |> port 0 id), by decide⟩,
    ⟨3, rx 1523 true .other, (st .run |> port 3 id), by decide⟩,
    ⟨0, rx 64 true (.macCtrl 0x101 0), (st .run |> port 0 id), 0x101, 0, by decide⟩,
    ⟨0, rx 1522 true (.macCtrl 1 1), (st .run |> port 0 id), 1, by decide⟩⟩

theorem meets_PrpDiscardsTheSecondCopy :
    ∃ (p p' m q : Nat) (d : Dev), p / 2 = p' / 2 ∧ ((∀ k e, (d.nodes (p / 2)).find? (fun x => x.2.mac == m) = some (k, e) → -64 < signedOf 16 ((q + 65536 - e.highest) % 65536))) ∧ (((d.nodes (p / 2)).find? (fun x => x.2.mac == m) = none → d.allocNode (p / 2) ≠ none)) :=
  ⟨0, 1, 5, 7, (st .run).dev, by decide, by refine ⟨fun k e h => ?_, fun _ => by decide⟩; exact nomatch (show (none : Option (Nat × PrpNode)) = some (k, e) from h)⟩

theorem meets_LinksAndPauses :
    (∃ (port : Nat) (s : State), port < 4 ∧ s.dev.op.mainOn = true ∧ s.dev.rbit (Reg.NET_CTRL port) 0 = true ∧ (s.dev.port port).link = false) ∧
    (∃ (port : Nat) (s : State), port < 4 ∧ (s.dev.port port).link = true) ∧
    (∃ (port : Nat) (s : State), port < 4 ∧ legalCRD.contains s.dev.op = true ∧ s.dev.supDue port = true) ∧
    (∃ (port u : Nat) (s : State), (s.dev.port port).pauseUntil = some u ∧ u ≤ s.dev.raw) ∧
    (∃ (port u lim : Nat) (s : State), (s.dev.port port).pauseSince = some u ∧ s.dev.fld (Reg.NET_PAUSE_CTRL port) 0 8 = lim ∧ lim ≠ 0 ∧ u + lim * 1000000 ≤ s.dev.raw) ∧
    (∃ (port u : Nat) (s : State), (s.dev.port port).stormUntil = some u ∧ u ≤ s.dev.raw) :=
  ⟨⟨3, (st .config |> put (Reg.NET_CTRL 3) 1), by decide⟩,
    ⟨0, (st .run |> port 0 id), by decide⟩,
    ⟨2, (st .run |> port 2 id), by decide⟩,
    ⟨0, 100000000000000, (st .run |> port 0 (fun p => { p with pauseUntil := some 100000000000000 })), by decide⟩,
    ⟨0, 0, 1, (st .run |> port 0 (fun p => { p with pauseSince := some 0 }) |> put (Reg.NET_PAUSE_CTRL 0) 1), by decide⟩,
    ⟨0, 0, (st .run |> port 0 (fun p => { p with stormUntil := some 0 })), by decide⟩⟩

theorem meets_PreemptionAndTransmission :
    (∃ (port : Nat) (a : VerifyAnswer) (s : State), port < 4 ∧ s.dev.portUp port = true ∧ s.dev.rbit (Reg.NET_CTRL port) 2 = true ∧ (s.dev.port port).verify ≤ s.dev.raw ∧ s.dev.fld (Reg.NET_PREEMPT_STATUS port) 1 2 = 1) ∧
    (∃ (port : Nat) (c : TxCur) (s : State), port < 4 ∧ (s.dev.port port).cur = some c ∧ c.frame.len - c.sent + 20 ≤ s.dev.portBytes port (s.dev.raw - c.start)) ∧
    (∃ (port : Nat) (s : State), port < 4 ∧ s.dev.ptpEn port = true ∧ s.dev.portUp port = true ∧ s.dev.op.mainOn = true ∧ s.dev.op ≠ .boot ∧ (s.dev.ptpS port).nextReq ≤ s.dev.raw) ∧
    (∃ (port : Nat) (s : State), port < 4 ∧ s.dev.ptpEn port = true ∧ s.dev.portUp port = true ∧ s.dev.op.mainOn = true ∧ s.dev.op ≠ .boot ∧ s.dev.ptpMaster port = true ∧ (s.dev.ptpS port).nextSync ≤ s.dev.raw) :=
  ⟨⟨0, ⟨true, 3⟩, (st .run |> port 0 id |> put (Reg.NET_PREEMPT_STATUS 0) 2), by decide⟩,
    ⟨0, ⟨.express, { body := .prpSup 0, prp := none, len := 64, cls := 1, host := none }, 0, 0⟩, (st .run |> port 0 (fun p => { p with cur := some ⟨.express, { body := .prpSup 0, prp := none, len := 64, cls := 1, host := none }, 0, 0⟩ })), by decide⟩,
    ⟨0, (st .run |> port 0 id |> put (Reg.TBU_PORT_PTP 0) 1), by decide⟩,
    ⟨0, (st .run |> port 0 id |> put (Reg.TBU_PORT_PTP 0) 0x60000001), by decide⟩⟩

theorem meets_StreamsAndLooks :
    (∃ (i : Nat) (s : State), eValid (s.dev.entry i) = true ∧ s.dev.streamState i = 2 ∧ s.dev.op.mainOn = true ∧ KMap.getD s.dev.stm.lastRx i 0 + s.dev.staleNs (s.dev.entry i) ≤ s.dev.raw) ∧
    (∃ (rc k : Nat) (f : LookFaults) (x : SetS) (s : State), s.dev.openSet? rc k = some x ∧ s.dev.op.running = true ∧ x.done = false ∧ x.first ≤ s.dev.raw) ∧
    (∃ (rc k : Nat) (f : LookFaults) (x : SetS) (s : State), s.dev.openSet? rc k = some x ∧ (x.done = true ∨ s.dev.raw < x.first)) ∧
    (∃ (rc k : Nat) (f : LookFaults) (x : SetS) (s : State), s.dev.openSet? rc k = some x ∧ s.dev.op.running = true ∧ x.done = true ∧ x.final ≤ s.dev.raw) ∧
    (∃ (rc k : Nat) (f : LookFaults) (x : SetS) (s : State), s.dev.openSet? rc k = some x ∧ (x.done = false ∨ s.dev.raw < x.final)) :=
  ⟨⟨0, (st .run |> table (stmOff 0 0) 1 |> table (stmOff 0 12) 2), by decide⟩,
    ⟨0, 0, ⟨[], [0]⟩, ⟨0, 0, 100000000000000, 0, false, [], none, false⟩, (st .run |> on (fun d => { d with eas := { d.eas with sets := [⟨0, 0, 100000000000000, 0, false, [], none, false⟩] } })), by decide⟩,
    ⟨0, 0, ⟨[], [0]⟩, ⟨0, 0, 100000000000001, 0, false, [], none, false⟩, (st .run |> on (fun d => { d with eas := { d.eas with sets := [⟨0, 0, 100000000000001, 0, false, [], none, false⟩] } })), by decide⟩,
    ⟨0, 0, ⟨[], [0]⟩, ⟨0, 0, 0, 100000000000000, true, [], none, false⟩, (st .run |> on (fun d => { d with eas := { d.eas with sets := [⟨0, 0, 0, 100000000000000, true, [], none, false⟩] } })), by decide⟩,
    ⟨0, 0, ⟨[], [0]⟩, ⟨0, 0, 0, 100000000000001, true, [], none, false⟩, (st .run |> on (fun d => { d with eas := { d.eas with sets := [⟨0, 0, 0, 100000000000001, true, [], none, false⟩] } })), by decide⟩⟩

theorem meets_StreamCommits :
    (∃ (h : CmdHdr) (p : CommitArgs) (s : State), s.dev.Admits h 0x20 [] true legalCRD ∧ p.mode ≤ 1 ∧ ((p.mode = 1 → s.dev.op = .config ∨ s.dev.badInstant s.dev.earliest (commitInstant p) = false)) ∧ s.dev.stm.pend = none) ∧
    (∃ (h : CmdHdr) (p : CommitArgs) (s : State), s.dev.Admits h 0x20 [] true legalCRD ∧ p.mode ≤ 1 ∧ ((p.mode = 1 → s.dev.op = .config ∨ s.dev.badInstant s.dev.earliest (commitInstant p) = false)) ∧ s.dev.stm.pend.isSome = true) ∧
    (∃ (h : CmdHdr) (p : CommitArgs) (s : State), s.dev.Admits h 0x20 [] true legalCRD ∧ (1 < p.mode ∨ (p.mode = 1 ∧ s.dev.op ≠ .config ∧ s.dev.badInstant s.dev.earliest (commitInstant p) = true))) ∧
    (∃ (h : CmdHdr) (p : PendCommit) (s : State), s.dev.Admits h 0x21 [] true legalCRD ∧ s.dev.stm.pend = some p) ∧
    (∃ (h : CmdHdr) (s : State), s.dev.Admits h 0x21 [] true legalCRD ∧ s.dev.stm.pend = none) ∧
    (∃ (h : CmdHdr) (s : State), s.dev.Admits h 0x22 [] true legalCRD ∧ s.dev.stm.pend = none) ∧
    (∃ (h : CmdHdr) (s : State), s.dev.Admits h 0x22 [] true legalCRD ∧ s.dev.stm.pend.isSome = true) ∧
    (∃ (p : PendCommit) (obj reason : Nat) (s : State), s.dev.stm.pend = some p ∧ p.validating = true ∧ legalCRD.contains s.dev.op = true ∧ s.dev.validate s.fuse p.snap = some (obj, reason)) ∧
    (∃ (p : PendCommit) (inst : Int) (s : State), s.dev.stm.pend = some p ∧ p.validating = true ∧ s.dev.op.running = true ∧ s.dev.validate s.fuse p.snap = none ∧ inst = (if p.args.mode = 1 then commitInstant p.args else s.dev.earliest) ∧ s.dev.badInstant s.dev.earliest inst = false) ∧
    (∃ (p : PendCommit) (s : State), s.dev.stm.pend = some p ∧ p.validating = true ∧ s.dev.op = .config ∧ s.dev.validate s.fuse p.snap = none) ∧
    (∃ (p : PendCommit) (s : State), s.dev.stm.pend = some p ∧ p.validating = false ∧ legalCRD.contains s.dev.op = true ∧ p.inst ≤ s.dev.tick) ∧
    (∃ (p : PendCommit) (s : State), s.dev.stm.pend = some p ∧ s.dev.tick < p.inst) :=
  ⟨⟨hdr, ⟨0, 0, 0⟩, st .run, by unfold Dev.Admits; decide⟩,
    ⟨hdr, ⟨1, 0, 0⟩, (st .config |> on (fun d => { d with stm := { d.stm with pend := some ⟨hdr, ⟨0, 0, 0⟩, [], true, 0, []⟩ } })), by unfold Dev.Admits; decide⟩,
    ⟨hdr, ⟨1, 0, 0⟩, st .run, by unfold Dev.Admits; decide⟩,
    ⟨hdr, ⟨hdr, ⟨0, 0, 0⟩, [], true, 0, []⟩, (st .run |> on (fun d => { d with stm := { d.stm with pend := some ⟨hdr, ⟨0, 0, 0⟩, [], true, 0, []⟩ } })), by unfold Dev.Admits; decide⟩,
    ⟨hdr, st .run, by unfold Dev.Admits; decide⟩,
    ⟨hdr, st .run, by unfold Dev.Admits; decide⟩,
    ⟨hdr, (st .run |> on (fun d => { d with stm := { d.stm with pend := some ⟨hdr, ⟨0, 0, 0⟩, [], true, 0, []⟩ } })), by unfold Dev.Admits; decide⟩,
    ⟨⟨hdr, ⟨0, 0, 0⟩, [(stmOff 0 0, 0x03800001)], true, 0, []⟩, 0, 3, (st .run |> on (fun d => { d with stm := { d.stm with pend := some ⟨hdr, ⟨0, 0, 0⟩, [(stmOff 0 0, 0x03800001)], true, 0, []⟩ } })), by decide⟩,
    ⟨⟨hdr, ⟨0, 0, 0⟩, [], true, 0, []⟩, (st .run).dev.earliest, (st .run |> on (fun d => { d with stm := { d.stm with pend := some ⟨hdr, ⟨0, 0, 0⟩, [], true, 0, []⟩ } })), by decide⟩,
    ⟨⟨hdr, ⟨0, 0, 0⟩, [], true, 0, []⟩, (st .config |> on (fun d => { d with stm := { d.stm with pend := some ⟨hdr, ⟨0, 0, 0⟩, [], true, 0, []⟩ } })), by decide⟩,
    ⟨⟨hdr, ⟨0, 0, 0⟩, [], false, 100000000000000, []⟩, (st .run |> on (fun d => { d with stm := { d.stm with pend := some ⟨hdr, ⟨0, 0, 0⟩, [], false, 100000000000000, []⟩ } })), by decide⟩,
    ⟨⟨hdr, ⟨0, 0, 0⟩, [], false, 100000000000001, []⟩, (st .run |> on (fun d => { d with stm := { d.stm with pend := some ⟨hdr, ⟨0, 0, 0⟩, [], false, 100000000000001, []⟩ } })), by decide⟩⟩

theorem meets_EarlierTimesSeeTheOldEntry :
    (∃ (prev : KMap PrevVer) (old : SMap) (changed : List Nat) (inst : Int) (i : Nat) (d : Dev), ∃ t : Int, d.stm.pend = none ∧ d.stm.prev = nextVersions prev old changed inst ∧ i ∈ changed ∧ t < inst) ∧
    (∃ (prev : KMap PrevVer) (old : SMap) (changed : List Nat) (inst : Int) (i : Nat) (d : Dev), ∃ t : Int, d.stm.pend = none ∧ d.stm.prev = nextVersions prev old changed inst ∧ i ∈ changed ∧ inst ≤ t) :=
  ⟨⟨[], [], [3], 5, 3, (st .run |> on (fun d => { d with stm := { d.stm with prev := nextVersions [] [] [3] 5 } })).dev, 4, by decide⟩,
    ⟨[], [], [3], 5, 3, (st .run |> on (fun d => { d with stm := { d.stm with prev := nextVersions [] [] [3] 5 } })).dev, 5, by decide⟩⟩

theorem meets_FramesAndCells :
    (∃ (tile : Nat) (f : TileFrame) (rest : List TileFrame) (s : State), let d := s.dev.setTile tile { s.dev.tile tile with inq := rest }; let e := d.entryAt f.idx ((f.num * 1000000000 / f.den : Nat) : Int); let k := slotOf (rateOf (eRate e)) f.num f.den; let off := offGrid (rateOf (eRate e)) f.num f.den (zeroActs 1 (d.fld Reg.EAS_CTRL 8 8)); (s.dev.tile tile).inq = f :: rest ∧ s.dev.op.running = true ∧ (s.dev.tile tile).cause = 0 ∧ off = true) ∧
    (∃ (tile : Nat) (f : TileFrame) (rest : List TileFrame) (s : State), let d := s.dev.setTile tile { s.dev.tile tile with inq := rest }; let e := d.entryAt f.idx ((f.num * 1000000000 / f.den : Nat) : Int); let k := slotOf (rateOf (eRate e)) f.num f.den; let off := offGrid (rateOf (eRate e)) f.num f.den (zeroActs 1 (d.fld Reg.EAS_CTRL 8 8)); (s.dev.tile tile).inq = f :: rest ∧ s.dev.op.running = true ∧ (s.dev.tile tile).cause = 0 ∧ off = false ∧ d.openSet? (eRate e) k = none ∧ ((∀ j, KMap.get? d.eas.highest (eRate e) = some j → j < k))) ∧
    (∃ (tile : Nat) (f : TileFrame) (rest : List TileFrame) (s : State), ∃ j, let d := s.dev.setTile tile { s.dev.tile tile with inq := rest }; let e := d.entryAt f.idx ((f.num * 1000000000 / f.den : Nat) : Int); let k := slotOf (rateOf (eRate e)) f.num f.den; let off := offGrid (rateOf (eRate e)) f.num f.den (zeroActs 1 (d.fld Reg.EAS_CTRL 8 8)); (s.dev.tile tile).inq = f :: rest ∧ s.dev.op.running = true ∧ (s.dev.tile tile).cause = 0 ∧ off = false ∧ d.openSet? (eRate e) k = none ∧ KMap.get? d.eas.highest (eRate e) = some j ∧ k ≤ j) ∧
    (∃ (tile : Nat) (f : TileFrame) (rest : List TileFrame) (s : State), ∃ x, let d := s.dev.setTile tile { s.dev.tile tile with inq := rest }; let e := d.entryAt f.idx ((f.num * 1000000000 / f.den : Nat) : Int); let k := slotOf (rateOf (eRate e)) f.num f.den; let off := offGrid (rateOf (eRate e)) f.num f.den (zeroActs 1 (d.fld Reg.EAS_CTRL 8 8)); (s.dev.tile tile).inq = f :: rest ∧ s.dev.op.running = true ∧ (s.dev.tile tile).cause = 0 ∧ off = false ∧ d.openSet? (eRate e) k = some x ∧ d.isMember f.idx (eRate e) k = false) ∧
    (∃ (tile : Nat) (f : TileFrame) (rest : List TileFrame) (s : State), ∃ x c, let d := s.dev.setTile tile { s.dev.tile tile with inq := rest }; let e := d.entryAt f.idx ((f.num * 1000000000 / f.den : Nat) : Int); let k := slotOf (rateOf (eRate e)) f.num f.den; let off := offGrid (rateOf (eRate e)) f.num f.den (zeroActs 1 (d.fld Reg.EAS_CTRL 8 8)); (s.dev.tile tile).inq = f :: rest ∧ s.dev.op.running = true ∧ (s.dev.tile tile).cause = 0 ∧ off = false ∧ d.openSet? (eRate e) k = some x ∧ d.isMember f.idx (eRate e) k = true ∧ d.cell f.idx k = some c ∧ (c.st = 3 ∨ c.st = 4)) ∧
    (∃ (tile : Nat) (f : TileFrame) (rest : List TileFrame) (s : State), ∃ x c, let d := s.dev.setTile tile { s.dev.tile tile with inq := rest }; let e := d.entryAt f.idx ((f.num * 1000000000 / f.den : Nat) : Int); let k := slotOf (rateOf (eRate e)) f.num f.den; let off := offGrid (rateOf (eRate e)) f.num f.den (zeroActs 1 (d.fld Reg.EAS_CTRL 8 8)); (s.dev.tile tile).inq = f :: rest ∧ s.dev.op.running = true ∧ (s.dev.tile tile).cause = 0 ∧ off = false ∧ d.openSet? (eRate e) k = some x ∧ d.isMember f.idx (eRate e) k = true ∧ d.cell f.idx k = some c ∧ c.st < 3 ∧ c.pay.isSome = true ∧ eKind e ≠ 3) ∧
    (∃ (tile : Nat) (f : TileFrame) (rest : List TileFrame) (s : State), ∃ ecc : CellEcc, let d := s.dev.setTile tile { s.dev.tile tile with inq := rest }; let e := d.entryAt f.idx ((f.num * 1000000000 / f.den : Nat) : Int); let k := slotOf (rateOf (eRate e)) f.num f.den; let off := offGrid (rateOf (eRate e)) f.num f.den (zeroActs 1 (d.fld Reg.EAS_CTRL 8 8)); (s.dev.tile tile).inq = f :: rest ∧ s.dev.op.running = true ∧ (s.dev.tile tile).cause = 0) ∧
    (∃ (tile : Nat) (f : TileFrame) (x : SetS) (d : Dev), let e := d.entryAt f.idx ((f.num * 1000000000 / f.den : Nat) : Int); let k := slotOf (rateOf (eRate e)) f.num f.den; tile < 32 ∧ offGrid (rateOf (eRate e)) f.num f.den (zeroActs 1 (d.fld Reg.EAS_CTRL 8 8)) = false ∧ d.openSet? (eRate e) k = some x ∧ d.isMember f.idx (eRate e) k = true ∧ d.cell f.idx k = none) :=
  ⟨⟨0, frame 1 20, [], tile0 (frame 1 20) [] [], by dsimp only; decide⟩,
    ⟨0, frame 1 1, [], tile0 (frame 1 1) [] [], by dsimp only; exact ⟨by decide, by decide, by decide, by decide, by decide, fun j h => nomatch h⟩⟩,
    ⟨0, frame 1 1, [], (tile0 (frame 1 1) [] [] |> on (fun d => { d with eas := { d.eas with highest := [(0, 10)] } })), 10, by dsimp only; decide⟩,
    ⟨0, frame 1 1, [], (tile0 (frame 1 1) [set10] [] |> table (stmOff 0 0) 0), set10, by dsimp only; decide⟩,
    ⟨0, frame 1 1, [], tile0 (frame 1 1) [set10] [(cellKey 0 10, cell10 3)], set10, cell10 3, by dsimp only; decide⟩,
    ⟨0, frame 1 1, [], tile0 (frame 1 1) [set10] [(cellKey 0 10, cell10 2)], set10, cell10 2, by dsimp only; decide⟩,
    ⟨0, frame 1 1, [], tile0 (frame 1 1) [set10] [(cellKey 0 10, cell10 2)], CellEcc.sramUe, by dsimp only; decide⟩,
    ⟨31, frame 1 1, set10, (tile0 (frame 1 1) [set10] []).dev, by dsimp only; decide⟩⟩

theorem meets_TileChecks :
    (∃ (tile : Nat) (s : State), (s.dev.op.running = true ∨ s.dev.op = .config) ∧ s.dev.tileOk tile s.fuse = true ∧ (s.dev.tile tile).kat = 0) ∧
    (∃ (tile : Nat) (s : State), (s.dev.op.running = true ∨ s.dev.op = .config) ∧ s.dev.tileOk tile s.fuse = true ∧ (s.dev.tile tile).kat ≠ 0) ∧
    (∃ (h : CmdHdr) (tile : Nat) (s : State), s.dev.Admits h 0x28 [] true legalCRD ∧ s.fuse.part.tiles ≤ tile) ∧
    (∃ (h : CmdHdr) (tile : Nat) (s : State), s.dev.Admits h 0x28 [] true legalCRD ∧ tile < s.fuse.part.tiles ∧ s.dev.tileOk tile s.fuse = false) ∧
    (∃ (h : CmdHdr) (tile : Nat) (s : State), s.dev.Admits h 0x28 [] true legalCRD ∧ s.dev.tileOk tile s.fuse = true) :=
  ⟨⟨31, st .config, by decide⟩,
    ⟨0, (st .run |> on (Dev.setTile 0 { TileS.new with kat := 1 })), by decide⟩,
    ⟨hdr, 32, st .run, by unfold Dev.Admits; decide⟩,
    ⟨hdr, 31, (st .run |> on (Dev.setTile 31 { TileS.new with cause := 1 })), by unfold Dev.Admits; decide⟩,
    ⟨hdr, 31, st .run, by unfold Dev.Admits; decide⟩⟩

theorem meets_AFailedTileHomesNothing :
    ∃ (fz : Fuse) (tile cause : Nat) (d : Dev), cause ≠ 0 ∧ d.tileOk tile fz = true :=
  ⟨Fuse.default, 31, 1, (st .run).dev, by decide⟩

theorem meets_Phasors :
    (∃ s : State, s.dev.op.alarm = true ∧ s.dev.phx.round + s.dev.roundNs ≤ s.dev.raw) ∧
    (∃ (ch : Nat) (s : State), let x := s.dev.phxCh ch; let at_ : Int := (gridNs x.nextM * 65536 : Nat); s.dev.op.alarm = true ∧ s.dev.op.running = false ∧ chEn s.dev.act ch = true ∧ at_ + winTime 1 x.ft / 2 + rsDelay x.rate ≤ s.dev.t16 ∧ (s.dev.noInput ch = true ∨ s.dev.phxShed ch 1 = true ∨ x.settles 1 at_ = true ∨ x.complete 1 at_ = true)) ∧
    (∃ (ch cls : Nat) (s : State), s.dev.op.alarm = true ∧ chEn s.dev.act ch = true ∧ cls < 2) ∧
    (∃ (ch : Nat) (x : Sample) (s : State), let d := s.dev.setPhx ch { s.dev.phxCh ch with detN := x.n + 1 }; s.dev.op.alarm = true ∧ chEn s.dev.act ch = true ∧ chAj s.dev.act ch = true ∧ (s.dev.phxCh ch).hist.reverse.find? (fun y => decide ((s.dev.phxCh ch).detN ≤ y.n) && !y.filled) = some x) ∧
    (∃ (ch u : Nat) (s : State), (s.dev.phxCh ch).aj.till = some u ∧ u ≤ s.dev.raw) ∧
    (∃ (ch u : Nat) (s : State), (s.dev.phxCh ch).rf.till = some u ∧ u ≤ s.dev.raw) ∧
    (∃ (ch need : Nat) (s : State), let x := s.dev.phxCh ch; let last : Int := (gridNs x.nextP * 65536 : Nat) + winTime 0 x.ft / 2 + rsDelay x.rate; s.dev.op.alarm = true ∧ chEn s.dev.act ch = true ∧ last + 65536000000 ≤ s.dev.t16 ∧ need = (last * (x.rate : Int) / 65536000000000).toNat ∧ (match x.hist.head? with | some y => y.n | none => 0) < need) ∧
    (∃ (lane : Nat) (s : State), lane < 8 ∧ s.dev.phx.failed.contains lane = false ∧ (s.dev.op.running = true ∨ s.dev.op = .config) ∧ KMap.getD s.dev.phx.kat lane 0 = 0) ∧
    (∃ (lane : Nat) (s : State), lane < 8 ∧ s.dev.phx.failed.contains lane = false ∧ (s.dev.op.running = true ∨ s.dev.op = .config) ∧ 1 ≤ KMap.getD s.dev.phx.kat lane 0) ∧
    (∃ (h : CmdHdr) (ch : Nat) (s : State), s.dev.Admits h 0x30 [] true legalCRD ∧ s.dev.resyncArg s.fuse ch = false) ∧
    (∃ (h : CmdHdr) (ch : Nat) (s : State), s.dev.Admits h 0x30 [] true legalCRD ∧ ch < s.fuse.part.channels ∧ chEn s.dev.act ch = true ∧ (s.dev.phxCh ch).aj.till = none ∧ (s.dev.phxCh ch).rf.till = none ∧ (s.dev.phxCh ch).trP ≠ s.dev.t16) ∧
    (∃ (h : CmdHdr) (s : State), s.dev.Admits h 0x30 [] true legalCRD) :=
  ⟨⟨st .holdup, by decide⟩,
    ⟨0, (st .holdup |> table 0x2A0000 1 |> on (Dev.setPhx 0 ch50)), by dsimp only; decide⟩,
    ⟨0, 1, (st .run |> table 0x2A0000 1 |> on (Dev.setPhx 0 ch50)), by decide⟩,
    ⟨0, ⟨1, 0, false, false, 0⟩, (st .run |> table 0x2A0000 5 |> on (Dev.setPhx 0 { ch50 with hist := [⟨1, 0, false, false, 0⟩] })), by dsimp only; decide⟩,
    ⟨0, 100000000000000, (st .run |> table 0x2A0000 1 |> on (Dev.setPhx 0 { ch50 with aj := { armed := false, till := some 100000000000000, val := 0 } })), by decide⟩,
    ⟨0, 100000000000000, (st .run |> table 0x2A0000 1 |> on (Dev.setPhx 0 { ch50 with rf := { armed := false, till := some 100000000000000, val := 0 } })), by decide⟩,
    ⟨0, 92, (st .run |> table 0x2A0000 1 |> on (Dev.setPhx 0 ch50)), by dsimp only; decide⟩,
    ⟨7, st .config, by decide⟩,
    ⟨7, (st .run |> on (fun d => { d with phx := { d.phx with kat := [(7, 1)] } })), by decide⟩,
    ⟨hdr, 512, st .run, by unfold Dev.Admits; decide⟩,
    ⟨hdr, 511, (st .run |> table 0x2A3FE0 1), by unfold Dev.Admits; decide⟩,
    ⟨hdr, st .run, by unfold Dev.Admits; decide⟩⟩

theorem meets_SafelightCommits :
    (∃ (h : CmdHdr) (p : CommitArgs) (s : State), s.dev.Admits h 0x40 [] true legalCRD ∧ p.mode ≤ 1 ∧ ((p.mode = 1 → s.dev.op = .config ∨ s.dev.badInstant s.dev.sflEarliest (commitInstant p) = false)) ∧ s.dev.sfl.pend = none) ∧
    (∃ (h : CmdHdr) (p : CommitArgs) (s : State), s.dev.Admits h 0x40 [] true legalCRD ∧ p.mode ≤ 1 ∧ ((p.mode = 1 → s.dev.op = .config ∨ s.dev.badInstant s.dev.sflEarliest (commitInstant p) = false)) ∧ s.dev.sfl.pend.isSome = true) ∧
    (∃ (h : CmdHdr) (p : CommitArgs) (s : State), s.dev.Admits h 0x40 [] true legalCRD ∧ (1 < p.mode ∨ (p.mode = 1 ∧ s.dev.op ≠ .config ∧ s.dev.badInstant s.dev.sflEarliest (commitInstant p) = true))) ∧
    (∃ (h : CmdHdr) (p : PendCommit) (s : State), s.dev.Admits h 0x41 [] true legalCRD ∧ s.dev.sfl.pend = some p) ∧
    (∃ (h : CmdHdr) (s : State), s.dev.Admits h 0x42 [] true legalCRD ∧ s.dev.sfl.pend = none) ∧
    (∃ (p : PendCommit) (s : State), ∃ obj reason, s.dev.sfl.pend = some p ∧ p.validating = true ∧ legalCRD.contains s.dev.op = true ∧ sflValidate s.fuse p.snap = some (obj, reason)) ∧
    (∃ (p : PendCommit) (s : State), ∃ inst, s.dev.sfl.pend = some p ∧ p.validating = true ∧ legalCRD.contains s.dev.op = true ∧ sflValidate s.fuse p.snap = none ∧ s.dev.op.running = true ∧ inst = (if p.args.mode = 1 then commitInstant p.args else s.dev.sflEarliest) ∧ s.dev.badInstant s.dev.sflEarliest inst = false) ∧
    (∃ (p : PendCommit) (s : State), s.dev.sfl.pend = some p ∧ p.validating = true ∧ legalCRD.contains s.dev.op = true ∧ sflValidate s.fuse p.snap = none ∧ s.dev.op = .config) ∧
    (∃ (p : PendCommit) (s : State), s.dev.sfl.pend = some p ∧ p.validating = false ∧ legalCRD.contains s.dev.op = true ∧ p.inst ≤ s.dev.tick) :=
  ⟨⟨hdr, ⟨0, 0, 0⟩, st .run, by unfold Dev.Admits; decide⟩,
    ⟨hdr, ⟨1, 0, 0⟩, (st .config |> on (fun d => { d with sfl := { d.sfl with pend := some ⟨hdr, ⟨0, 0, 0⟩, [], true, 0, []⟩ } })), by unfold Dev.Admits; decide⟩,
    ⟨hdr, ⟨1, 0, 0⟩, st .run, by unfold Dev.Admits; decide⟩,
    ⟨hdr, ⟨hdr, ⟨0, 0, 0⟩, [], true, 0, []⟩, (st .run |> on (fun d => { d with sfl := { d.sfl with pend := some ⟨hdr, ⟨0, 0, 0⟩, [], true, 0, []⟩ } })), by unfold Dev.Admits; decide⟩,
    ⟨hdr, st .run, by unfold Dev.Admits; decide⟩,
    ⟨⟨hdr, ⟨0, 0, 0⟩, [(0x2C0000, 0x1)], true, 0, []⟩, (st .run |> on (fun d => { d with sfl := { d.sfl with pend := some ⟨hdr, ⟨0, 0, 0⟩, [(0x2C0000, 0x1)], true, 0, []⟩ } })), 0, 4, by decide⟩,
    ⟨⟨hdr, ⟨0, 0, 0⟩, [], true, 0, []⟩, (st .run |> on (fun d => { d with sfl := { d.sfl with pend := some ⟨hdr, ⟨0, 0, 0⟩, [], true, 0, []⟩ } })), (st .run).dev.sflEarliest, by decide⟩,
    ⟨⟨hdr, ⟨0, 0, 0⟩, [], true, 0, []⟩, (st .config |> on (fun d => { d with sfl := { d.sfl with pend := some ⟨hdr, ⟨0, 0, 0⟩, [], true, 0, []⟩ } })), by decide⟩,
    ⟨⟨hdr, ⟨0, 0, 0⟩, [], false, 100000000000000, []⟩, (st .run |> on (fun d => { d with sfl := { d.sfl with pend := some ⟨hdr, ⟨0, 0, 0⟩, [], false, 100000000000000, []⟩ } })), by decide⟩⟩

theorem meets_SafelightClearsAndTimes :
    (∃ (h : CmdHdr) (rule : Nat) (s : State), s.dev.Admits h 0x43 [] true legalCRD ∧ 4095 < rule) ∧
    (∃ (h : CmdHdr) (rule : Nat) (s : State), s.dev.Admits h 0x43 [] true legalCRD ∧ rule ≤ 4095 ∧ s.dev.clearable rule = false) ∧
    (∃ (h : CmdHdr) (rule : Nat) (s : State), s.dev.Admits h 0x43 [] true legalCRD ∧ rule ≤ 4095 ∧ s.dev.clearable rule = true) ∧
    (∃ (h : CmdHdr) (s : State), s.dev.Admits h 0x43 [] true legalCRD) ∧
    (∃ (h : CmdHdr) (n : Nat) (s : State), s.dev.Admits h 0x43 [] true legalCRD ∧ 7 < n) ∧
    (∃ (h : CmdHdr) (n : Nat) (s : State), s.dev.Admits h 0x43 [] true legalCRD ∧ n ≤ 7) ∧
    (∃ (v : Word) (s : State), s.dev.writable = true ∧ v.bit 0 = true) ∧
    (∃ (n u : Nat) (s : State), n < 8 ∧ (s.dev.alm n).pulseEnd = some u ∧ u ≤ s.dev.raw) ∧
    (∃ (n : Nat) (s : State), n < 8 ∧ (s.dev.alm n).turnOn.isSome = true) ∧
    (∃ (n u : Nat) (s : State), (s.dev.alm n).retryAt = some u ∧ u ≤ s.dev.raw ∧ (s.dev.alm n).drive = true) ∧
    (∃ (m : AlarmMsg) (gap : Nat) (s : State), let d : Dev := { s.dev with sfl := { s.dev.sfl with interval := gap, nextTx := s.dev.raw + gap } }; let sq := s.dev.reg Reg.SFL_GOOSE_SQNUM + 1; s.dev.sfl.msg = some m ∧ s.dev.sfl.nextTx ≤ s.dev.raw ∧ (s.dev.op.alarm = true ∨ s.dev.op = .config) ∧ gap = min (2 * s.dev.sfl.interval) (clampNat 100 60000 (s.dev.fld Reg.SFL_GOOSE 16 16) * 1000000)) ∧
    (∃ (n u : Nat) (s : State), KMap.get? s.dev.sfl.tevHold n = some u ∧ u ≤ s.dev.raw) :=
  ⟨⟨hdr, 4096, st .run, by unfold Dev.Admits; decide⟩,
    ⟨hdr, 4095, st .run, by unfold Dev.Admits; decide⟩,
    ⟨hdr, 0, (st .run |> table 0x2C0000 0x201 |> on (fun d => { d with sfl := { d.sfl with rules := [(0, { RuleS.new with st := 1 })] } })), by unfold Dev.Admits; decide⟩,
    ⟨hdr, st .run, by unfold Dev.Admits; decide⟩,
    ⟨hdr, 8, st .run, by unfold Dev.Admits; decide⟩,
    ⟨hdr, 7, st .run, by unfold Dev.Admits; decide⟩,
    ⟨1, st .config, by decide⟩,
    ⟨7, 100000000000000, (st .run |> on (Dev.setAlm 7 { AlmS.new with pulseEnd := some 100000000000000 })), by decide⟩,
    ⟨7, (st .run |> on (Dev.setAlm 7 { AlmS.new with turnOn := some 0 })), by decide⟩,
    ⟨7, 100000000000000, (st .run |> on (Dev.setAlm 7 { AlmS.new with retryAt := some 100000000000000, drive := true })), by decide⟩,
    ⟨⟨0, 0, 0, 0, 0, 0, 0, 0, 0, [], []⟩, 0, (st .config |> on (fun d => { d with sfl := { d.sfl with msg := some ⟨0, 0, 0, 0, 0, 0, 0, 0, 0, [], []⟩ } })), by dsimp only; decide⟩,
    ⟨0, 0, (st .run |> on (fun d => { d with sfl := { d.sfl with tevHold := [(0, 0)] } })), by decide⟩⟩

theorem meets_SafelightPassesAndLanes :
    (∃ (faults : List (Nat × Nat)) (reads : List (Nat × CellFault)) (s : State), s.dev.op.alarm = true ∧ s.dev.sfl.passes ≠ []) ∧
    (∃ (faults : List (Nat × Nat)) (reads : List (Nat × CellFault)) (s : State), (s.dev.op.alarm = false ∨ s.dev.sfl.passes = [])) ∧
    (∃ (rc k : Nat) (s : State), s.dev.op.alarm = true ∧ s.dev.sfl.sets.any (fun x => x.loc && x.rc == rc && x.k == k) = true ∧ ((slotNs (rateOf rc) (k + 1) : Nat) : Int) ≤ s.dev.tick) ∧
    (∃ (lane : Nat) (s : State), let failed : Dev := { s.dev with sfl := { s.dev.sfl with katRun := KMap.put s.dev.sfl.katRun lane (KMap.getD s.dev.sfl.katRun lane 0 + 1) } }; s.dev.laneIn lane = true ∧ s.dev.lanesLive = true ∧ KMap.getD s.dev.sfl.katRun lane 0 = 0) ∧
    (∃ (lane : Nat) (s : State), let failed : Dev := { s.dev with sfl := { s.dev.sfl with katRun := KMap.put s.dev.sfl.katRun lane (KMap.getD s.dev.sfl.katRun lane 0 + 1) } }; s.dev.laneIn lane = true ∧ s.dev.lanesLive = true ∧ 1 ≤ KMap.getD s.dev.sfl.katRun lane 0 ∧ s.dev.laneIn (1 - lane) = true) ∧
    (∃ (lane : Nat) (s : State), let failed : Dev := { s.dev with sfl := { s.dev.sfl with katRun := KMap.put s.dev.sfl.katRun lane (KMap.getD s.dev.sfl.katRun lane 0 + 1) } }; s.dev.laneIn lane = true ∧ s.dev.lanesLive = true ∧ 1 ≤ KMap.getD s.dev.sfl.katRun lane 0 ∧ s.dev.laneIn (1 - lane) = false) ∧
    (∃ (a b : Bool) (s : State), let d : Dev := { s.dev with sfl := { s.dev.sfl with disagree := none } }; s.dev.sfl.disagree.isSome = true ∧ s.dev.lanesLive = true) ∧
    (∃ (a b : Bool) (s : State), let d : Dev := { s.dev with sfl := { s.dev.sfl with testing := [] } }; s.dev.sfl.testing.isEmpty = false ∧ s.dev.lanesLive = true) ∧
    (∃ (h : CmdHdr) (a b : Bool) (s : State) (c : Instr), s.dev.Admits h 0x44 [] true [.run, .degraded] ∧ s.dev.laneOut = true ∧ (c = .sflLaneTest h a b ∨ c = .sflLaneTestInvert h)) ∧
    (∃ (h : CmdHdr) (a b : Bool) (s : State), s.dev.Admits h 0x44 [] true [.run, .degraded] ∧ s.dev.laneOut = false) ∧
    (∃ (v : CohResult) (s : State), s.dev.dns.vec = some v ∧ s.dev.op.running = true ∧ (((v.sec + 1 : Nat) : Int) * 1000000000) ≤ s.dev.tick ∧ s.dev.tooNear (((v.sec + 1 : Nat) : Int) * 1000000000) = false) ∧
    (∃ (v : CohResult) (s : State), s.dev.dns.vec = some v ∧ s.dev.op.running = true ∧ (((v.sec + 1 : Nat) : Int) * 1000000000) ≤ s.dev.tick ∧ s.dev.tooNear (((v.sec + 1 : Nat) : Int) * 1000000000) = true) :=
  ⟨⟨[], [(0, ⟨0, .spillUe 0⟩)], (st .run |> on (fun d => { d with sfl := { d.sfl with passes := [⟨0, 10, true, [], 0, true, true⟩] } })), by decide⟩,
    ⟨[], [], st .holdup, by decide⟩,
    ⟨0, 10, (st .run |> on (fun d => { d with sfl := { d.sfl with sets := [⟨0, 10, true, [], [], [], none⟩] } })), by decide⟩,
    ⟨1, st .config, by dsimp only; decide⟩,
    ⟨1, (st .run |> on (fun d => { d with sfl := { d.sfl with katRun := [(1, 1)] } })), by dsimp only; decide⟩,
    ⟨1, (st .run |> on (fun d => { d with sfl := { d.sfl with katRun := [(1, 1)], laneA := false } })), by dsimp only; decide⟩,
    ⟨true, false, (st .run |> on (fun d => { d with sfl := { d.sfl with disagree := some 0 } })), by dsimp only; decide⟩,
    ⟨true, false, (st .run |> on (fun d => { d with sfl := { d.sfl with testing := [0] } })), by dsimp only; decide⟩,
    ⟨hdr, true, true, (st .run |> on (fun d => { d with sfl := { d.sfl with laneB := false } })), .sflLaneTestInvert hdr, by unfold Dev.Admits; decide⟩,
    ⟨hdr, true, true, st .run, by unfold Dev.Admits; decide⟩,
    ⟨⟨98999, []⟩, (st .run |> on (fun d => { d with dns := { d.dns with vec := some ⟨98999, []⟩ } })), by decide⟩,
    ⟨⟨99999, []⟩, (st .run |> on (fun d => { d with dns := { d.dns with vec := some ⟨99999, []⟩ }, sfl := { d.sfl with inst := 99999999000000 } })), by decide⟩⟩

theorem meets_RulesPersistAndDrop :
    (∃ (p q : Nat) (res : Option Bool) (x : RuleS), x.st = 1) ∧
    (∃ (p q n : Nat) (latch : Bool) (x : RuleS), x.st ≠ 1 ∧ x.acount = 0 ∧ 1 ≤ p ∧ p ≤ 255 ∧ n ≤ p) ∧
    (∃ (p q n : Nat) (x : RuleS), x.st = 1 ∧ x.dcount = 0 ∧ 1 ≤ q ∧ q ≤ 255 ∧ n ≤ q) :=
  ⟨⟨1, 1, some false, { RuleS.new with st := 1 }, by decide⟩,
    ⟨255, 1, 255, true, RuleS.new, by decide⟩,
    ⟨1, 255, 255, { RuleS.new with st := 1 }, by decide⟩⟩

theorem meets_Densitometer :
    (∃ s : State, s.dev.dnsRuns = true ∧ s.dev.instantReady (s.dev.dns.m * 1000000000 / s.dev.aRate) = true ∧ s.dev.dns.paused = none) ∧
    (∃ s : State, s.dev.op.running = true ∧ s.dev.coresIn ≠ 0 ∧ s.dev.dnsTarget ≠ 4 ∧ s.dev.dns.level = s.dev.dnsTarget ∧ ((s.dev.nextRefresh * 200000000 : Nat) : Int) ≤ s.dev.tick ∧ (s.dev.idEn = false ∨ s.dev.dns.paused.isSome = true)) ∧
    (∃ s : State, s.dev.op.running = true ∧ s.dev.coresIn ≠ 0 ∧ s.dev.dnsTarget ≠ 4 ∧ s.dev.dns.level = s.dev.dnsTarget ∧ ((s.dev.nextRefresh * 200000000 : Nat) : Int) ≤ s.dev.tick ∧ s.dev.idEn = true ∧ s.dev.dns.paused = none) ∧
    (∃ (p : DnsPub) (s : State), s.dev.dns.pend = some p ∧ s.dev.dnsRuns = true) ∧
    (∃ s : State, s.dev.dnsRuns = true ∧ s.dev.idEn = true ∧ s.dev.rbit Reg.DNS_CTRL 3 = true ∧ s.dev.dns.foDue ≤ s.dev.tick) ∧
    (∃ (k : Nat) (s : State), let full := s.dev.dns.cohAt ≤ ((k : Int) - (clampNat 2 60 (s.dev.fld Reg.DNS_COH 0 6) : Int)) * 1000000000; s.dev.dnsRuns = true ∧ s.dev.rbit Reg.DNS_CTRL 4 = true ∧ k = s.dev.dns.cohSec + 1 ∧ ((k * 1000000000 : Nat) : Int) ≤ s.dev.tick ∧ (¬full) ∧ k * s.dev.aRate < s.dev.dns.m) ∧
    (∃ (k : Nat) (s : State), let full := s.dev.dns.cohAt ≤ ((k : Int) - (clampNat 2 60 (s.dev.fld Reg.DNS_COH 0 6) : Int)) * 1000000000; s.dev.dnsRuns = true ∧ s.dev.rbit Reg.DNS_CTRL 4 = true ∧ k = s.dev.dns.cohSec + 1 ∧ ((k * 1000000000 : Nat) : Int) ≤ s.dev.tick ∧ full ∧ ((k * 1000000000 + 900000000 : Nat) : Int) < s.dev.tick) ∧
    (∃ (k : Nat) (s : State), let full := s.dev.dns.cohAt ≤ ((k : Int) - (clampNat 2 60 (s.dev.fld Reg.DNS_COH 0 6) : Int)) * 1000000000; s.dev.dnsRuns = true ∧ s.dev.rbit Reg.DNS_CTRL 4 = true ∧ k = s.dev.dns.cohSec + 1 ∧ ((k * 1000000000 : Nat) : Int) ≤ s.dev.tick ∧ full ∧ s.dev.tick ≤ ((k * 1000000000 + 900000000 : Nat) : Int) ∧ k * s.dev.aRate < s.dev.dns.m) ∧
    (∃ (core : Nat) (s : State), ∃ pass : Bool, core < 16 ∧ s.dev.dns.failed.contains core = false ∧ (s.dev.op.running = true ∨ s.dev.op = .config)) ∧
    (∃ (core : Nat) (s : State), core < 16 ∧ s.dev.dns.failed.contains core = false ∧ (s.dev.op.running = true ∨ s.dev.op = .config) ∧ KMap.getD s.dev.dns.kat core 0 = 0) ∧
    (∃ (core : Nat) (s : State), core < 16 ∧ s.dev.dns.failed.contains core = false ∧ (s.dev.op.running = true ∨ s.dev.op = .config) ∧ 1 ≤ KMap.getD s.dev.dns.kat core 0) ∧
    (∃ s : State, s.dev.dns.warming = true ∧ s.dev.dns.idAt + (s.dev.warmupS * 1000000000 : Nat) ≤ s.dev.tick) ∧
    (∃ (h : CmdHdr) (mask : Nat) (s : State), s.dev.Admits h 0x50 [] true [.run, .degraded] ∧ mask % 8 = 0) ∧
    (∃ (h : CmdHdr) (mask : Nat) (s : State), s.dev.Admits h 0x50 [] true [.run, .degraded] ∧ mask.testBit 0 = true) ∧
    (∃ (h : CmdHdr) (mask : Nat) (s : State), s.dev.Admits h 0x50 [] true [.run, .degraded] ∧ mask % 8 ≠ 0) ∧
    (∃ (h : CmdHdr) (core : Nat) (s : State), s.dev.Admits h 0x51 [] true legalCRD ∧ 15 < core) ∧
    (∃ (h : CmdHdr) (core : Nat) (s : State), s.dev.Admits h 0x51 [] true legalCRD ∧ core ≤ 15 ∧ s.dev.dns.failed.contains core = true) ∧
    (∃ (h : CmdHdr) (core : Nat) (s : State), s.dev.Admits h 0x51 [] true legalCRD ∧ core ≤ 15 ∧ s.dev.dns.failed.contains core = false) :=
  ⟨⟨dns id, by decide⟩,
    ⟨(dns id |> put Reg.DNS_CTRL 0), by decide⟩,
    ⟨dns id, by decide⟩,
    ⟨⟨[], 0, 0, []⟩, dns (fun x => { x with pend := some ⟨[], 0, 0, []⟩ }), by decide⟩,
    ⟨dns id, by decide⟩,
    ⟨1, dns (fun x => { x with cohAt := 1, m := 100000000 }), by dsimp only; decide⟩,
    ⟨99999, dns (fun x => { x with cohSec := 99998 }), by dsimp only; decide⟩,
    ⟨100000, dns (fun x => { x with cohSec := 99999, m := 100000000 }), by dsimp only; decide⟩,
    ⟨15, st .config, true, by decide⟩,
    ⟨15, st .config, by decide⟩,
    ⟨15, dns (fun x => { x with kat := [(15, 1)] }), by decide⟩,
    ⟨dns (fun x => { x with warming := true }), by decide⟩,
    ⟨hdr, 8, st .run, by unfold Dev.Admits; decide⟩,
    ⟨hdr, 1, st .run, by unfold Dev.Admits; decide⟩,
    ⟨hdr, 2, st .run, by unfold Dev.Admits; decide⟩,
    ⟨hdr, 16, st .run, by unfold Dev.Admits; decide⟩,
    ⟨hdr, 15, dns (fun x => { x with failed := [15] }), by unfold Dev.Admits; decide⟩,
    ⟨hdr, 15, st .run, by unfold Dev.Admits; decide⟩⟩

theorem meets_Shutter :
    (∃ (e : ShtEv) (rest : List ShtEv) (s : State), s.dev.sht.evs = e :: rest ∧ s.dev.op.running = false) ∧
    (∃ (e : ShtEv) (rest : List ShtEv) (s : State), ∃ k, s.dev.sht.evs = e :: rest ∧ s.dev.op.running = true ∧ e.g < 16 ∧ (s.dev.grp e.g).st = 1 ∧ s.dev.freeSlot e.g = some k) ∧
    (∃ (e : ShtEv) (rest : List ShtEv) (s : State), s.dev.sht.evs = e :: rest ∧ s.dev.op.running = true ∧ e.g < 16 ∧ (s.dev.grp e.g).st = 1 ∧ s.dev.freeSlot e.g = none) ∧
    (∃ (g : Nat) (c : Capture) (s : State), s.dev.recording g = some c ∧ (s.dev.grp g).st = 2 ∧ c.endT ≤ s.dev.t16) ∧
    (∃ (g : Nat) (c : Capture) (s : State), s.dev.recording g = some c ∧ (s.dev.grp g).st = 3 ∧ c.endT + closeWait (s.dev.grp g).tab g ≤ s.dev.t16 ∧ s.dev.looksDone c = true) ∧
    (∃ (g : Nat) (c : Capture) (s : State), s.dev.recording g = some c ∧ s.dev.t16 < c.endT) ∧
    (∃ (g : Nat) (s : State), (s.dev.grp g).st = 4 ∧ s.dev.holdOver g = true) ∧
    (∃ (g k : Nat) (s : State), (s.dev.grp g).st = 5 ∧ s.dev.freeSlot g = some k) ∧
    (∃ (g fails : Nat) (c : Capture) (s : State), s.dev.filling g = some c ∧ s.dev.sht.p4shed = true) ∧
    (∃ (g fails : Nat) (c : Capture) (s : State), s.dev.filling g = some c ∧ s.dev.sht.p4shed = false ∧ (s.dev.op.running = true ∨ s.dev.op = .config) ∧ (c.code = 0 ∨ s.dev.clientTurn 0 = true)) ∧
    (∃ (h : CmdHdr) (g : Nat) (s : State), s.dev.Admits h 0x60 [] true [.run, .degraded] ∧ 15 < g) ∧
    (∃ (h : CmdHdr) (g : Nat) (s : State), s.dev.Admits h 0x60 [] true [.run, .degraded] ∧ g ≤ 15 ∧ (gEn s.dev.act g = false ∨ ((s.dev.grp g).st ≠ 0 ∧ (s.dev.grp g).st ≠ 6))) ∧
    (∃ (h : CmdHdr) (g : Nat) (s : State), s.dev.Admits h 0x60 [] true [.run, .degraded] ∧ g ≤ 15 ∧ gEn s.dev.act g = true ∧ (s.dev.grp g).st = 6) ∧
    (∃ (h : CmdHdr) (g : Nat) (s : State), s.dev.Admits h 0x60 [] true [.run, .degraded] ∧ g ≤ 15 ∧ gEn s.dev.act g = true ∧ (s.dev.grp g).st = 0) ∧
    (∃ (h : CmdHdr) (g : Nat) (s : State), s.dev.Admits h 0x61 [] true [.run, .degraded] ∧ 15 < g) ∧
    (∃ (h : CmdHdr) (g : Nat) (s : State), s.dev.Admits h 0x61 [] true [.run, .degraded] ∧ g ≤ 15 ∧ (s.dev.grp g).st = 0) ∧
    (∃ (h : CmdHdr) (g : Nat) (s : State), s.dev.Admits h 0x61 [] true [.run, .degraded] ∧ g ≤ 15 ∧ (s.dev.grp g).st ≠ 0) ∧
    (∃ (h : CmdHdr) (g : Nat) (s : State), s.dev.Admits h 0x62 [] true [.run, .degraded] ∧ 15 < g) ∧
    (∃ (h : CmdHdr) (g : Nat) (s : State), s.dev.Admits h 0x62 [] true [.run, .degraded] ∧ g ≤ 15 ∧ ((s.dev.grp g).st = 0 ∨ (s.dev.grp g).st = 6 ∨ (gW (s.dev.grp g).tab g 3).bit 11 = false)) ∧
    (∃ (h : CmdHdr) (g : Nat) (s : State), s.dev.Admits h 0x62 [] true [.run, .degraded] ∧ g ≤ 15 ∧ (s.dev.grp g).st ≠ 0 ∧ (s.dev.grp g).st ≠ 6 ∧ (gW (s.dev.grp g).tab g 3).bit 11 = true) ∧
    (∃ (h : CmdHdr) (id off len addr : Nat) (e : Option Nat) (s : State), s.dev.Admits h 0x63 [] true legalCRD ∧ s.dev.capById id = none) ∧
    (∃ (h : CmdHdr) (id off len addr : Nat) (e : Option Nat) (s : State), ∃ c, s.dev.Admits h 0x63 [] true legalCRD ∧ s.dev.capById id = some c ∧ 4 ≤ len ∧ len ≤ 4194304 ∧ len % 4 = 0 ∧ c.st ≠ 3) ∧
    (∃ (h : CmdHdr) (id off len addr : Nat) (e : Option Nat) (s : State), ∃ c, s.dev.Admits h 0x63 [] true legalCRD ∧ s.dev.capById id = some c ∧ 4 ≤ len ∧ len ≤ 4194304 ∧ len % 4 = 0 ∧ c.st = 3 ∧ c.bytes < off + len) ∧
    (∃ (h : CmdHdr) (id off len addr : Nat) (e : Option Nat) (s : State), ∃ c, s.dev.Admits h 0x63 [] true legalCRD ∧ s.dev.capById id = some c ∧ 4 ≤ len ∧ len ≤ 4194304 ∧ len % 4 = 0 ∧ c.st = 3 ∧ off + len ≤ c.bytes ∧ e = none) ∧
    (∃ (h : CmdHdr) (id off len addr : Nat) (e : Option Nat) (s : State), ∃ c, ∃ n, s.dev.Admits h 0x63 [] true legalCRD ∧ s.dev.capById id = some c ∧ 4 ≤ len ∧ len ≤ 4194304 ∧ len % 4 = 0 ∧ c.st = 3 ∧ off + len ≤ c.bytes ∧ e = some n) ∧
    (∃ (h : CmdHdr) (id : Nat) (s : State), s.dev.Admits h 0x64 [] true legalCRD ∧ s.dev.capById id = none) ∧
    (∃ (h : CmdHdr) (id : Nat) (s : State), ∃ c, s.dev.Admits h 0x64 [] true legalCRD ∧ s.dev.capById id = some c ∧ c.st ≠ 3) ∧
    (∃ (h : CmdHdr) (id : Nat) (s : State), ∃ c, s.dev.Admits h 0x64 [] true legalCRD ∧ s.dev.capById id = some c ∧ c.st = 3) :=
  ⟨⟨⟨0, 0, 0, 0, none⟩, [], (st .config |> on (fun d => { d with sht := { d.sht with evs := [⟨0, 0, 0, 0, none⟩] } })), by decide⟩,
    ⟨⟨0, 0, 0, 0, none⟩, [], (group0 .run 1 [] |> on (fun d => { d with sht := { d.sht with evs := [⟨0, 0, 0, 0, none⟩] } })), 0, by decide⟩,
    ⟨⟨0, 0, 0, 0, none⟩, [], (group0 .run 1 ((List.range 64).map (fun k => { cap 3 with slot := k })) |> on (fun d => { d with sht := { d.sht with evs := [⟨0, 0, 0, 0, none⟩] } })), by decide⟩,
    ⟨0, cap 1, group0 .run 2 [cap 1], by decide⟩,
    ⟨0, { cap 1 with endT := 0 }, group0 .run 3 [{ cap 1 with endT := 0 }], by decide⟩,
    ⟨0, { cap 1 with endT := 6553600000000000001 }, group0 .run 2 [{ cap 1 with endT := 6553600000000000001 }], by decide⟩,
    ⟨0, group0 .run 4 [], by decide⟩,
    ⟨0, 0, group0 .run 5 [], by decide⟩,
    ⟨0, 0, cap 2, (group0 .run 1 [cap 2] |> on (fun d => { d with sht := { d.sht with p4shed := true } })), by decide⟩,
    ⟨0, 0, cap 2, group0 .config 1 [cap 2], by decide⟩,
    ⟨hdr, 16, st .run, by unfold Dev.Admits; decide⟩,
    ⟨hdr, 15, st .run, by unfold Dev.Admits; decide⟩,
    ⟨hdr, 0, (group0 .run 6 [] |> table 0x340000 1), by unfold Dev.Admits; decide⟩,
    ⟨hdr, 0, (group0 .run 0 [] |> table 0x340000 1), by unfold Dev.Admits; decide⟩,
    ⟨hdr, 16, st .run, by unfold Dev.Admits; decide⟩,
    ⟨hdr, 15, st .run, by unfold Dev.Admits; decide⟩,
    ⟨hdr, 0, group0 .run 1 [], by unfold Dev.Admits; decide⟩,
    ⟨hdr, 16, st .run, by unfold Dev.Admits; decide⟩,
    ⟨hdr, 15, st .run, by unfold Dev.Admits; decide⟩,
    ⟨hdr, 0, group0 .run 1 [], by unfold Dev.Admits; decide⟩,
    ⟨hdr, 1, 0, 4, 0, none, st .run, by unfold Dev.Admits; decide⟩,
    ⟨hdr, 1, 0, 4, 0, some 0, group0 .run 1 [cap 2], cap 2, by unfold Dev.Admits; decide⟩,
    ⟨hdr, 1, 4294967292, 4, 0, none, group0 .run 1 [cap 3], cap 3, by unfold Dev.Admits; decide⟩,
    ⟨hdr, 1, 0, 4, 0, none, group0 .run 1 [cap 3], cap 3, by unfold Dev.Admits; decide⟩,
    ⟨hdr, 1, 0, 4, 0, some 3, group0 .run 1 [cap 3], cap 3, 3, by unfold Dev.Admits; decide⟩,
    ⟨hdr, 1, st .run, by unfold Dev.Admits; decide⟩,
    ⟨hdr, 1, group0 .run 1 [cap 2], cap 2, by unfold Dev.Admits; decide⟩,
    ⟨hdr, 1, group0 .run 1 [cap 3], cap 3, by unfold Dev.Admits; decide⟩⟩

theorem meets_SwageContexts :
    (∃ (h : CmdHdr) (ctx kind code label : Nat) (s : State), s.dev.Admits h 0x70 [] s.fuse.part.hasSwg legalCRD ∧ (3 < ctx ∨ 1 < kind ∨ code < 1 ∨ 6 < code)) ∧
    (∃ (h : CmdHdr) (ctx kind code label : Nat) (s : State), s.dev.Admits h 0x70 [] s.fuse.part.hasSwg legalCRD ∧ ctx ≤ 3 ∧ kind ≤ 1 ∧ 1 ≤ code ∧ code ≤ 6 ∧ s.dev.swgCtx ctx = SwgCtx.new) ∧
    (∃ (h : CmdHdr) (ctx addr len : Nat) (e : Bool) (s : State), s.dev.Admits h 0x71 [] s.fuse.part.hasSwg legalCRD ∧ ctx ≤ 3 ∧ addr % 4 = 0 ∧ len % 4 = 0 ∧ (if (s.dev.swgCtx ctx).kind = 0 then 1056 else 5152) ≤ len ∧ len ≤ 16777216 ∧ (s.dev.swgCtx ctx).st = 0) ∧
    (∃ (h : CmdHdr) (ctx addr len : Nat) (e : Bool) (s : State), s.dev.Admits h 0x71 [] s.fuse.part.hasSwg legalCRD ∧ ctx ≤ 3 ∧ addr % 4 = 0 ∧ len % 4 = 0 ∧ (if (s.dev.swgCtx ctx).kind = 0 then 1056 else 5152) ≤ len ∧ len ≤ 16777216 ∧ (s.dev.swgCtx ctx).st ≠ 0 ∧ 8 ≤ (s.dev.swgCtx ctx).bufs.length) ∧
    (∃ (h : CmdHdr) (ctx addr len : Nat) (e : Bool) (s : State), s.dev.Admits h 0x71 [] s.fuse.part.hasSwg legalCRD ∧ ctx ≤ 3 ∧ addr % 4 = 0 ∧ len % 4 = 0 ∧ (if (s.dev.swgCtx ctx).kind = 0 then 1056 else 5152) ≤ len ∧ len ≤ 16777216 ∧ (s.dev.swgCtx ctx).st ≠ 0 ∧ (s.dev.swgCtx ctx).bufs.length < 8 ∧ (s.dev.swgCtx ctx).coded = none) ∧
    (∃ (h : CmdHdr) (ctx addr count : Nat) (xs : List (List Word)) (e : Bool) (s : State), let x := s.dev.swgCtx ctx; s.dev.Admits h 0x72 [] s.fuse.part.hasSwg legalCRD ∧ ctx ≤ 3 ∧ addr % 4 = 0 ∧ 1 ≤ count ∧ count ≤ 1048576 ∧ xs.length ≤ count ∧ x.st = 1 ∧ x.cur = none ∧ x.wait = [] ∧ x.ready = none ∧ x.coded = none ∧ x.partial_.length + xs.length < 256) ∧
    (∃ (h : CmdHdr) (ctx : Nat) (s : State), let x := s.dev.swgCtx ctx; ctx ≤ 3 ∧ x.st = 1 ∧ x.cur = none ∧ x.wait = [] ∧ x.ready = none ∧ x.coded = none ∧ x.partial_ = [] ∧ s.dev.Admits h 0x73 [] s.fuse.part.hasSwg legalCRD) ∧
    (∃ (h : CmdHdr) (ctx : Nat) (s : State), let x := s.dev.swgCtx ctx; ctx ≤ 3 ∧ x.st = 1 ∧ x.cur = none ∧ x.wait = [] ∧ x.ready = none ∧ x.coded = none ∧ x.partial_ = [] ∧ s.dev.Admits h 0x74 [] s.fuse.part.hasSwg legalCRD) ∧
    (∃ (h : CmdHdr) (ctx : Nat) (s : State), s.dev.Admits h 0x74 [] s.fuse.part.hasSwg legalCRD ∧ ctx ≤ 3 ∧ (s.dev.swgCtx ctx).st = 0) ∧
    (∃ (h : CmdHdr) (ctx : Nat) (s : State), s.dev.Admits h 0x74 [] s.fuse.part.hasSwg legalCRD ∧ ctx ≤ 3 ∧ (s.dev.swgCtx ctx).st ≠ 0) ∧
    (∃ (n fails : Nat) (e : Bool) (s : State), n < 4 ∧ (s.dev.swgCtx n).ready = none) ∧
    (∃ (n fails : Nat) (e : Bool) (s : State), n < 4 ∧ (s.dev.swgCtx n).ready.isSome = true ∧ s.dev.sht.p4shed = false ∧ legalCRD.contains s.dev.op = true ∧ s.dev.clientTurn (n + 1) = true) :=
  ⟨⟨hdr, 4, 0, 1, 0, st .run, by unfold Dev.Admits; decide⟩,
    ⟨hdr, 3, 1, 6, 0, st .run, by unfold Dev.Admits; decide⟩,
    ⟨hdr, 0, 0, 1056, false, st .run, by unfold Dev.Admits; decide⟩,
    ⟨hdr, 0, 0, 1056, true, swg0 { SwgCtx.new with st := 1, bufs := List.replicate 8 ⟨hdr, 0, 1056, 0, 0⟩ }, by unfold Dev.Admits; decide⟩,
    ⟨hdr, 0, 0, 16777216, false, swg0 { SwgCtx.new with st := 1, code := 1 }, by unfold Dev.Admits; decide⟩,
    ⟨hdr, 0, 0, 1048576, [[]], true, swg0 { SwgCtx.new with st := 1, code := 1 }, by unfold Dev.Admits; dsimp only; decide⟩,
    ⟨hdr, 0, swg0 { SwgCtx.new with st := 1, code := 1 }, by unfold Dev.Admits; dsimp only; decide⟩,
    ⟨hdr, 0, swg0 { SwgCtx.new with st := 1, code := 1 }, by unfold Dev.Admits; dsimp only; decide⟩,
    ⟨hdr, 3, st .run, by unfold Dev.Admits; decide⟩,
    ⟨hdr, 0, swg0 { SwgCtx.new with st := 1, code := 1 }, by unfold Dev.Admits; decide⟩,
    ⟨3, 0, true, st .run, by decide⟩,
    ⟨0, 0, true, swg0 { SwgCtx.new with st := 1, ready := some (0, []) }, by decide⟩⟩

theorem meets_Braze :
    (∃ (f : BrzFrame) (s : State), let x := s.dev.peer f.port f.src; let mine := f.dst = s.dev.brzOwn ∨ (s.dev.isTwin = true ∧ f.dst = s.dev.brzPair); s.dev.brzRun = true ∧ s.dev.brzPortOn f.port = true ∧ (¬mine)) ∧
    (∃ (f : BrzFrame) (s : State), let x := s.dev.peer f.port f.src; let mine := f.dst = s.dev.brzOwn ∨ (s.dev.isTwin = true ∧ f.dst = s.dev.brzPair); s.dev.brzRun = true ∧ s.dev.brzPortOn f.port = true ∧ mine ∧ s.dev.brzAuth f = false) ∧
    (∃ (f : BrzFrame) (s : State), let x := s.dev.peer f.port f.src; let mine := f.dst = s.dev.brzOwn ∨ (s.dev.isTwin = true ∧ f.dst = s.dev.brzPair); s.dev.brzRun = true ∧ s.dev.brzPortOn f.port = true ∧ mine ∧ s.dev.brzAuth f = true ∧ seqNum f.session f.seq < seqNum x.session x.seq) ∧
    (∃ (f : BrzFrame) (s : State), let x := s.dev.peer f.port f.src; let mine := f.dst = s.dev.brzOwn ∨ (s.dev.isTwin = true ∧ f.dst = s.dev.brzPair); s.dev.brzRun = true ∧ s.dev.brzPortOn f.port = true ∧ mine ∧ s.dev.brzAuth f = true ∧ seqNum f.session f.seq = seqNum x.session x.seq) ∧
    (∃ (f : BrzFrame) (s : State), let x := s.dev.peer f.port f.src; let mine := f.dst = s.dev.brzOwn ∨ (s.dev.isTwin = true ∧ f.dst = s.dev.brzPair); s.dev.brzRun = true ∧ s.dev.brzPortOn f.port = true ∧ mine ∧ s.dev.brzAuth f = true ∧ seqNum x.session x.seq < seqNum f.session f.seq ∧ x.up = true ∧ f.payload = .heartbeat) ∧
    (∃ (x : Delayed) (rest : List Delayed) (s : State), s.dev.pub.delayed = x :: rest ∧ x.due ≤ s.dev.raw ∧ (s.dev.op.running = true ∨ s.dev.op = .config) ∧ s.dev.pub.withdrawn = false) ∧
    (∃ (n : Nat) (c : SealS) (s : State), s.dev.sealDue n = true ∧ KMap.get? s.dev.pub.chains n = some c ∧ (((c.sec + 1) * 1000000000 : Nat) : Int) ≤ s.dev.tick) ∧
    (∃ s : State, s.dev.brzRun = true ∧ s.dev.brz.nextHb ≤ s.dev.raw) ∧
    (∃ (port dev : Nat) (s : State), (s.dev.peer port dev).up = true ∧ (s.dev.peer port dev).lastRx + 3 * s.dev.hbNs ≤ s.dev.raw) ∧
    (∃ (p : BrzPayload) (s : State), s.dev.brz.pending = some p ∧ s.dev.uplink = true ∧ s.dev.brzRun = true ∧ s.dev.brz.nextRto ≤ s.dev.raw) ∧
    (∃ (dev : Nat) (c : Nat × Nat) (s : State), s.dev.children.find? (fun x => x.2 == dev) = some c ∧ s.dev.brzRun = true ∧ s.dev.brzActive = true ∧ KMap.getD s.dev.brz.syncAt dev 0 ≤ s.dev.raw) ∧
    (∃ s : State, s.dev.brzRun = true ∧ s.dev.uplink = true ∧ s.dev.brz.reqAt + 1000000000 ≤ s.dev.raw) ∧
    (∃ s : State, s.dev.isTwin = true ∧ s.dev.brzRun = true ∧ s.dev.brz.nextTwin ≤ s.dev.raw) :=
  ⟨⟨beat 9 true 1, brz id, by dsimp only; decide⟩,
    ⟨beat 0 false 1, brz id, by dsimp only; decide⟩,
    ⟨beat 0 true 1, brz (fun x => { x with peers := [(brzKey 1 2, peer2 2 true)] }), by dsimp only; decide⟩,
    ⟨beat 0 true 2, brz (fun x => { x with peers := [(brzKey 1 2, peer2 2 true)] }), by dsimp only; decide⟩,
    ⟨beat 0 true 3, brz (fun x => { x with peers := [(brzKey 1 2, peer2 2 true)] }), by dsimp only; decide⟩,
    ⟨⟨100000000000000, 0, 0, 0, 0, [], none⟩, [], (st .config |> on (fun d => { d with pub := { d.pub with delayed := [⟨100000000000000, 0, 0, 0, 0, [], none⟩] } })), by decide⟩,
    ⟨0, ⟨0, 99999, 0, [], []⟩, (st .run |> table 0x360000 0x8001 |> on (fun d => { d with pub := { d.pub with chains := [(0, ⟨0, 99999, 0, [], []⟩)] } })), by decide⟩,
    ⟨brz id, by decide⟩,
    ⟨1, 2, brz (fun x => { x with peers := [(brzKey 1 2, { peer2 0 true with lastRx := 99999997000000 })] }), by decide⟩,
    ⟨.heartbeat, brz (fun x => { x with pending := some .heartbeat }), by decide⟩,
    ⟨2, (0, 2), brz id, by decide⟩,
    ⟨brz id, by decide⟩,
    ⟨twin id, by decide⟩⟩

theorem meets_TwinRoles :
    (∃ (c u : Nat) (s : State), s.dev.twinWatch.brz.since = some (c, u) ∧ u + zeroActs 1 (s.dev.fld Reg.BRZ_TWIN_TIMING 16 8) * 1000000 ≤ s.dev.raw) ∧
    (∃ (c u : Nat) (s : State), s.dev.twinWatch.brz.since = some (c, u) ∧ s.dev.raw < u + zeroActs 1 (s.dev.fld Reg.BRZ_TWIN_TIMING 16 8) * 1000000) ∧
    (∃ (x : Nat × Nat) (r : TwinCheckResult) (s : State), s.dev.brz.checkDue = some x ∧ s.dev.op.running = true ∧ r.selfTilesBad = [] ∧ r.selfPubOk = true) ∧
    (∃ (h : CmdHdr) (s : State), s.dev.Admits h 0x80 [] true [.run, .degraded] ∧ (s.dev.brz.role ≠ 1 ∨ s.dev.partnerReady = false)) ∧
    (∃ (h : CmdHdr) (s : State), s.dev.Admits h 0x80 [] true [.run, .degraded] ∧ s.dev.brz.role = 1 ∧ s.dev.partnerReady = true ∧ s.dev.isTwin = true) :=
  ⟨⟨4, 0, twin (fun x => { x with role := 2, since := some (4, 0) }), by decide⟩,
    ⟨4, 100000000000000, twin (fun x => { x with role := 2, since := some (4, 100000000000000) }), by decide⟩,
    ⟨(0, 0), ⟨[], true, true⟩, brz (fun x => { x with checkDue := some (0, 0) }), by decide⟩,
    ⟨hdr, st .run, by unfold Dev.Admits; decide⟩,
    ⟨hdr, twin (fun x => { x with role := 1, partner := some ⟨2, 0, false, 4, 0, false, true, (twin id).dev.tableDigest, [], 0⟩ }),
      ⟨by decide, by decide, by decide, by decide, by decide⟩, by decide, by exact (Bool.and_true _).trans (beq_self_eq_true _), by decide⟩⟩

theorem meets_RadioTraffic :
    (∃ (f : FlgFrame) (s : State), s.dev.flgOn = true ∧ s.dev.flg.rst = none ∧ f.statusByte / 16 ≠ 1) ∧
    (∃ (f : FlgFrame) (s : State), s.dev.flgOn = true ∧ s.dev.flg.rst = none ∧ f.statusByte / 16 = 1 ∧ f.statusByte.testBit 2 = false ∧ (f.version ≠ 2 ∨ f.body = .unsupported ∨ 6 < f.level)) ∧
    (∃ (f : FlgFrame) (s : State), s.dev.flgOn = true ∧ s.dev.flg.rst = none ∧ f.statusByte / 16 = 1 ∧ f.statusByte.testBit 2 = false ∧ f.version = 2 ∧ f.body ≠ .unsupported ∧ f.level ≤ 6 ∧ (f.pan ≠ s.dev.fld Reg.FLG_PAN 0 16 ∨ (f.dst ≠ s.dev.ownShort ∧ f.dst ≠ 0xFFFF))) ∧
    (∃ (f : FlgFrame) (s : State), s.dev.flgOn = true ∧ s.dev.flg.rst = none ∧ f.statusByte / 16 = 1 ∧ f.statusByte.testBit 2 = false ∧ f.version = 2 ∧ f.body ≠ .unsupported ∧ f.level ≤ 6 ∧ f.pan = s.dev.fld Reg.FLG_PAN 0 16 ∧ (f.dst = s.dev.ownShort ∨ f.dst = 0xFFFF) ∧ (f.level < 5 + s.dev.fld Reg.FLG_SEC 0 1 ∨ f.keyIndex ≠ s.dev.fld Reg.FLG_SEC 16 8)) ∧
    (∃ (f : FlgFrame) (s : State), ∃ n, s.dev.flgOn = true ∧ s.dev.flg.rst = none ∧ f.statusByte / 16 = 1 ∧ f.statusByte.testBit 2 = false ∧ f.version = 2 ∧ f.body ≠ .unsupported ∧ f.level ≤ 6 ∧ f.pan = s.dev.fld Reg.FLG_PAN 0 16 ∧ (f.dst = s.dev.ownShort ∨ f.dst = 0xFFFF) ∧ 5 + s.dev.fld Reg.FLG_SEC 0 1 ≤ f.level ∧ f.keyIndex = s.dev.fld Reg.FLG_SEC 16 8 ∧ f.micOk = true ∧ s.dev.frameNode f = some n ∧ f.counter.toNat < (s.dev.flgNode n).lastFc.toNat) ∧
    (∃ s : State, s.dev.flgTxOn = true ∧ s.dev.flg.nextBcn ≤ s.dev.tick) ∧
    (∃ (x : FlgTx) (rest : List FlgTx) (rssi : List Int) (s : State), s.dev.flg.queue = x :: rest ∧ s.dev.flgTxOn = true ∧ s.dev.flg.air = none ∧ x.ready = true ∧ x.due ≤ s.dev.raw ∧ rssi.all (fun r => decide (r < signedOf 8 (s.dev.fld Reg.FLG_LBT 16 8))) = true) ∧
    (∃ (x : FlgTx) (rest : List FlgTx) (rssi : List Int) (s : State), s.dev.flg.queue = x :: rest ∧ s.dev.flgTxOn = true ∧ s.dev.flg.air = none ∧ x.ready = true ∧ x.due ≤ s.dev.raw ∧ rssi.all (fun r => decide (r < signedOf 8 (s.dev.fld Reg.FLG_LBT 16 8))) = false ∧ x.nb < s.dev.fld Reg.FLG_LBT 12 3) ∧
    (∃ (x : FlgTx) (rest : List FlgTx) (rssi : List Int) (s : State), s.dev.flg.queue = x :: rest ∧ s.dev.flgTxOn = true ∧ s.dev.flg.air = none ∧ x.ready = true ∧ x.due ≤ s.dev.raw ∧ rssi.all (fun r => decide (r < signedOf 8 (s.dev.fld Reg.FLG_LBT 16 8))) = false ∧ s.dev.fld Reg.FLG_LBT 12 3 ≤ x.nb) ∧
    (∃ (due dst q : Nat) (pend : Bool) (rest : List (Nat × Nat × Nat × Bool)) (s : State), s.dev.flg.acks = (due, dst, q, pend) :: rest ∧ s.dev.flgTxOn = true ∧ due ≤ s.dev.raw) ∧
    (∃ (a : FlgAir) (u : Nat) (s : State), let d : Dev := { s.dev with flg := { s.dev.flg with air := none } }; s.dev.flg.air = some a ∧ a.sfd = some u ∧ a.tx.uni = true ∧ u + s.dev.airNs a.tx.f.len + clampNat 1000 65535 (s.dev.fld Reg.FLG_ACK 16 13 * 8) * 1000 ≤ s.dev.raw) ∧
    (∃ (x : FlgHeld) (s : State), s.dev.flg.held.find? (fun y => decide (y.due ≤ s.dev.raw)) = some x) ∧
    (∃ (n : Nat) (s : State), s.dev.flgOn = true ∧ (s.dev.flgNode n).st = 2 ∧ (s.dev.flgNode n).heardRaw + 3 * s.dev.contactNs n < s.dev.raw) ∧
    (∃ (u : Nat) (s : State), s.dev.flg.expect = some u ∧ s.dev.flgOn = true ∧ s.dev.isRouter = true ∧ s.dev.flg.up = 2 ∧ u + 5000000 < s.dev.raw ∧ s.dev.flg.missed < 2) ∧
    (∃ (u : Nat) (s : State), s.dev.flg.expect = some u ∧ s.dev.flgOn = true ∧ s.dev.isRouter = true ∧ s.dev.flg.up = 2 ∧ u + 5000000 < s.dev.raw ∧ 2 ≤ s.dev.flg.missed) ∧
    (∃ (r : Nat × RadioTx) (s : State), s.dev.flg.relay.find? (fun x => decide (x.1 ≤ s.dev.raw)) = some r) ∧
    (∃ s : State, s.dev.flgOn = true ∧ s.dev.flg.air = none ∧ s.dev.flg.ackPred = none) ∧
    (∃ (a : FlgAir) (s : State), s.dev.flgOn = true ∧ s.dev.flg.air = some a ∧ a.sfd = none ∧ a.pred + 2000000 < s.dev.raw) ∧
    (∃ (u : Nat) (s : State), s.dev.flg.rst = some u ∧ u ≤ s.dev.raw) :=
  ⟨⟨mac 0 2 0 5, mesh id, by decide⟩,
    ⟨mac 16 1 0 5, mesh id, by decide⟩,
    ⟨mac 16 2 7 6, mesh (fun x => { x with short := 6 }), by decide⟩,
    ⟨mac 16 2 0xFFFF 4, mesh id, by decide⟩,
    ⟨mac 16 2 0xFFFF 5, (mesh (fun x => { x with nodes := [(0, node0)] }) |> table 0x380000 1), 0, by decide⟩,
    ⟨mesh id, by decide⟩,
    ⟨radioTx 0, [], [], mesh (fun x => { x with queue := [radioTx 0] }), by decide⟩,
    ⟨radioTx 0, [], [127], mesh (fun x => { x with queue := [radioTx 0] }), by decide⟩,
    ⟨radioTx 7, [], [127], mesh (fun x => { x with queue := [radioTx 7] }), by decide⟩,
    ⟨100000000000000, 0, 0, false, [], mesh (fun x => { x with acks := [(100000000000000, 0, 0, false)] }), by decide⟩,
    ⟨⟨radioTx 0, 0, some 0⟩, 0, mesh (fun x => { x with air := some ⟨radioTx 0, 0, some 0⟩ }), by dsimp only; decide⟩,
    ⟨⟨0, 0, false, radio, 100000000000000, none, false⟩, mesh (fun x => { x with held := [⟨0, 0, false, radio, 100000000000000, none, false⟩] }), by decide⟩,
    ⟨2047, mesh (fun x => { x with nodes := [(2047, node0)] }), by decide⟩,
    ⟨0, mesh (fun x => { x with up := 2, expect := some 0, missed := 1 }), by decide⟩,
    ⟨0, mesh (fun x => { x with up := 2, expect := some 0, missed := 2 }), by decide⟩,
    ⟨(0, radio), mesh (fun x => { x with relay := [(0, radio)] }), by decide⟩,
    ⟨mesh id, by decide⟩,
    ⟨⟨radioTx 0, 0, none⟩, mesh (fun x => { x with air := some ⟨radioTx 0, 0, none⟩ }), by decide⟩,
    ⟨100000000000000, mesh (fun x => { x with rst := some 100000000000000 }), by decide⟩⟩

theorem meets_MeshCommands :
    (∃ (h : CmdHdr) (node addr len : Nat) (force : Bool) (data : List Byte) (s : State), s.dev.Admits h 0x90 [] s.fuse.part.hasFlg [.run, .degraded] ∧ ((2047 < node ∧ node ≠ 0xFFFF) ∨ len < 1 ∨ 128 < len)) ∧
    (∃ (h : CmdHdr) (node addr len : Nat) (force : Bool) (data : List Byte) (s : State), s.dev.Admits h 0x90 [] s.fuse.part.hasFlg [.run, .degraded] ∧ node ≤ 2047 ∧ 1 ≤ len ∧ len ≤ 128 ∧ force = false ∧ (s.dev.flgNode node).st ≠ 2) ∧
    (∃ (h : CmdHdr) (node addr len : Nat) (force : Bool) (data : List Byte) (s : State), s.dev.Admits h 0x90 [] s.fuse.part.hasFlg [.run, .degraded] ∧ node ≤ 2047 ∧ 1 ≤ len ∧ len ≤ 128 ∧ (force = true ∨ (s.dev.flgNode node).st = 2) ∧ (s.dev.flgOn = false ∨ s.dev.flg.ended = true)) ∧
    (∃ (h : CmdHdr) (node addr len : Nat) (force : Bool) (data : List Byte) (s : State), s.dev.Admits h 0x90 [] s.fuse.part.hasFlg [.run, .degraded] ∧ node ≤ 2047 ∧ 1 ≤ len ∧ len ≤ 128 ∧ (force = true ∨ (s.dev.flgNode node).st = 2) ∧ s.dev.flgOn = true ∧ s.dev.flg.ended = false ∧ s.dev.flg.up ≠ 1) ∧
    (∃ (h : CmdHdr) (node : Nat) (s : State), s.dev.Admits h 0x91 [] s.fuse.part.hasFlg [.run, .degraded] ∧ 2047 < node) ∧
    (∃ (h : CmdHdr) (node : Nat) (s : State), s.dev.Admits h 0x91 [] s.fuse.part.hasFlg [.run, .degraded] ∧ node ≤ 2047 ∧ ((s.dev.flgNode node).st ≠ 2 ∨ (s.dev.flgNode node).direct = false)) ∧
    (∃ (h : CmdHdr) (node : Nat) (s : State), s.dev.Admits h 0x91 [] s.fuse.part.hasFlg [.run, .degraded] ∧ node ≤ 2047 ∧ (s.dev.flgNode node).st = 2 ∧ (s.dev.flgNode node).direct = true ∧ (nSleepy s.dev.act node = false ∨ s.dev.canHold node = true) ∧ (s.dev.flgOn = false ∨ s.dev.flg.ended = true)) ∧
    (∃ (h : CmdHdr) (node : Nat) (s : State), s.dev.Admits h 0x91 [] s.fuse.part.hasFlg [.run, .degraded] ∧ node ≤ 2047 ∧ (s.dev.flgNode node).st = 2 ∧ (s.dev.flgNode node).direct = true ∧ (nSleepy s.dev.act node = false ∨ s.dev.canHold node = true) ∧ s.dev.flgOn = true ∧ s.dev.flg.ended = false ∧ nSleepy s.dev.act node = true) ∧
    (∃ (h : CmdHdr) (node : Nat) (s : State), s.dev.Admits h 0x91 [] s.fuse.part.hasFlg [.run, .degraded] ∧ node ≤ 2047 ∧ (s.dev.flgNode node).st = 2 ∧ (s.dev.flgNode node).direct = true ∧ (nSleepy s.dev.act node = false ∨ s.dev.canHold node = true) ∧ s.dev.flgOn = true ∧ s.dev.flg.ended = false ∧ nSleepy s.dev.act node = false) :=
  ⟨⟨hdr, 2048, 0, 128, true, [], mesh id, by unfold Dev.Admits; decide⟩,
    ⟨hdr, 2047, 0, 128, false, [], mesh id, by unfold Dev.Admits; decide⟩,
    ⟨hdr, 2047, 0, 1, false, [], mesh (fun x => { x with nodes := [(2047, node0)], ended := true }), by unfold Dev.Admits; decide⟩,
    ⟨hdr, 2047, 0, 128, false, [], mesh (fun x => { x with nodes := [(2047, node0)] }), by unfold Dev.Admits; decide⟩,
    ⟨hdr, 2048, mesh id, by unfold Dev.Admits; decide⟩,
    ⟨hdr, 2047, mesh id, by unfold Dev.Admits; decide⟩,
    ⟨hdr, 2047, mesh (fun x => { x with nodes := [(2047, node0)], ended := true }), by unfold Dev.Admits; decide⟩,
    ⟨hdr, 2047, (mesh (fun x => { x with nodes := [(2047, node0)] }) |> table 0x39FFC0 3), by unfold Dev.Admits; decide⟩,
    ⟨hdr, 2047, mesh (fun x => { x with nodes := [(2047, node0)] }), by unfold Dev.Admits; decide⟩⟩

theorem meets_RefusedCommandsChangeNothing :
    (∃ (h : CmdHdr) (order status : Nat) (s : State), s.dev.op ≠ .boot ∧ s.dev.op.mainOn = true ∧ s.dev.op ≠ .holdup ∧ s.dev.mayStart h 0x02 = true ∧ s.dev.gate h 0x02 [] true [.config] = some (order, status)) ∧
    (∃ (c : Instr) (h : CmdHdr) (code : Nat) (present : Bool) (legal : List OpState) (order status : Nat) (s : State), (c, code, present, legal) ∈ [(Instr.devStop h, 0x03, true, [.run, .degraded]), (.hstNop h, 0x01, true, legalCRD), (.devReset h, 0x04, true, [.config, .run, .degraded, .safe]), (.stmCancel h, 0x21, true, legalCRD), (.stmReload h, 0x22, true, legalCRD), (.sflCancel h, 0x41, true, legalCRD), (.sflReload h, 0x42, true, legalCRD), (.sflClearLatched h, 0x43, true, legalCRD), (.sflLaneTestInvert h, 0x44, true, [.run, .degraded]), (.brzSwap h, 0x80, true, [.run, .degraded]), (.pwrResCheck h, 0xD1, true, legalCRD)] ∧ s.dev.op ≠ .boot ∧ s.dev.op.mainOn = true ∧ s.dev.op ≠ .holdup ∧ s.dev.mayStart h code = true ∧ s.dev.gate h code [] present legal = some (order, status)) :=
  ⟨⟨hdr, 4, 1, st .run, by decide⟩,
    ⟨.hstNop hdr, hdr, 0x01, true, legalCRD, 4, 1, st .safe, by decide⟩⟩

theorem meets_PollingRingsAndFrames :
    (∃ (p : PollRead) (s : State), s.dev.rbit Reg.HST_CTRL 0 = true ∧ s.dev.host.polling = true ∧ s.dev.host.link = true ∧ s.dev.op.mainOn = true ∧ (s.dev.host.kicked = true ∨ s.dev.host.nextPoll ≤ s.dev.raw) ∧ p.pageOk = true) ∧
    (∃ (p : PollRead) (s : State), s.dev.rbit Reg.HST_CTRL 0 = true ∧ s.dev.host.polling = true ∧ s.dev.host.link = true ∧ s.dev.op.mainOn = true ∧ (s.dev.host.kicked = true ∨ s.dev.host.nextPoll ≤ s.dev.raw) ∧ p.pageOk = false) ∧
    (∃ (p : PollRead) (s : State), s.dev.rbit Reg.HST_CTRL 0 = true ∧ s.dev.host.polling = true ∧ s.dev.host.link = true ∧ s.dev.op.mainOn = true ∧ s.dev.host.kicked = false ∧ s.dev.raw < s.dev.host.nextPoll) ∧
    (∃ s : State, s.dev.hstWritable = true ∧ s.dev.rbit Reg.HST_CTRL 0 = true ∧ s.dev.host.polling = true) ∧
    (∃ (x : Desc) (d : Dev), x.ring < 64 ∧ x.reserved = false ∧ cmdCode x.code = true ∧ d.host.polling = true) ∧
    (∃ (h : CmdHdr) (s : State), s.dev.Admits h 0x01 [] true legalCRD) ∧
    (∃ (n idx : Nat) (v : Word) (s : State), s.dev.hstWritable = true ∧ n < 128 ∧ s.dev.rbit (Reg.HST_RING_CTRL n) 0 = false ∧ v.bit 0 = true ∧ (n < 64 → 64 ≤ v.field 8 7)) ∧
    (∃ (n idx : Nat) (v : Word) (s : State), (127 < n ∨ s.dev.rbit (Reg.HST_RING_CTRL n) 0 = true ∨ (n < 64 ∧ v.field 8 7 < 64))) ∧
    (∃ (n : Nat) (v : Word) (s : State), s.dev.hstWritable = true ∧ n < 128 ∧ s.dev.rbit (Reg.HST_RING_CTRL n) 0 = true ∧ v.bit 0 = false) ∧
    (∃ (n u : Nat) (s : State), KMap.get? s.dev.host.coal n = some u ∧ u ≤ s.dev.raw) ∧
    (∃ (v : Nat) (s : State), v ≤ 143 ∧ s.dev.op.mainOn = true ∧ s.dev.host.unmasked.contains v = false) ∧
    (∃ (h : CmdHdr) (pair addr len : Nat) (ws : List Word) (s : State), s.dev.Admits h 0x08 [] true legalCRD ∧ (1 < pair ∨ len < 14 ∨ 1512 < len ∨ addr % 4 ≠ 0)) ∧
    (∃ (h : CmdHdr) (pair addr len : Nat) (ws : List Word) (s : State), s.dev.Admits h 0x08 [] true legalCRD ∧ pair ≤ 1 ∧ 14 ≤ len ∧ len ≤ 1480 ∧ addr % 4 = 0 ∧ s.dev.portUp (2 * pair) = false ∧ s.dev.portUp (2 * pair + 1) = false) ∧
    (∃ (h : CmdHdr) (pair addr len : Nat) (ws : List Word) (s : State), s.dev.Admits h 0x08 [] true legalCRD ∧ pair ≤ 1 ∧ 14 ≤ len ∧ len ≤ 1480 ∧ addr % 4 = 0 ∧ (s.dev.portUp (2 * pair) = true ∨ s.dev.portUp (2 * pair + 1) = true)) :=
  ⟨⟨page true, polling false 100000000000000, by decide⟩,
    ⟨page false, polling true 100000000000001, by decide⟩,
    ⟨page true, polling false 100000000000001, by decide⟩,
    ⟨polling false 0, by decide⟩,
    ⟨⟨63, 0, 0x01, false, 0, false⟩, (polling false 0).dev, by decide⟩,
    ⟨hdr, st .run, by unfold Dev.Admits; decide⟩,
    ⟨63, 7, 0x4001, st .boot, by decide⟩,
    ⟨63, 0, 0x3F01, st .run, by decide⟩,
    ⟨127, 0, (st .run |> put (Reg.HST_RING_CTRL 127) 1), by decide⟩,
    ⟨64, 100000000000000, (st .run |> on (fun d => { d with host := { d.host with coal := [(64, 100000000000000)] } })), by decide⟩,
    ⟨143, st .run, by decide⟩,
    ⟨hdr, 0, 0, 1513, [], st .run, by unfold Dev.Admits; decide⟩,
    ⟨hdr, 1, 0, 14, [], st .run, by unfold Dev.Admits; decide⟩,
    ⟨hdr, 1, 0, 1480, [], (st .run |> port 3 id), by unfold Dev.Admits; decide⟩⟩

theorem meets_SpillQueues :
    (∃ (q : Nat) (i : SpqItem) (rest : List SpqItem) (s : State), let size := s.dev.hbufSize q; let at_ := (s.dev.reg (Reg.SPQ_WR q)).toNat % size; let bytes := ceilDiv (8 + 4 * i.words.length) 8 * 8; let skip := if size < at_ + bytes then size - at_ else 0; let held := (s.dev.reg (Reg.SPQ_WR q) - (s.dev.spqQ q).hostRead).toNat; q < 64 ∧ s.dev.spqServed = true ∧ s.dev.rbit (Reg.SPQ_Q_CTRL q) 0 = true ∧ s.dev.rbit (Reg.SPQ_Q_CTRL q) 1 = false ∧ (s.dev.spqQ q).items = i :: rest ∧ size < held + skip + bytes) ∧
    (∃ (q : Nat) (i : SpqItem) (rest : List SpqItem) (s : State), let size := s.dev.hbufSize q; let at_ := (s.dev.reg (Reg.SPQ_WR q)).toNat % size; let bytes := ceilDiv (8 + 4 * i.words.length) 8 * 8; let skip := if size < at_ + bytes then size - at_ else 0; let held := (s.dev.reg (Reg.SPQ_WR q) - (s.dev.spqQ q).hostRead).toNat; q < 64 ∧ s.dev.spqServed = true ∧ s.dev.rbit (Reg.SPQ_Q_CTRL q) 0 = true ∧ s.dev.rbit (Reg.SPQ_Q_CTRL q) 1 = false ∧ (s.dev.spqQ q).items = i :: rest ∧ held + skip + bytes ≤ size) ∧
    (∃ (q : Nat) (s : State), ∃ i rest, q < 64 ∧ s.dev.op.mainOn = true ∧ s.dev.host.link = true ∧ (s.dev.spqQ q).stall = none ∧ s.dev.popServed q = true ∧ (s.dev.spqQ q).inside = none ∧ (s.dev.spqQ q).items = i :: rest) ∧
    (∃ (q : Nat) (s : State), q < 64 ∧ s.dev.op.mainOn = true ∧ s.dev.host.link = true ∧ (s.dev.spqQ q).stall = none ∧ s.dev.popServed q = true ∧ (s.dev.spqQ q).inside = none ∧ (s.dev.spqQ q).items = [] ∧ s.dev.stallNs ≠ 0) ∧
    (∃ (q u : Nat) (s : State), (s.dev.spqQ q).stall = some u ∧ u ≤ s.dev.raw) ∧
    (∃ (h : CmdHdr) (q : Nat) (s : State), s.dev.Admits h 0x09 [] true legalCRD ∧ 63 < q) ∧
    (∃ (h : CmdHdr) (q : Nat) (s : State), s.dev.Admits h 0x09 [] true legalCRD ∧ q ≤ 63 ∧ (s.dev.rbit (Reg.SPQ_Q_CTRL q) 0 = false ∨ (s.dev.spqQ q).flush.isSome = true)) ∧
    (∃ (h : CmdHdr) (q : Nat) (s : State), s.dev.Admits h 0x09 [] true legalCRD ∧ q ≤ 63 ∧ s.dev.rbit (Reg.SPQ_Q_CTRL q) 0 = true ∧ (s.dev.spqQ q).flush = none) ∧
    (∃ (h : CmdHdr) (q items bytes : Nat) (s : State), (s.dev.spqQ q).flush = some (h, items, bytes)) ∧
    (∃ (h : CmdHdr) (q : Nat) (s : State), s.dev.Admits h 0x0A [] true legalCRD ∧ 63 < q) ∧
    (∃ (h : CmdHdr) (q : Nat) (s : State), s.dev.Admits h 0x0A [] true legalCRD ∧ q ≤ 63 ∧ ((s.dev.spqQ q).inside = none ∨ s.dev.rbit (Reg.SPQ_Q_CTRL q) 1 = false)) ∧
    (∃ (h : CmdHdr) (q : Nat) (s : State), s.dev.Admits h 0x0A [] true legalCRD ∧ q ≤ 63 ∧ (s.dev.spqQ q).inside.isSome = true ∧ s.dev.rbit (Reg.SPQ_Q_CTRL q) 1 = true) ∧
    (∃ (q idx : Nat) (v : Word) (s : State), q < 64 ∧ s.dev.hstWritable = true ∧ s.dev.rbit (Reg.SPQ_Q_CTRL q) 0 = false ∧ v.bit 0 = true ∧ s.dev.middleBad s.fuse q v = true) ∧
    (∃ (q idx : Nat) (v : Word) (s : State), q < 64 ∧ s.dev.hstWritable = true ∧ s.dev.rbit (Reg.SPQ_Q_CTRL q) 0 = false ∧ v.bit 0 = true ∧ s.dev.middleBad s.fuse q v = false) ∧
    (∃ (q : Nat) (s : State), q < 64 ∧ s.dev.hstWritable = true ∧ s.dev.rbit (Reg.SPQ_Q_CTRL q) 0 = true) :=
  ⟨⟨0, item, [], (queue 1 { SpqQ.empty with items := [item] } |> put (Reg.SPQ_WR 0) 0x7FF8), by dsimp only; decide⟩,
    ⟨0, item, [], queue 1 { SpqQ.empty with items := [item] }, by dsimp only; decide⟩,
    ⟨0, queue 3 { SpqQ.empty with items := [item] }, item, [], by decide⟩,
    ⟨0, (queue 3 SpqQ.empty |> put Reg.SPQ_CTRL 20), by decide⟩,
    ⟨0, 100000000000000, queue 3 { SpqQ.empty with stall := some 100000000000000 }, by decide⟩,
    ⟨hdr, 64, st .run, by unfold Dev.Admits; decide⟩,
    ⟨hdr, 63, st .run, by unfold Dev.Admits; decide⟩,
    ⟨hdr, 0, queue 1 { SpqQ.empty with items := [item] }, by unfold Dev.Admits; decide⟩,
    ⟨hdr, 0, 1, 8, queue 1 { SpqQ.empty with flush := some (hdr, 1, 8) }, by decide⟩,
    ⟨hdr, 64, st .run, by unfold Dev.Admits; decide⟩,
    ⟨hdr, 63, st .run, by unfold Dev.Admits; decide⟩,
    ⟨hdr, 0, queue 3 { SpqQ.empty with inside := some (2, [2]) }, by unfold Dev.Admits; decide⟩,
    ⟨0, 7, 0x101, (st .run |> put Reg.EAS_SPILL_BASE 0 |> put Reg.EAS_CTRL 0xFFFFFFFF), by decide⟩,
    ⟨63, 7, 1, st .boot, by decide⟩,
    ⟨0, queue 1 SpqQ.empty, by decide⟩⟩

theorem meets_SpillWordsComeOutInOrder :
    ∃ (q n : Nat) (w : Word) (ws : List Word) (d : Dev), (d.spqQ q).inside = some (n, w :: ws) :=
  ⟨0, 2, 1, [2], (queue 3 { SpqQ.empty with inside := some (2, [1, 2]) }).dev, by decide⟩

theorem meets_KeyCommandsWaitOrAreRefused :
    (∃ (c : Instr) (h : CmdHdr) (op : KeyOp) (s : State), keyCommand c = some (h, op) ∧ s.dev.Admits h op.code op.slots true legalCRD ∧ op.slots.any (fun k => s.dev.busySlots.contains k) = true) ∧
    (∃ (c : Instr) (h : CmdHdr) (op : KeyOp) (s : State), ∃ f, keyCommand c = some (h, op) ∧ s.dev.Admits h op.code op.slots true legalCRD ∧ s.dev.SlotsFree op ∧ keyCheck s.nv s.dev op = some f) :=
  ⟨⟨.keyDestroy hdr 5, hdr, .destroy 5, prov .run (fun k => { k with install := [installing] }), by unfold Dev.Admits; decide⟩,
    ⟨.keyDestroy hdr 0, hdr, .destroy 0, prov .run id, (5, 2, 1), by unfold Dev.Admits Dev.SlotsFree; decide⟩⟩

theorem meets_KeyCommandsTakeEffect :
    (∃ (h : CmdHdr) (a : KeyArgs) (s : State), s.dev.Admits h 0xA0 [a.slot] true legalCRD ∧ s.dev.SlotsFree (.gen a) ∧ keyCheck s.nv s.dev (.gen a) = none) ∧
    (∃ (h : CmdHdr) (a : KeyArgs) (tslot addr : Nat) (b : ImportBlob) (s : State), s.dev.Admits h 0xA1 [a.slot, tslot] true legalCRD ∧ addr % 4 = 0 ∧ s.dev.SlotsFree (.imp a tslot b) ∧ keyCheck s.nv s.dev (.imp a tslot b) = none ∧ b.memErr = false ∧ (b.counter.toNat ≤ s.nv.importCtr ∨ b.tagOk = false ∨ b.kcvOk = false)) ∧
    (∃ (h : CmdHdr) (a : KeyArgs) (tslot addr : Nat) (b : ImportBlob) (s : State), s.dev.Admits h 0xA1 [a.slot, tslot] true legalCRD ∧ addr % 4 = 0 ∧ s.dev.SlotsFree (.imp a tslot b) ∧ keyCheck s.nv s.dev (.imp a tslot b) = none ∧ b.memErr = false ∧ s.nv.importCtr < b.counter.toNat ∧ b.tagOk = true ∧ b.kcvOk = true) ∧
    (∃ (h : CmdHdr) (slot : Nat) (s : State), s.dev.Admits h 0xA2 [slot] true legalCRD ∧ s.dev.SlotsFree (.destroy slot) ∧ keyCheck s.nv s.dev (.destroy slot) = none) ∧
    (∃ (h : CmdHdr) (slot addr : Nat) (e : Bool) (r : KeyRec) (s : State), s.dev.Admits h 0xA3 [slot] true legalCRD ∧ s.dev.SlotsFree (.pubKey slot addr e) ∧ s.dev.slotKey slot = some r ∧ keyCheck s.nv s.dev (.pubKey slot addr e) = none) :=
  ⟨⟨hdr, ⟨5, 4, 8, 0, 0⟩, prov .run id, by unfold Dev.Admits Dev.SlotsFree; decide⟩,
    ⟨hdr, ⟨5, 2, 1, 0, 0⟩, 6, 0, blob 0, prov .run (fun k => { k with plate := [(6, key 5 128)] }), by unfold Dev.Admits Dev.SlotsFree; decide⟩,
    ⟨hdr, ⟨5, 2, 1, 0, 0⟩, 6, 0, blob 1, prov .run (fun k => { k with plate := [(6, key 5 128)] }), by unfold Dev.Admits Dev.SlotsFree; decide⟩,
    ⟨hdr, 5, prov .run (fun k => { k with plate := [(5, key 4 8), (6, key 3 128)], attestOk := true }), by unfold Dev.Admits Dev.SlotsFree; decide⟩,
    ⟨hdr, 5, 0, true, key 4 8, prov .run (fun k => { k with plate := [(5, key 4 8), (6, key 3 128)], attestOk := true }), by unfold Dev.Admits Dev.SlotsFree; decide⟩⟩

theorem meets_KeysChangeAtTheFlip :
    (∃ (slot : Nat) (x : Install) (s : State), s.dev.key.install.find? (fun y => y.slot == slot) = some x ∧ s.dev.key.waiting = []) ∧
    (∃ (slot : Nat) (ok : Bool) (s : State), s.dev.key.install.find? (fun y => y.slot == slot) = none) ∧
    (∃ (slot due : Nat) (r : KeyRec) (s : State), KMap.get? s.dev.key.grace slot = some (r, due)) ∧
    (∃ s : State, s.dev.op.mainOn = true ∧ s.dev.key.rngFail = false ∧ s.dev.key.rngRuns < 2) ∧
    (∃ s : State, s.dev.op.mainOn = true ∧ s.dev.key.rngFail = false ∧ 2 ≤ s.dev.key.rngRuns) ∧
    (∃ (port sa key : Nat) (keyId : Word) (scs : List Nat) (s : State), port ≤ 3 ∧ sa ≤ 1 ∧ s.nv.keysUsable = true ∧ s.dev.op ∈ legalCRD) :=
  ⟨⟨5, installing, prov .run (fun k => { k with install := [installing] }), by decide⟩,
    ⟨5, true, st .run, by decide⟩,
    ⟨5, 0, key 2 16, prov .run (fun k => { k with grace := [(5, key 2 16, 0)] }), by decide⟩,
    ⟨prov .run (fun k => { k with rngRuns := 1 }), by decide⟩,
    ⟨prov .run (fun k => { k with rngRuns := 2 }), by decide⟩,
    ⟨3, 1, 7, 0, [], prov .run id, by decide⟩⟩

theorem meets_HallmarkStatements :
    (∃ (h : CmdHdr) (slot nonce addr : Nat) (e : Bool) (r : KeyRec) (s : State), s.dev.Admits h 0xA4 [slot] true legalCRD ∧ s.dev.SlotsFree (.attest slot nonce addr e) ∧ keyCheck s.nv s.dev (.attest slot nonce addr e) = none ∧ s.dev.slotKey slot = some r ∧ s.dev.anl.step = 0 ∧ e = false) ∧
    (∃ (h : CmdHdr) (slot nonce addr : Nat) (e : Bool) (r : KeyRec) (s : State), s.dev.Admits h 0xA4 [slot] true legalCRD ∧ s.dev.SlotsFree (.attest slot nonce addr e) ∧ keyCheck s.nv s.dev (.attest slot nonce addr e) = none ∧ s.dev.slotKey slot = some r ∧ s.dev.anl.step = 0 ∧ e = true) ∧
    (∃ (h : CmdHdr) (slot nonce addr : Nat) (e : Bool) (r : KeyRec) (s : State), s.dev.Admits h 0xA4 [slot] true legalCRD ∧ s.dev.SlotsFree (.attest slot nonce addr e) ∧ keyCheck s.nv s.dev (.attest slot nonce addr e) = none ∧ s.dev.slotKey slot = some r ∧ s.dev.anl.step ≠ 0) ∧
    (∃ (h : CmdHdr) (addr len : Nat) (e : Bool) (s : State), s.dev.Admits h 0xA5 [] true legalCRD ∧ len < s.nv.certLen) ∧
    (∃ (h : CmdHdr) (addr len : Nat) (e : Bool) (s : State), s.dev.Admits h 0xA5 [] true legalCRD ∧ s.nv.certLen ≤ len ∧ (s.nv.keysUsable = false ∨ s.dev.key.attestOk = false)) ∧
    (∃ (h : CmdHdr) (addr len : Nat) (e : Bool) (s : State), s.dev.Admits h 0xA5 [] true legalCRD ∧ s.nv.certLen ≤ len ∧ s.nv.keysUsable = true ∧ s.dev.key.attestOk = true ∧ s.dev.anl.step = 0) ∧
    (∃ (h : CmdHdr) (nonce addr : Nat) (e : Bool) (s : State), s.dev.Admits h 0xC2 [] true legalCRD ∧ s.dev.key.attestOk = false) ∧
    (∃ (h : CmdHdr) (nonce addr : Nat) (e : Bool) (s : State), s.dev.Admits h 0xC2 [] true legalCRD ∧ s.dev.key.attestOk = true ∧ s.dev.anl.step = 0) :=
  ⟨⟨hdr, 5, 0, 0, false, key 4 8, prov .run (fun k => { k with plate := [(5, key 4 8), (6, key 3 128)], attestOk := true }), by unfold Dev.Admits Dev.SlotsFree; decide⟩,
    ⟨hdr, 5, 0, 0, true, key 4 8, prov .run (fun k => { k with plate := [(5, key 4 8), (6, key 3 128)], attestOk := true }), by unfold Dev.Admits Dev.SlotsFree; decide⟩,
    ⟨hdr, 5, 0, 0, false, key 4 8, (prov .run (fun k => { k with plate := [(5, key 4 8), (6, key 3 128)], attestOk := true }) |> on (fun d => { d with anl := { d.anl with step := 1 } })), by unfold Dev.Admits Dev.SlotsFree; decide⟩,
    ⟨hdr, 0, 99, false, prov .run (fun k => { k with plate := [(5, key 4 8), (6, key 3 128)], attestOk := true }), by unfold Dev.Admits; decide⟩,
    ⟨hdr, 0, 100, true, prov .run id, by unfold Dev.Admits; decide⟩,
    ⟨hdr, 0, 100, true, prov .run (fun k => { k with plate := [(5, key 4 8), (6, key 3 128)], attestOk := true }), by unfold Dev.Admits; decide⟩,
    ⟨hdr, 0, 0, false, st .run, by unfold Dev.Admits; decide⟩,
    ⟨hdr, 0, 0, true, prov .run (fun k => { k with plate := [(5, key 4 8), (6, key 3 128)], attestOk := true }), by unfold Dev.Admits; decide⟩⟩

theorem meets_AccessControl :
    (∃ (h : CmdHdr) (target ctx word : Nat) (v : Word) (s : State), s.dev.ctxOf h.ring = 0 ∧ s.dev.Admits h 0xA7 [] true legalCRD ∧ (2 < target ∨ 7 < ctx ∨ 7 < word)) ∧
    (∃ (h : CmdHdr) (target ctx word : Nat) (v : Word) (s : State), s.dev.ctxOf h.ring = 0 ∧ s.dev.Admits h 0xA7 [] true legalCRD ∧ ctx ≤ 7 ∧ word ≤ 7) ∧
    (∃ (h : CmdHdr) (target ctx word : Nat) (v : Word) (s : State), s.dev.ctxOf h.ring = 0 ∧ s.dev.Admits h 0xA7 [] true legalCRD ∧ 7 < ctx) ∧
    (∃ (c : Instr) (h : CmdHdr) (target ctx word : Nat) (v : Word) (s : State), (c = .actWrite h target ctx word v ∨ c = .actWriteSlotRange h ctx v ∨ c = .actWriteLock h v) ∧ s.dev.ctxOf h.ring ≠ 0 ∧ s.dev.op ∈ [OpState.config, .run, .degraded, .safe] ∧ s.dev.mayStart h 0xA7 = true) :=
  ⟨⟨hdr, 3, 0, 0, 0, st .run, by unfold Dev.Admits; decide⟩,
    ⟨hdr, 0, 7, 7, 0, st .run, by unfold Dev.Admits; decide⟩,
    ⟨hdr, 0, 8, 0, 0, st .run, by unfold Dev.Admits; decide⟩,
    ⟨.actWriteLock hdr 1, hdr, 0, 0, 0, 1, (st .safe |> put (Reg.HST_RING_CTRL 0) 0x20), by decide⟩⟩

theorem meets_ProofLogCommits :
    (∃ (fails : Nat) (r : LogRec) (rest : List LogRec) (s : State), s.dev.op.mainOn = true ∧ s.dev.mgmt.restart = false ∧ s.dev.plg.stage = r :: rest ∧ fails < 24 ∧ secCode r.code = true) ∧
    (∃ (fails : Nat) (r : LogRec) (rest : List LogRec) (s : State), s.dev.op.mainOn = true ∧ s.dev.mgmt.restart = false ∧ s.dev.plg.stage = r :: rest ∧ fails < 24 ∧ secCode r.code = false) ∧
    (∃ (fails : Nat) (r : LogRec) (rest : List LogRec) (s : State), s.dev.op.mainOn = true ∧ s.dev.mgmt.restart = false ∧ s.dev.plg.stage = r :: rest ∧ 24 ≤ fails) ∧
    (∃ (fails : Nat) (s : State), (s.dev.plg.stage = [] ∨ s.dev.mgmt.restart = true)) ∧
    (∃ (code : Nat) (b : Bucket) (s : State), s.dev.op.mainOn = true ∧ KMap.get? s.dev.plg.buckets code = some b ∧ b.due ≤ s.dev.raw ∧ b.count = 0) ∧
    (∃ (code : Nat) (b : Bucket) (s : State), s.dev.op.mainOn = true ∧ KMap.get? s.dev.plg.buckets code = some b ∧ b.due ≤ s.dev.raw ∧ b.count ≠ 0 ∧ s.dev.plg.stage.length < 256) ∧
    (∃ s : State, s.dev.op.mainOn = true ∧ s.dev.op ≠ .boot ∧ s.dev.tbu.sync = 2 ∧ s.dev.plg.lastAnchor + 3600000000000 ≤ s.dev.raw) ∧
    (∃ s : State, s.dev.op.mainOn = true ∧ s.dev.op ≠ .boot ∧ (s.dev.tbu.sync ≠ 2 ∨ s.dev.raw < s.dev.plg.lastAnchor + 3600000000000)) :=
  ⟨⟨23, logRec 0x80, [], staged (logRec 0x80), by decide⟩,
    ⟨2, logRec 1, [], staged (logRec 1), by decide⟩,
    ⟨24, logRec 1, [], staged (logRec 1), by decide⟩,
    ⟨0, st .run, by decide⟩,
    ⟨2, bucket 0, (st .run |> on (fun d => { d with plg := { d.plg with buckets := [(2, bucket 0)] } })), by decide⟩,
    ⟨2, bucket 1, (st .run |> on (fun d => { d with plg := { d.plg with buckets := [(2, bucket 1)] } })), by decide⟩,
    ⟨(st .run |> on (fun d => { d with tbu := { d.tbu with sync := 2 }, plg := { d.plg with lastAnchor := 96400000000000 } })), by decide⟩,
    ⟨(st .run |> on (fun d => { d with tbu := { d.tbu with sync := 2 }, plg := { d.plg with lastAnchor := 96400000000001 } })), by decide⟩⟩

theorem meets_ProofLogReads :
    (∃ (v : Word) (s : State), s.dev.cursorWritable = true ∧ v.bit 0 = true) ∧
    (∃ (h : CmdHdr) (part first addr count : Nat) (e : Option Nat) (s : State), s.dev.Admits h 0xC0 [] true legalRead ∧ (1 < part ∨ addr % 32 ≠ 0 ∨ count < 1 ∨ 4096 < count)) ∧
    (∃ (h : CmdHdr) (part first addr count : Nat) (e : Option Nat) (s : State), s.dev.Admits h 0xC0 [] true legalRead ∧ part ≤ 1 ∧ addr % 32 = 0 ∧ 1 ≤ count ∧ count ≤ 4096) ∧
    (∃ (h : CmdHdr) (s : State), s.dev.Admits h 0xC1 [] true legalCRD) ∧
    (∃ (h : CmdHdr) (addr : Nat) (e : Bool) (s : State), s.dev.Admits h 0xC3 [] true legalRead ∧ addr % 4 ≠ 0) ∧
    (∃ (h : CmdHdr) (addr : Nat) (e : Bool) (s : State), s.dev.Admits h 0xC3 [] true legalRead ∧ addr % 4 = 0 ∧ e = true) ∧
    (∃ (h : CmdHdr) (addr : Nat) (e : Bool) (s : State), s.dev.Admits h 0xC3 [] true legalRead ∧ addr % 4 = 0 ∧ e = false) ∧
    (∃ s : State, s.dev.scrubbing = true) ∧
    (∃ (n : Nat) (f : TileFind) (s : State), s.dev.tilesWatched = true ∧ s.dev.anl.step = 0) :=
  ⟨⟨1, st .safe, by decide⟩,
    ⟨hdr, 2, 0, 0, 1, none, st .safe, by unfold Dev.Admits; decide⟩,
    ⟨hdr, 1, 0, 32, 4096, some 0, st .safe, by unfold Dev.Admits; decide⟩,
    ⟨hdr, st .run, by unfold Dev.Admits; decide⟩,
    ⟨hdr, 2, false, st .safe, by unfold Dev.Admits; decide⟩,
    ⟨hdr, 4, true, st .safe, by unfold Dev.Admits; decide⟩,
    ⟨hdr, 4, false, st .safe, by unfold Dev.Admits; decide⟩,
    ⟨st .run |> put Reg.MEM_SCRUB 0x100 |> put Reg.MEM_STATUS 1, by decide⟩,
    ⟨0, .corrected, st .config, by decide⟩⟩

theorem meets_RegisterAccesses :
    (∃ (off : Nat) (s : State), s.dev.readable off = true) ∧
    (∃ (off : Nat) (os : List Nat) (s : State), s.dev.readable off = true ∧ latchOthers off = some os) ∧
    (∃ (off : Nat) (s : State), s.dev.readable off = false) ∧
    (∃ (off be : Nat) (v : Word) (s : State), (be ≠ 15 ∨ off % 4 ≠ 0 ∨ s.dev.accepts off = false)) ∧
    (∃ (off : Nat) (v : Word) (r : RegRow) (s : State), off % 4 = 0 ∧ s.dev.accepts off = true ∧ off < 0x200000 ∧ absentOff s.fuse.part off = false ∧ off ≠ Reg.TMP_SRC_EN ∧ off ≠ Reg.PLG_CURSOR_0 ∧ off ≠ Reg.PLG_NEXT ∧ s.dev.writeA s.fuse.part off v = none ∧ s.dev.writeB off v = none ∧ regRow? off = some r ∧ (r.cfg = true → s.dev.op = .config) ∧ instOf (Reg.PLG_RATE 0) 4 256 off = none) ∧
    (∃ (off m : Nat) (v : Word) (s : State), off % 4 = 0 ∧ s.dev.accepts off = true ∧ 0x200000 ≤ off ∧ off < partEnd s.fuse.part off ∧ absentOff s.fuse.part off = false ∧ cfgMask viewTables off = some m ∧ s.dev.rbit Reg.STM_CTRL 0 = false ∧ s.dev.stm.pend = none) ∧
    (∃ (off m : Nat) (v : Word) (s : State), off % 4 = 0 ∧ s.dev.accepts off = true ∧ 0x200000 ≤ off ∧ off < partEnd s.fuse.part off ∧ absentOff s.fuse.part off = false ∧ cfgMask viewTables off = some m ∧ s.dev.rbit Reg.STM_CTRL 0 = false ∧ s.dev.stm.pend ≠ none) ∧
    (∃ (v : Word) (s : State), s.dev.accepts Reg.TMP_SRC_EN = true ∧ s.dev.rbit Reg.ACT_LOCK 1 = false) :=
  ⟨⟨Reg.TBU_RAW_LO, st .run, by decide⟩,
    ⟨Reg.TBU_RAW_LO, [Reg.TBU_RAW_HI], st .run, by decide⟩,
    ⟨Reg.TBU_RAW_LO, st .backup, by decide⟩,
    ⟨Reg.STM_CTRL, 7, 0, st .run, by decide⟩,
    ⟨Reg.STM_CTRL, 0, ⟨393216, 0, 1, 65287, 0, 0, 0, 32, false, 2048, false⟩, st .run, by decide⟩,
    ⟨0x200000, 0x03FFFF3F, 0, st .run, by decide⟩,
    ⟨0x200000, 0x03FFFF3F, 0, (st .run |> on (fun d => { d with stm := { d.stm with pend := some ⟨hdr, ⟨0, 0, 0⟩, [], true, 0, []⟩ } })), by decide⟩,
    ⟨0, st .run, by decide⟩⟩

end Sys2Proof.Tests
end

/-! # Register accesses, and what every command keeps

First the laws of BAR0's reads and writes (chapter 16), from which the statement about them is assembled; then, in the order of
the chapters, that each operation goes onward (`State.Onward`), up to the dispatch: from that the statement about the queue and
the fuses follows. -/

namespace Sys2Proof.Machine

/-! ### Reads of BAR0 with an effect (chapter 16) -/

/-- A read after a run of writes of one function's values. -/
theorem KMap.get?_foldl_put {α : Type} (f : Nat → α) (os : List Nat) (m : KMap α) (a : Nat) :
    KMap.get? (os.foldl (fun m o => KMap.put m o (f o)) m) a = if a ∈ os then some (f a) else KMap.get? m a := by
  induction os generalizing m with
  | nil => rfl
  | cons o os ih =>
    rw [List.foldl_cons, ih, KMap.get?_put]
    by_cases hos : a ∈ os
    · simp [hos]
    · by_cases ho : a = o
      · simp [ho]
      · simp [hos, ho]

/-- What a read does beside clearing: the word is returned, and the other registers of a group take their words of now. -/
theorem State.latchRead_spec (off : Nat) (s : State) :
    ∃ m, s.latchRead off = { s with dev := { s.dev with latch := m, out := .readData off (s.readWord off) :: s.dev.out } } ∧
      (latchOthers off = none → m = s.dev.latch) ∧
      ∀ os a, latchOthers off = some os → KMap.get? m a = if a ∈ os then some (s.current a) else KMap.get? s.dev.latch a := by
  unfold State.latchRead
  cases hg : latchOthers off with
  | none => exact ⟨s.dev.latch, rfl, fun _ => rfl, nofun⟩
  | some os =>
    refine ⟨_, rfl, nofun, fun os' a h => ?_⟩
    obtain rfl := Option.some.inj h
    exact KMap.get?_foldl_put s.current os s.dev.latch a

theorem State.wholeRead_of_clears {off : Nat} {s : State} (h : rcReg off = true ∧ absentOff s.fuse.part off = false) :
    s.wholeRead off = { s.latchRead off with dev := (s.latchRead off).dev.setReg off 0 } := by
  simp [State.wholeRead, h]

theorem State.wholeRead_of_not_clears {off : Nat} {s : State} (h : ¬ (rcReg off = true ∧ absentOff s.fuse.part off = false)) :
    s.wholeRead off = s.latchRead off := by
  simp only [State.wholeRead, Bool.and_eq_true, Bool.not_eq_true', if_neg h]

theorem completes_rcRead {off : Nat} {s : State} {P : State → Prop} (hr : s.dev.readable off = true) (h : P (s.wholeRead off)) :
    Completes (.rcRead off) s P := ⟨_, by simp [exec, execRcRead, hr], h⟩

theorem completes_latchedGroupRead {off : Nat} {s : State} {P : State → Prop} (hr : s.dev.readable off = true)
    (h : P (s.latchRead off)) : Completes (.latchedGroupRead off) s P := ⟨_, by simp [exec, execLatchedGroupRead, hr], h⟩

/-- An RC register is returned and cleared, and no other register changes (R10). -/
theorem rcRead_clears_own_register (off : Nat) (s : State) (hr : s.dev.readable off = true) :
    Completes (.rcRead off) s (fun t => s.MainOnly t ∧
      t.dev.out = .readData off (s.readWord off) :: s.dev.out ∧
      (rcReg off = true → absentOff s.fuse.part off = false → t.dev.reg off = 0) ∧ (rcReg off = false → t.dev.reg off = s.dev.reg off) ∧
      (∀ o, o ≠ off → t.dev.reg o = s.dev.reg o) ∧ (latchOthers off = none → t.dev.latch = s.dev.latch) ∧
      t.dev = { s.dev with regs := t.dev.regs, latch := t.dev.latch, out := t.dev.out }) := by
  obtain ⟨m, hm, hnone, -⟩ := s.latchRead_spec off
  refine completes_rcRead hr ?_
  by_cases hc : rcReg off = true ∧ absentOff s.fuse.part off = false
  · rw [State.wholeRead_of_clears hc, hm]
    refine ⟨rfl, rfl, fun _ _ => by simp, fun h => by simp [hc.1] at h, fun o ho => ?_, hnone, rfl⟩
    rw [Dev.reg_setReg, if_neg ho]
    rfl
  · rw [State.wholeRead_of_not_clears hc, hm]
    exact ⟨rfl, rfl, fun h ha => absurd ⟨h, ha⟩ hc, fun _ => rfl, fun _ _ => rfl, hnone, rfl⟩

/-- The first register of a group latches the others (R491). -/
theorem latchedGroupRead_latches_others (off : Nat) (os : List Nat) (s : State) (hr : s.dev.readable off = true)
    (ho : latchOthers off = some os) :
    Completes (.latchedGroupRead off) s (fun t => s.MainOnly t ∧ t.dev.out = .readData off (s.readWord off) :: s.dev.out ∧
      (∀ o, o ∈ os → KMap.get? t.dev.latch o = some (s.current o)) ∧ (∀ o, o ∉ os → KMap.get? t.dev.latch o = KMap.get? s.dev.latch o) ∧
      t.dev = { s.dev with latch := t.dev.latch, out := t.dev.out }) := by
  obtain ⟨m, hm, -, hget⟩ := s.latchRead_spec off
  refine completes_latchedGroupRead hr ?_
  rw [hm]
  exact ⟨rfl, rfl, fun o h => by rw [hget os o ho, if_pos h], fun o h => by rw [hget os o ho, if_neg h], rfl⟩

theorem unreadable_read_changes_nothing (off : Nat) (s : State) (hr : s.dev.readable off = false) :
    Completes (.rcRead off) s (fun t => t = s) ∧ Completes (.latchedGroupRead off) s (fun t => t = s) :=
  ⟨⟨s, by simp [exec, execRcRead, hr], rfl⟩, ⟨s, by simp [exec, execLatchedGroupRead, hr], rfl⟩⟩

/-! ### Writes of BAR0 (chapter 16) -/

theorem completes_registerWrite {off : Nat} {v : Word} {s : State} {P : State → Prop} (ha : off % 4 = 0)
    (hw : s.dev.accepts off = true) (h : P (s.wholeWrite off v)) : Completes (.registerWrite off 15 v) s P :=
  ⟨_, by simp [exec, execRegisterWrite, ha, hw], h⟩

/-- A write that is not whole and aligned, or that the operating state does not accept, has no effect (R9, R11). -/
theorem unaccepted_write_changes_nothing (off be : Nat) (v : Word) (s : State)
    (h : be ≠ 15 ∨ off % 4 ≠ 0 ∨ s.dev.accepts off = false) : Completes (.registerWrite off be v) s (fun t => t = s) := by
  have hc : ¬ (be = 15 ∧ off % 4 = 0 ∧ s.dev.accepts off = true) := by
    rintro ⟨hbe, ha, hw⟩
    simp [hbe, ha, hw] at h
  exact ⟨s, by simp only [exec, execRegisterWrite, if_neg hc], rfl⟩

/-- A write changes the main domain, or it is the one of `TMP_SRC_EN`. -/
theorem State.wholeWrite_mainOnly_or_srcEn (off : Nat) (v : Word) (s : State) :
    s.MainOnly (s.wholeWrite off v) ∨ s.wholeWrite off v = s.writeSrcEn v := by
  by_cases ha : absentOff s.fuse.part off = true
  · left; simp [State.wholeWrite, ha, State.MainOnly]
  by_cases hwin : 0x200000 ≤ off
  · left; simp [State.wholeWrite, ha, hwin, State.MainOnly]
  by_cases hsrc : off = Reg.TMP_SRC_EN
  · right; simp only [State.wholeWrite, if_neg ha, if_neg hwin, if_pos hsrc]
  left
  simp only [State.wholeWrite, if_neg ha, if_neg hwin, if_neg hsrc]
  split
  · rfl
  · split
    · split <;> rfl
    · rfl

theorem State.writeSrcEn_keeps_nv (v : Word) (s : State) :
    (s.writeSrcEn v).nv = s.nv ∧ (s.writeSrcEn v).bd = { s.bd with srcEn := (s.writeSrcEn v).bd.srcEn } := by
  unfold State.writeSrcEn
  dsimp only
  split <;> exact ⟨rfl, rfl⟩

/-- No write reaches non-volatile memory, and of the backup domain only `TMP_SRC_EN` is written. -/
theorem write_keeps_nv (off be : Nat) (v : Word) (s : State) :
    Completes (.registerWrite off be v) s (fun t => t.nv = s.nv ∧ t.bd = { s.bd with srcEn := t.bd.srcEn }) := by
  by_cases hc : be = 15 ∧ off % 4 = 0 ∧ s.dev.accepts off = true
  · obtain ⟨rfl, ha, hw⟩ := hc
    refine completes_registerWrite ha hw ?_
    rcases s.wholeWrite_mainOnly_or_srcEn off v with h | h
    · rw [h]; exact ⟨rfl, rfl⟩
    · rw [h]; exact s.writeSrcEn_keeps_nv v
  · exact ⟨s, by simp only [exec, execRegisterWrite, if_neg hc], rfl, rfl⟩

/-! #### Registers that only store -/

theorem Dev.reg_hostSet {off : Nat} {r : RegRow} (hr : regRow? off = some r) (o : Nat) (v : Word) (d : Dev) :
    (d.hostSet off v).reg o = if o = off then d.written r off v else d.reg o := by
  simp [Dev.hostSet, hr]

/-- The vectors that an event register sends again leave the registers. -/
theorem Dev.reg_writeEvt (off o : Nat) (v : Word) (d : Dev) : (d.writeEvt off v).reg o = (d.hostSet off v).reg o := by
  have hsend (l : List Nat) (d : Dev) :
      (l.foldl (fun (e : Dev) n => if e.vecActive n then e.msix n else e) d).reg o = d.reg o := by
    induction l generalizing d with
    | nil => rfl
    | cons n l ih =>
      rw [List.foldl_cons, ih]
      split
      · exact Dev.reg_msix n o d
      · rfl
  exact hsend _ _

/-- A store takes the bits the register's access lets the host write, and no other register changes (R14). -/
theorem Dev.reg_writePlain {off : Nat} {r : RegRow} {d : Dev} (hr : regRow? off = some r) (hcfg : r.cfg = true → d.op = .config)
    (hrate : instOf (Reg.PLG_RATE 0) 4 256 off = none) (o : Nat) (v : Word) :
    (d.writePlain off v).reg o = if o = off then d.written r off v else d.reg o := by
  have hc : ¬ ((r.cfg && d.op != .config) = true) := by simpa using hcfg
  simp only [Dev.writePlain, hr, hrate, if_neg hc]
  rw [if_neg Bool.false_ne_true]
  split
  · rw [Dev.reg_writeEvt, Dev.reg_hostSet hr]
  · exact Dev.reg_hostSet hr o v d

theorem State.wholeWrite_of_storing {off : Nat} {v : Word} {s : State} (hlt : off < 0x200000) (ha : absentOff s.fuse.part off = false)
    (hsrc : off ≠ Reg.TMP_SRC_EN) (hcur : off ≠ Reg.PLG_CURSOR_0) (hnext : off ≠ Reg.PLG_NEXT)
    (hA : s.dev.writeA s.fuse.part off v = none) (hB : s.dev.writeB off v = none) :
    s.wholeWrite off v = { s with dev := s.dev.writePlain off v } := by
  simp [State.wholeWrite, ha, hlt, hsrc, hcur, hnext, Dev.writeReg, hA, hB]

/-! #### Table windows and `TMP_SRC_EN` -/

theorem State.wholeWrite_of_window {off : Nat} {v : Word} {s : State} (ha : absentOff s.fuse.part off = false) (hwin : 0x200000 ≤ off) :
    s.wholeWrite off v = { s with dev := s.dev.writeWindow s.fuse.part off v } := by
  simp [State.wholeWrite, ha, hwin]

/-- A configuration word goes to the staged view, unless a commit of its tables is pending (R116, R118). -/
theorem Dev.writeWindow_of_viewTable {p : Part} {off m : Nat} {d : Dev} (hend : off < partEnd p off)
    (hm : cfgMask viewTables off = some m) (hview : d.rbit Reg.STM_CTRL 0 = false) (v : Word) :
    d.writeWindow p off v = if d.stm.pend = none then d.setStg off (v &&& BitVec.ofNat 32 m) else d.bump Reg.STM_LOCKED_WR 1 := by
  cases hp : d.stm.pend <;> simp [Dev.writeWindow, hend, hm, hview, hp]

theorem window_write_stages (off m : Nat) (v : Word) (s : State) (halign : off % 4 = 0) (hw : s.dev.accepts off = true)
    (hwin : 0x200000 ≤ off) (hend : off < partEnd s.fuse.part off) (ha : absentOff s.fuse.part off = false)
    (hm : cfgMask viewTables off = some m) (hview : s.dev.rbit Reg.STM_CTRL 0 = false) :
    (s.dev.stm.pend = none → Completes (.registerWrite off 15 v) s (fun t => s.MainOnly t ∧ t.dev.stgW off = v &&& BitVec.ofNat 32 m ∧
      (∀ o, o ≠ off → t.dev.stgW o = s.dev.stgW o) ∧ t.dev = { s.dev with stg := t.dev.stg })) ∧
    (s.dev.stm.pend ≠ none → Completes (.registerWrite off 15 v) s (fun t => t = { s with dev := s.dev.bump Reg.STM_LOCKED_WR 1 })) := by
  constructor
  · intro hp
    refine completes_registerWrite halign hw ?_
    rw [State.wholeWrite_of_window ha hwin, Dev.writeWindow_of_viewTable hend hm hview, if_pos hp]
    exact ⟨rfl, by simp, fun o ho => by simp [ho], rfl⟩
  · intro hp
    refine completes_registerWrite halign hw ?_
    rw [State.wholeWrite_of_window ha hwin, Dev.writeWindow_of_viewTable hend hm hview, if_neg hp]

theorem State.wholeWrite_srcEn (v : Word) (s : State) : s.wholeWrite Reg.TMP_SRC_EN v = s.writeSrcEn v := by
  simp [State.wholeWrite, absentOff, Reg.TMP_SRC_EN]

/-- In FIELD no tamper source is turned off (R430). -/
theorem State.writeSrcEn_of_unlocked (v : Word) (s : State) (hl : s.dev.rbit Reg.ACT_LOCK 1 = false) :
    s.writeSrcEn v = if s.nv.lc = .field ∧ (s.bd.srcEn &&& ~~~(v &&& 0xB#32)) ≠ 0 then s
      else { s with bd := { s.bd with srcEn := v &&& 0xB#32 } } := by
  simp [State.writeSrcEn, hl]

/-- Settles O58: reads with an effect (R10, R491) and writes (R9, R11, R14, R116, R118, R430), clause by clause. -/
theorem registerAccesses : Obligations.RegisterAccesses := by
  refine ⟨⟨rcRead_clears_own_register, latchedGroupRead_latches_others, unreadable_read_changes_nothing⟩,
    unaccepted_write_changes_nothing, write_keeps_nv, ?stores, window_write_stages, ?srcEn⟩
  case stores =>
    intro off v r s halign hw hlt ha hsrc hcur hnext hA hB hr hcfg hrate
    refine completes_registerWrite halign hw ?_
    rw [State.wholeWrite_of_storing hlt ha hsrc hcur hnext hA hB]
    refine ⟨rfl, ?_, fun o ho => ?_⟩
    · exact (Dev.reg_writePlain hr hcfg hrate off v).trans (if_pos rfl)
    · exact (Dev.reg_writePlain hr hcfg hrate o v).trans (if_neg ho)
  case srcEn =>
    intro v s hw hl
    refine completes_registerWrite rfl hw ?_
    rw [State.wholeWrite_srcEn, State.writeSrcEn_of_unlocked v s hl]

/-! ### Every command goes onward -/

/-- An outcome that goes on from `s` to a state with the same queue and fuses, a log still whole, and nothing gone back. -/
def State.AnswersOnward (s : State) (o : Out) : Prop := ∃ t, o = .next t ∧ s.Onward t

theorem State.AnswersOnward.next {s t : State} (h : s.Onward t) : s.AnswersOnward (.next t) := ⟨t, rfl, h⟩

theorem State.onDev_onward (f : Dev → Dev) (s : State) : s.AnswersOnward (s.onDev f) := .next (s.mapDev_onward f)

/-- A meaning of Filigree moves the hop counter of MRAM besides the main domain, which neither the log nor a counter of
`NeverBack` holds. -/
theorem State.onFlg_onward (f : Dev → Dev) (s : State) : s.AnswersOnward (s.onFlg f) :=
  .next ⟨rfl, rfl, Nv.Onward.of_eq rfl rfl (le_refl _) (le_refl _) rfl⟩

/-- A branch of which the other leaves the state as it is. -/
theorem State.guard_onward {s t : State} (c : Prop) [Decidable c] (h : s.Onward t) : s.Onward (if c then t else s) :=
  State.ite_onward c h (State.Onward.refl s)

theorem State.unless_onward {s t : State} (c : Prop) [Decidable c] (h : s.Onward t) : s.Onward (if c then s else t) :=
  State.ite_onward c (State.Onward.refl s) h

/-! #### Keys and update messages (chapter 13) -/

theorem State.journalFlip_onward (slot : Nat) (katOk : Bool) (s : State) : s.Onward (s.journalFlip slot katOk) := by
  unfold State.journalFlip
  split
  case h_1 => exact State.Onward.refl s
  case h_2 x _ =>
    have h0 := s.mapDev_onward (fun d => { d with key := { d.key with install := d.key.install.filter (fun y => y.slot != slot) } })
    refine State.Onward.trans (State.ite_onward _ ?_ ?_) (State.keyResume_onward _)
    · exact (h0.trans (State.flip_onward _ _ _ _)).trans (State.mapDev_onward _ _)
    · exact h0.trans ⟨rfl, rfl, Nv.Onward.of_eq rfl rfl (le_refl _) (le_refl _) rfl⟩

theorem State.certCmd_onward (h : CmdHdr) (addr len : Nat) (memErr : Bool) (s : State) : s.Onward (s.certCmd h addr len memErr) :=
  State.ite_onward _ (State.mapDev_onward _ _) (State.ite_onward _ (State.mapDev_onward _ _) (State.p5Start_onward _ _ _))

theorem State.sakInstall_onward (port sa key : Nat) (keyId : Word) (scs : List Nat) (s : State) :
    s.Onward (s.sakInstall port sa key keyId scs) :=
  State.unless_onward _ ((State.flip_onward _ _ _ s).trans (State.mapDev_onward _ _))

theorem State.msgNote_onward (m : UpdateMsg) (reason : Nat) (flash : Bool) (s : State) : s.Onward (s.msgNote m reason flash) :=
  State.mapDev_onward _ s

theorem State.updateCmd_onward (h : CmdHdr) (m : UpdateMsg) (s : State) : s.Onward (s.updateCmd h m) := by
  unfold State.updateCmd
  refine State.ite_onward _ (State.mapDev_onward _ _) ?_
  split
  case h_1 hr =>
    have h1 := ((s.msgEffect_onward m (msgReason_zero hr)).trans (State.msgNote_onward m 0 false _)).trans
      (State.mapDev_onward (fun d => d.complete h 0xA6 0 [BitVec.ofNat 32 m.typ, m.counter]) _)
    exact State.ite_onward _ (State.mapDev_onward _ _) (State.ite_onward _ (h1.trans (State.enterBoot_onward _ _ _)) h1)
  case h_2 => exact (s.msgNote_onward m 6 false).trans (State.mapDev_onward _ _)
  case h_3 => exact (s.msgNote_onward m _ false).trans (State.mapDev_onward _ _)

/-! #### Power and supplies (chapters 1 and 14) -/

theorem State.toHoldup_onward (s : State) : s.Onward s.toHoldup :=
  (State.guard_onward (s.dev.tbu.sync = 2) s.copyRtc_onward).trans (State.Onward.of_nv rfl rfl rfl)

theorem State.p5Period_onward (a : AnnealerInput) (s : State) : s.Onward (s.p5Period a) := by
  have hrun (l : List (CmdHdr × P5Op × Nat)) (s : State) : s.Onward (l.foldl (fun (s : State) x => s.p5Run x.1 x.2.1) s) :=
    State.foldl_onward _ (fun s x => s.p5Run_onward x.1 x.2.1) l s
  unfold State.p5Period
  exact (State.mapDev_onward _ s).trans (State.unless_onward _ ((hrun _ _).trans (State.keyResume_onward _)))

theorem State.devReset_onward (h : CmdHdr) (s : State) :
    s.Onward (State.enterBoot 3 5 { s with dev := s.dev.complete h 0x04 0 [] }) :=
  (s.mapDev_onward (fun d => d.complete h 0x04 0 [])).trans (State.enterBoot_onward _ _ _)

/-! #### The proof log (chapter 15) -/

/-- Slots marked bad hold no record: the log is as whole as it was, and no number goes back. -/
theorem Nv.markBads_onward (sec : Bool) (n : Nat) (nv : Nv) :
    nv.Onward (if sec then { nv with sec := nv.sec.markBads true n } else { nv with gen := nv.gen.markBads false n }) := by
  cases sec
  case false =>
    have hb := Partition.markBads_recs false n nv.gen
    exact ⟨fun h => ⟨Partition.wf_congr hb h.1, h.2⟩, fun h => ⟨⟨le_refl _, le_refl _, le_refl _, hb.2.1.ge, le_refl _⟩, h⟩⟩
  case true =>
    have hb := Partition.markBads_recs true n nv.sec
    exact ⟨fun h => ⟨h.1, Partition.wf_congr hb h.2⟩, fun h => ⟨⟨le_refl _, le_refl _, le_refl _, le_refl _, hb.2.1.ge⟩, h⟩⟩

theorem State.logCommit_onward (fails : Nat) (s : State) : s.Onward (s.logCommit fails) := by
  unfold State.logCommit
  split
  case h_1 => exact State.Onward.refl s
  case h_2 r _ _ =>
    refine State.unless_onward _ (State.ite_onward _ ?_ ?_)
    · exact ⟨rfl, rfl, commitHead_onward fails s.nv s.dev⟩
    · exact ⟨rfl, rfl, Nv.markBads_onward (secCode r.code) 8 s.nv⟩

/-- The general partition is discarded; the numbers given go on from where they were (R483). -/
theorem State.plgClear_onward (h : CmdHdr) (s : State) : s.Onward (s.plgClear h) :=
  ⟨rfl, rfl, fun hw => ⟨Partition.clear_wf _, hw.2⟩, fun hp => ⟨⟨le_refl _, le_refl _, le_refl _, le_refl _, le_refl _⟩, hp⟩⟩

theorem State.plgSeal_onward (h : CmdHdr) (nonce addr : Nat) (memErr : Bool) (s : State) : s.Onward (s.plgSeal h nonce addr memErr) :=
  State.ite_onward _ (State.p5Start_onward _ _ _) (State.mapDev_onward _ _)

/-! #### Register accesses (chapter 16) -/

theorem State.MainOnly.onward {s t : State} (h : s.MainOnly t) : s.Onward t := by
  rw [h]
  exact State.Onward.of_nv rfl rfl rfl

theorem State.latchRead_onward (off : Nat) (s : State) : s.Onward (s.latchRead off) := by
  obtain ⟨m, hm, -⟩ := s.latchRead_spec off
  rw [hm]
  exact State.Onward.of_nv rfl rfl rfl

theorem State.wholeRead_onward (off : Nat) (s : State) : s.Onward (s.wholeRead off) :=
  State.ite_onward _ ((s.latchRead_onward off).trans (State.mapDev_onward _ _)) (s.latchRead_onward off)

theorem State.writeSrcEn_onward (v : Word) (s : State) : s.Onward (s.writeSrcEn v) :=
  State.unless_onward _ (State.Onward.of_nv rfl rfl rfl)

theorem State.wholeWrite_onward (off : Nat) (v : Word) (s : State) : s.Onward (s.wholeWrite off v) := by
  rcases s.wholeWrite_mainOnly_or_srcEn off v with h | h
  · exact h.onward
  · rw [h]
    exact s.writeSrcEn_onward v

/-! #### The dispatch -/

/-- Every command completes, keeps the queue and the fuses, keeps a whole log whole and lets nothing go back: most change the
main domain only, and Filigree's the hop counter besides; each of the others has its lemma above or in the laws. -/
theorem exec_onward (c : Instr) (s : State) : Completes c s s.Onward := by
  show s.AnswersOnward (exec c s)
  cases c <;> dsimp only [exec]  -- the arm's meaning, so that neither side is run to compare them
  -- Power, restarts and the backup domain
  case powerUp => exact .next (State.guard_onward _ (s.enterBoot_onward _ _))
  case porNReset => exact .next (State.guard_onward _ (s.enterBoot_onward _ _))
  case brownout => exact .next (State.guard_onward _ (s.enterBoot_onward _ _))
  case bootComplete r => exact .next (State.guard_onward _ (s.boot_onward r))
  case devReset h => exact .next (State.cmd_onward _ _ _ _ _ _ (s.devReset_onward h))
  case vbatApplied => exact .next (State.guard_onward _ (State.Onward.of_nv rfl rfl rfl))
  case backupSwitchover => exact .next (State.Onward.of_nv rfl rfl rfl)
  case backupDomainSupplyLost => exact .next (State.guard_onward _ (State.Onward.of_nv rfl rfl rfl))
  case backupRtcCopy => exact .next (State.guard_onward _ s.copyRtc_onward)
  case tamperDetected => exact .next (State.unless_onward _ (State.Onward.of_nv rfl rfl rfl))
  case supplyLost => exact .next (State.guard_onward _ s.toHoldup_onward)
  case lastGaspComplete =>
    exact .next (State.guard_onward _ (State.ite_onward _ (s.lastWork_onward.trans (State.enterBoot_onward _ _ _))
      (s.lastWork_onward.trans (State.switchOff_onward _))))
  case safeSupplyLost =>
    exact .next (State.ite_onward _ (s.lastWork_onward.trans (State.switchOff_onward _))
      (State.guard_onward _ s.switchOff_onward))
  case annealerPeriod a => exact .next (State.unless_onward _ ((State.mapDev_onward _ s).trans (State.p5Period_onward a _)))
  -- Keys and update messages
  case keyGenerate | keyImport | keyDestroy | keyPublic | hlmAttest =>
    exact .next (State.cmd_onward _ _ _ _ _ _ (s.keyStart_onward _ _))
  case hlmCert => exact .next (State.cmd_onward _ _ _ _ _ _ (s.certCmd_onward _ _ _ _))
  case keyUpdate h m => exact .next (State.cmd_onward _ _ _ _ _ _ (s.updateCmd_onward h m))
  case keyJournalFlip => exact .next (s.journalFlip_onward _ _)
  case mkaSakInstall => exact .next (s.sakInstall_onward _ _ _ _ _)
  case provision | advance | return_ | scrap | reseal | rotateAuthority | debugOpen | reblank =>
    exact .next (s.flashRow_onward _ _)
  -- The proof log
  case proofLogCommit => exact .next (s.logCommit_onward _)
  case plgClear h => exact .next (State.cmd_onward _ _ _ _ _ _ (s.plgClear_onward h))
  case plgSeal => exact .next (State.cmd_onward _ _ _ _ _ _ (s.plgSeal_onward _ _ _ _))
  -- Register accesses
  case rcRead => exact .next (State.guard_onward _ (s.wholeRead_onward _))
  case latchedGroupRead => exact .next (State.guard_onward _ (s.latchRead_onward _))
  case registerWrite => exact .next (State.guard_onward _ (s.wholeWrite_onward _ _))
  -- Meanings that can send on Filigree
  case flgFrameReceived | flgBeacon | flgBackoff | flgAckTurnaround | flgAckTimeout | flgHeldFrameExpiry | flgNodeLost
    | flgParentBeaconMissed | flgFloodRelay | flgSeenExpiry | rlpSfdEdge | rlpSfdTimeout | rlpResetEnd | flgSend | flgDisassoc
    | stmValidationEnd | stmCommitApply | devStart | devStopDone => exact s.onFlg_onward _
  -- Every other meaning changes the main domain only
  all_goals exact s.onDev_onward _

/-- Settles O3 (R2, R487): what `exec_onward` says of the queue and the fuses. -/
theorem noCommandMovesQueueOrFuses : Obligations.NoCommandMovesQueueOrFuses := by
  intro c s t ht
  obtain ⟨u, hu, hpending, hfuse, -⟩ := exec_onward c s
  obtain rfl : t = u := by simpa [ht] using hu
  exact ⟨hpending, hfuse⟩

end Sys2Proof.Machine

/-! # The whole machine, and what of it starts, stops, resets and holds keys (chapter 1)

First how a meaning of the main domain or of Filigree answers; then, in the order of the statements, starting and stopping the
data plane, the resets of the host interface and the watchdog, and the keys. -/

namespace Sys2Proof.Machine

/-- Settles O4: every command goes onward (`exec_onward`), so every command goes on. -/
theorem everyCommandGoesOn : Obligations.EveryCommandGoesOn := by
  intro c s
  obtain ⟨t, ht, -⟩ := exec_onward c s
  exact ⟨t, ht⟩

/-! ### How a meaning answers -/

theorem completes_onDev {c : Instr} {f : Dev → Dev} {s : State} {P : State → Prop} (hc : exec c s = s.onDev f)
    (h : P { s with dev := f s.dev }) : Completes c s P := ⟨_, hc, h⟩

/-- A meaning that can send on Filigree also moves the step of the hop counter in MRAM, never back (R356). -/
theorem completes_onFlg {c : Instr} {f : Dev → Dev} {s : State} {d : Dev} {P : State → Prop} (hc : exec c s = s.onFlg f)
    (hd : f s.dev = d) (h : ∀ n, s.nv.hopCtr ≤ n → P { s with dev := d, nv := { s.nv with hopCtr := n } }) : Completes c s P := by
  subst hd
  exact ⟨_, hc, h _ (le_max_left _ _)⟩

/-! ### Starting and stopping the data plane (R42, R44, R45) -/

theorem exec_devStart (h : CmdHdr) (s : State) :
    exec (.devStart h) s = s.onFlg (Dev.cmd h 0x02 [] true [.config] (fun d => d.startPlane.complete h 0x02 0 [])) := rfl

theorem exec_devStop (h : CmdHdr) (s : State) :
    exec (.devStop h) s = s.onDev (Dev.cmd h 0x03 [] true [.run, .degraded] (Dev.stopCmd h)) := rfl

theorem devStart_completes (h : CmdHdr) (s : State) (ha : s.dev.Admits h 0x02 [] true [.config]) :
    Completes (.devStart h) s (fun t => t.dev = s.dev.startPlane.complete h 0x02 0 [] ∧ t.bd = s.bd ∧
      t.nv = { s.nv with hopCtr := t.nv.hopCtr } ∧ s.nv.hopCtr ≤ t.nv.hopCtr) := by
  refine completes_onFlg (exec_devStart h s) (Dev.cmd_of_admits ha) (fun n hn => ⟨?_, rfl, rfl, hn⟩)
  with_reducible rfl

theorem completes_devStop {h : CmdHdr} {s : State} {P : State → Prop} (ha : s.dev.Admits h 0x03 [] true [.run, .degraded])
    (hP : P { s with dev := s.dev.stopCmd h }) : Completes (.devStop h) s P :=
  completes_onDev (exec_devStop h s) (by rw [Dev.cmd_of_admits ha]; exact hP)

theorem Dev.stopCmd_of_idle {d : Dev} (hd : d.host.stopping = none) (h : CmdHdr) : (d.stopCmd h).host.stopping = some h := by
  simp [Dev.stopCmd, hd]

theorem Dev.stopCmd_of_stopping {d : Dev} {k : CmdHdr} (hd : d.host.stopping = some k) (h : CmdHdr) :
    d.stopCmd h = d.refuse h 0x03 6 1 0xFFFF [] := by
  simp [Dev.stopCmd, hd]

theorem devStopDone_completes (h : CmdHdr) (s : State) (hstop : s.dev.host.stopping = some h) (hrun : s.dev.op.running = true) :
    Completes .devStopDone s (fun t =>
      t.dev = ({ s.dev.stopPlane with host := { s.dev.stopPlane.host with stopping := none } } : Dev).complete h 0x03 0 [] ∧
      t.bd = s.bd) := by
  refine ⟨_, rfl, ?_, rfl⟩
  simp only [hstop, hrun, if_true]

/-- Settles O13, clause by clause (R42, R44, R45, Table 1.8). -/
theorem planeStartsAndStops : Obligations.PlaneStartsAndStops := by
  refine ⟨devStart_completes, ?begins, ?again, devStopDone_completes⟩
  case begins =>
    intro h s ha hidle
    exact completes_devStop ha ⟨rfl, Dev.stopCmd_of_idle hidle h⟩
  case again =>
    intro h k s ha hstop
    refine completes_devStop ha ?_
    rw [Dev.stopCmd_of_stopping hstop]
    exact ⟨rfl, rfl, Dev.keeps_refuse ..⟩

/-! ### Resets of the host interface (R41, R396) -/

/-- No fetched command writes its completion any more (R396). -/
def Dev.Muted (d : Dev) : Prop := d.host.fetched.all (fun f => f.noCqe) = true

@[simp] theorem Dev.msix_fetched (v : Nat) (d : Dev) : (d.msix v).host.fetched = d.host.fetched := by
  unfold Dev.msix
  split
  · rfl
  · split <;> rfl

@[simp] theorem Dev.doorbell_host (off : Nat) (w : Word) (d : Dev) : (d.doorbell off w).host = d.host := by
  unfold Dev.doorbell
  split <;> rfl

@[simp] theorem Dev.ringNotify_fetched (c : Nat) (d : Dev) : (d.ringNotify c).host.fetched = d.host.fetched := by
  unfold Dev.ringNotify
  split
  · dsimp only
    split
    · exact Dev.msix_fetched _ _
    · split <;> rfl
  · rfl

/-- An entry written on a completion ring leaves the commands that are fetched. -/
@[simp] theorem Dev.cqWrite_fetched (c : Nat) (o : Nat → Output) (d : Dev) : (d.cqWrite c o).host.fetched = d.host.fetched := by
  unfold Dev.cqWrite
  split
  · rfl
  · split
    · rfl
    · rw [Dev.ringNotify_fetched, Dev.doorbell_host]
      rfl

/-- A command that ends is fetched no longer, and no other is. -/
@[simp] theorem Dev.completeErr_fetched (h : CmdHdr) (code status : Nat) (m : Bool) (p : List Word) (d : Dev) :
    (d.completeErr h code status m p).host.fetched = unfetch h code d.host.fetched := by
  unfold Dev.completeErr
  extract_lets muted e c
  split
  · rfl
  · split
    · rfl
    · exact Dev.cqWrite_fetched ..

theorem mem_of_mem_unfetch {h : CmdHdr} {code : Nat} {l : List Fetched} {f : Fetched} (hf : f ∈ unfetch h code l) : f ∈ l := by
  induction l with
  | nil => exact hf
  | cons g l ih =>
    rw [unfetch] at hf
    split at hf
    · exact List.mem_cons_of_mem g hf
    · rcases List.mem_cons.1 hf with rfl | hf
      · exact List.mem_cons_self
      · exact List.mem_cons_of_mem g (ih hf)

theorem Dev.Muted.completeErr {d : Dev} (hd : d.Muted) (h : CmdHdr) (code status : Nat) (m : Bool) (p : List Word) :
    (d.completeErr h code status m p).Muted := by
  simp only [Dev.Muted, Dev.completeErr_fetched, List.all_eq_true] at hd ⊢
  exact fun f hf => hd f (mem_of_mem_unfetch hf)

theorem Dev.Muted.foldl {α : Type} {f : Dev → α → Dev} (hf : ∀ (e : Dev) (x : α), e.Muted → (f e x).Muted) (l : List α)
    {d : Dev} (hd : d.Muted) : (l.foldl f d).Muted := by
  induction l generalizing d with
  | nil => exact hd
  | cons x l ih => exact ih (hf d x hd)

theorem Dev.Muted.abortFlushes {d : Dev} (hd : d.Muted) : d.abortFlushes.Muted := by
  refine hd.foldl (fun e p he => ?_) _
  split
  · exact Dev.Muted.completeErr (d := e.setSpq _ _) he _ _ _ _ _
  · exact he

theorem Dev.Muted.swgAbort {d : Dev} (hd : d.Muted) (status n : Nat) : (d.swgAbort status n).Muted := by
  have hput : (d.putSwgCtx n SwgCtx.new).Muted := hd
  exact (hput.foldl (fun e c he => he.completeErr _ _ _ _ _) _).foldl (fun e b he => he.completeErr _ _ _ _ _) _

/-- A read of entries of which some keys are left out. -/
theorem KMap.get?_filter {α : Type} (p : Nat → Bool) (m : KMap α) (a : Nat) :
    KMap.get? (m.filter (fun x => p x.1)) a = if p a then KMap.get? m a else none := by
  induction m with
  | nil => simp [KMap.get?]
  | cons x m ih =>
    obtain ⟨k, v⟩ := x
    by_cases ha : a = k
    · subst ha
      by_cases hp : p a = true <;> simp [KMap.get?, hp, ih]
    · by_cases hp : p k = true <;> simp [KMap.get?, hp, ha, ih]

/-- The part of a function-level reset that empties the host interface and the spill queues. -/
def Dev.resetHost (d : Dev) : Dev :=
  { d with
    regs := d.regs.filter (fun p => !(decide (0x120000 ≤ p.1) && decide (p.1 < 0x140000)))
    spq := []
    host := { d.host with polling := false, polls := 0, kicked := false, nextPoll := 0, unmasked := [], pendBits := [],
                          coal := [], ringSent := [] } }

/-- The registers of the host interface and of the spill queues read their reset values, every other register as before. -/
theorem Dev.reg_resetHost (off : Nat) (d : Dev) :
    d.resetHost.reg off = if 0x120000 ≤ off ∧ off < 0x140000 then porOf off else d.reg off := by
  show (KMap.get? (d.regs.filter _) off).getD (porOf off) = _
  rw [KMap.get?_filter (fun o => !(decide (0x120000 ≤ o) && decide (o < 0x140000)))]
  by_cases h : 0x120000 ≤ off ∧ off < 0x140000
  · simp [h]
  · rw [if_neg h, if_pos (by simpa [imp_iff_not_or] using h)]
    rfl

/-- What a function-level reset leaves of the main domain (R396). -/
theorem Dev.flrReset_spec (d : Dev) (hon : d.op.mainOn = true) :
    d.flrReset.Muted ∧ d.flrReset.spq = [] ∧ d.flrReset.host.polling = false ∧ d.flrReset.host.unmasked = [] ∧
      d.flrReset.host.pendBits = [] ∧ (∀ off, 0x120000 ≤ off → off < 0x140000 → d.flrReset.reg off = porOf off) ∧
      d.flrReset.rbit Reg.STM_CTRL 0 = false ∧ d.flrReset.rbit Reg.SFL_CTRL 0 = false := by
  obtain ⟨d0, hd0, hreset⟩ : ∃ d0 : Dev, d0.Muted ∧
      d.flrReset = (d0.resetHost.setField Reg.STM_CTRL 0 1 0).setField Reg.SFL_CTRL 0 1 0 := by
    have hmuted : ({ d with host := { d.host with
        fetched := d.host.fetched.map (fun (f : Fetched) => { f with noCqe := true }) } } : Dev).Muted := by
      simp [Dev.Muted]
    refine ⟨_, Dev.Muted.foldl (fun e n he => he.swgAbort 0 n) [0, 1, 2, 3] hmuted.abortFlushes, ?_⟩
    simp only [Dev.flrReset, hon, Bool.not_true, Bool.false_eq_true, if_false]
    rfl
  rw [hreset]
  refine ⟨hd0, rfl, rfl, rfl, rfl, fun off hlo hhi => ?regs, ?stm, ?sfl⟩
  case regs =>
    have hstm : off ≠ Reg.STM_CTRL := by show off ≠ 0x60000; omega
    have hsfl : off ≠ Reg.SFL_CTRL := by show off ≠ 0xB0000; omega
    rw [Dev.reg_setField, if_neg hsfl, Dev.reg_setField, if_neg hstm, Dev.reg_resetHost, if_pos ⟨hlo, hhi⟩]
  case stm =>
    rw [Dev.rbit, Dev.reg_setField, if_neg (by decide), Dev.reg_setField, if_pos rfl]
    exact Word.bit_setBit _ 0 false (by decide)
  case sfl =>
    rw [Dev.rbit, Dev.reg_setField, if_pos rfl]
    exact Word.bit_setBit _ 0 false (by decide)

theorem hostReset_completes {c : Instr} (hc : c = .functionLevelReset ∨ c = .pciePerst) {s : State} {P : State → Prop}
    (hP : P { s with dev := s.dev.flrReset }) : Completes c s P := by
  rcases hc with rfl | rfl <;> exact completes_onDev (f := Dev.flrReset) rfl hP

/-! ### The management cluster (R464) and the raw counter's check (R85) -/

theorem Dev.watchdog_of_first {d : Dev} (hon : d.op.mainOn = true) (hfirst : d.mgmt.lastWdt = none) :
    d.watchdog = { d.setField Reg.RST_WDT 0 16 (min 65535 (d.fld Reg.RST_WDT 0 16 + 1)) with
      mgmt := { restart := true, lastWdt := some d.raw, wdtPosts := d.mgmt.wdtPosts + 1 } } := by
  simp [Dev.watchdog, hon, hfirst]

/-- An expiry is counted, up to all ones of the field, and the cluster restarts; no other register changes. -/
theorem watchdogExpiry_completes (s : State) (hon : s.dev.op.mainOn = true) (hfirst : s.dev.mgmt.lastWdt = none) :
    Completes .mgmtWatchdogExpiry s (fun t => s.MainOnly t ∧
      t.dev.mgmt = { restart := true, lastWdt := some s.dev.raw, wdtPosts := s.dev.mgmt.wdtPosts + 1 } ∧
      t.dev.fld Reg.RST_WDT 0 16 = min 65535 (s.dev.fld Reg.RST_WDT 0 16 + 1) ∧
      Dev.Keeps (fun off => off == Reg.RST_WDT) { s.dev with mgmt := t.dev.mgmt } t.dev) := by
  refine completes_onDev (f := Dev.watchdog) rfl ?_
  rw [Dev.watchdog_of_first hon hfirst]
  have hfits : min 65535 (s.dev.fld Reg.RST_WDT 0 16 + 1) % 2 ^ 16 = min 65535 (s.dev.fld Reg.RST_WDT 0 16 + 1) := by omega
  refine ⟨rfl, rfl, ?count, Dev.keeps_setReg Reg.RST_WDT _ { s.dev with mgmt := _ } (Or.inl rfl)⟩
  case count =>
    show ((s.dev.setField Reg.RST_WDT 0 16 _).reg Reg.RST_WDT).field 0 16 = _
    rw [Dev.reg_setField, if_pos rfl, Word.field_setField _ _ _ _ (by decide), hfits]

theorem Dev.keeps_postAll {own : Nat → Bool} (code : Nat) (p : Nat → List Word) (l : List Nat) (d : Dev) :
    Dev.Keeps own d (l.foldl (fun (e : Dev) i => e.post code (p i)) d) := by
  induction l generalizing d with
  | nil => exact Dev.Keeps.refl own d
  | cons i l ih => exact (Dev.keeps_post code (p i) d).trans (ih _)

/-- The end of a restart leaves no expiry waiting; the records posted show in reporting only. -/
theorem Dev.mgmtBack_spec {d : Dev} (hr : d.mgmt.restart = true) :
    Dev.Keeps noReg { d with mgmt := { d.mgmt with restart := false, wdtPosts := 0 } } d.mgmtBack := by
  simp only [Dev.mgmtBack, hr, Bool.not_true, Bool.false_eq_true, if_false]
  exact Dev.keeps_postAll 0x35 _ _ _

theorem rawCounterCheck_completes (n : Nat) (s : State) (hon : s.dev.op.mainOn = true) (hlo : 999500000 ≤ n) (hhi : n ≤ 1000500000) :
    Completes (.rawCounterCheck n true) s (fun t => t = { s with dev := s.dev.setField Reg.CLK_STATUS 0 1 1 }) := by
  refine ⟨_, rfl, ?_⟩
  simp [hon, hlo, hhi]

/-- Settles O14, clause by clause (R41, R85, R396, R464, Table 14.7). -/
theorem hostResetAndWatchdog : Obligations.HostResetAndWatchdog := by
  refine ⟨?reset, watchdogExpiry_completes, ?back, rawCounterCheck_completes⟩
  case reset =>
    intro c s hc hon
    exact hostReset_completes hc ⟨rfl, s.dev.flrReset_spec hon⟩
  case back =>
    intro s hr
    have hk := Dev.mgmtBack_spec hr
    refine completes_onDev (f := Dev.mgmtBack) rfl ⟨rfl, hk.mgmt_eq, ?_⟩
    rw [hk.mgmt_eq]
    exact hk

/-! ### Keys: the journal flip (R407, R409) -/

theorem mem_insertBy {α : Type} (le : α → α → Bool) (x y : α) (l : List α) : y ∈ insertBy le x l ↔ y = x ∨ y ∈ l := by
  induction l with
  | nil => simp [insertBy]
  | cons z l ih =>
    rw [insertBy]
    split
    · exact List.mem_cons
    · rw [List.mem_cons, List.mem_cons, ih, or_left_comm]

/-- The copy a journal names once the bit of one slot has been set or cleared. -/
theorem journal_contains (le : Nat → Nat → Bool) (slot n : Nat) (copy : Bool) (journal : List Nat) :
    (if copy then insertBy le slot (journal.filter (fun m => m != slot)) else journal.filter (fun m => m != slot)).contains n =
      if n = slot then copy else journal.contains n := by
  rw [Bool.eq_iff_iff]
  by_cases hn : n = slot
  · cases copy <;> simp [mem_insertBy, hn]
  · cases copy <;> simp [mem_insertBy, hn]

/-- What a flip does to a slot: its new key stands in the plate and is installed now, the journal names its copy, the generation
is its own, the flip is counted and its event raised. Of the plate's other state only a replaced key's grace moves, and of
non-volatile memory besides only the copies and Filigree's hop counter. -/
structure State.Flipped (slot : Nat) (k : KeyRec) (ctr : Option Nat) (s t : State) : Prop where
  key : t.dev.key = { s.dev.key with
    plate := KMap.put s.dev.key.plate slot { k with instMs := s.dev.opMs % 2 ^ 32 }, grace := t.dev.key.grace }
  copyOf : ∀ n, t.bd.copyOf n = if n = slot then k.copy else s.bd.copyOf n
  root : t.bd.root = s.bd.root
  nv : t.nv = { s.nv with
    store := t.nv.store, gens := KMap.put s.nv.gens slot k.gen, importCtr := ctr.getD s.nv.importCtr, hopCtr := t.nv.hopCtr }
  flips : t.dev.reg Reg.KEY_FLIPS = s.dev.reg Reg.KEY_FLIPS + 1
  event : t.dev.rbit Reg.KEY_EVT 0 = true
  op : t.dev.op = s.dev.op

theorem State.Flipped.replaced {slot : Nat} {k : KeyRec} {ctr : Option Nat} {s t : State} (h : s.Flipped slot k ctr t)
    (old : Option KeyRec) : s.Flipped slot k ctr (t.replaced slot old) := by
  have hgrace (g : Dev → KMap (KeyRec × Nat)) :
      s.Flipped slot k ctr (t.mapDev (fun d => { d with key := { d.key with grace := g d } })) :=
    { h with key := by rw [State.mapDev_dev, h.key] }
  have hhop {u : State} (hu : s.Flipped slot k ctr u) (x : FlgS) :
      s.Flipped slot k ctr { u with nv := { u.nv with hopCtr := 0 }, dev := { u.dev with flg := x } } :=
    { hu with nv := by dsimp only; rw [hu.nv] }
  unfold State.replaced
  extract_lets u
  have hu : s.Flipped slot k ctr u := by
    unfold u
    split
    · split
      · exact hgrace (fun d => KMap.put d.key.grace slot (_, d.raw + 100000000))
      · exact h
    · exact h
  split
  · exact hhop hu _
  · exact hu

@[simp] theorem Dev.reg_withKey (x : KeyS) (off : Nat) (d : Dev) : ({ d with key := x } : Dev).reg off = d.reg off := rfl

theorem State.flip_spec (slot : Nat) (k : KeyRec) (ctr : Option Nat) (s : State) : s.Flipped slot k ctr (s.flip slot k ctr) := by
  unfold State.flip
  refine State.Flipped.replaced ?_ _
  exact
    { key := by simp
      copyOf := fun n => journal_contains _ slot n k.copy s.bd.journal
      root := rfl
      nv := rfl
      flips := by rw [Dev.reg_post _ _ _ _ (by decide)]; simp
      event := by
        rw [Dev.rbit, Dev.reg_post _ _ _ _ (by decide)]
        exact Dev.rbit_raise _ _ _ (by decide)
      op := by simp }

namespace State.Flipped

variable {slot : Nat} {k : KeyRec} {ctr : Option Nat} {s t : State} (h : s.Flipped slot k ctr t)
include h

theorem plate (n : Nat) : KMap.get? t.dev.key.plate n =
    if n = slot then some { k with instMs := s.dev.opMs % 2 ^ 32 } else KMap.get? s.dev.key.plate n := by
  rw [h.key]
  exact KMap.get?_put ..

theorem genOf (n : Nat) : t.nv.genOf n = if n = slot then k.gen else s.nv.genOf n := by
  rw [h.nv, Nv.genOf, KMap.getD, KMap.get?_put]
  split <;> rfl

theorem install_eq : t.dev.key.install = s.dev.key.install := by rw [h.key]

theorem waiting_eq : t.dev.key.waiting = s.dev.key.waiting := by rw [h.key]

end State.Flipped

theorem State.keyResume_of_idle {s : State} (hw : s.dev.key.waiting = []) : s.keyResume = s := by
  simp only [State.keyResume, hw, List.foldl_nil]
  show ({ s with dev := { s.dev with key := { s.dev.key with waiting := [] } } } : State) = s
  rw [← hw]

/-- The installation of a slot has ended. -/
def Dev.dropInstall (slot : Nat) (d : Dev) : Dev :=
  { d with key := { d.key with install := d.key.install.filter (fun y => y.slot != slot) } }

theorem exec_keyJournalFlip (slot : Nat) (katOk : Bool) (s : State) :
    exec (.keyJournalFlip slot katOk) s = .next (s.journalFlip slot katOk) := rfl

theorem State.journalFlip_of_none {slot : Nat} {s : State} (h : s.dev.key.install.find? (fun y => y.slot == slot) = none)
    (katOk : Bool) : s.journalFlip slot katOk = s := by
  simp only [State.journalFlip, h]

section
variable {slot : Nat} {x : Install} {s : State} (hx : s.dev.key.install.find? (fun y => y.slot == slot) = some x)
  (hw : s.dev.key.waiting = [])
include hx hw

/-- A check that holds: the key flips, and its command completes with the time of the flip. -/
theorem State.journalFlip_of_ok : s.journalFlip slot true =
    (((s.mapDev (Dev.dropInstall slot)).flip slot x.newKey x.counter).mapDev (fun d => d.complete x.hdr x.code 0
      [lo32 d.raw, hi32 d.raw, BitVec.ofNat 32 x.newKey.kcv, x.newKey.gen])) := by
  simp only [State.journalFlip, hx, if_true]
  refine State.keyResume_of_idle ?_
  rw [State.mapDev_dev, Dev.complete_key, (State.flip_spec ..).waiting_eq]
  exact hw

/-- A check that fails: the shadow copy is erased, and the command ends with its reason. -/
theorem State.journalFlip_of_failed : s.journalFlip slot false =
    ({ s with nv := s.nv.eraseShadow x.newKey.copy slot, dev := s.dev.dropInstall slot } : State).mapDev
      (Dev.keyEnd x.hdr x.code 7 8) := by
  simp only [State.journalFlip, hx, Bool.false_eq_true, if_false]
  refine State.keyResume_of_idle ?_
  rw [State.mapDev_dev, Dev.keyEnd, Dev.complete_key]
  exact hw

theorem journalFlip_installs : Completes (.keyJournalFlip slot true) s (fun t =>
    KMap.get? t.dev.key.plate slot = some { x.newKey with instMs := s.dev.opMs % 2 ^ 32 } ∧ t.bd.copyOf slot = x.newKey.copy ∧
    t.nv.genOf slot = x.newKey.gen ∧ t.nv.importCtr = x.counter.getD s.nv.importCtr ∧
    (∀ n, n ≠ slot → KMap.get? t.dev.key.plate n = KMap.get? s.dev.key.plate n ∧ t.bd.copyOf n = s.bd.copyOf n ∧ t.nv.genOf n = s.nv.genOf n) ∧
    t.dev.reg Reg.KEY_FLIPS = s.dev.reg Reg.KEY_FLIPS + 1 ∧ t.dev.rbit Reg.KEY_EVT 0 = true ∧
    t.dev.key.install = s.dev.key.install.filter (fun y => y.slot != slot) ∧ t.bd.root = s.bd.root ∧ t.nv.lc = s.nv.lc) := by
  refine ⟨_, exec_keyJournalFlip slot true s, ?_⟩
  rw [State.journalFlip_of_ok hx hw]
  have hf := (s.mapDev (Dev.dropInstall slot)).flip_spec slot x.newKey x.counter
  simp only [State.mapDev_dev, State.mapDev_nv, State.mapDev_bd, Dev.complete_key]
  refine ⟨(hf.plate slot).trans (if_pos rfl), (hf.copyOf slot).trans (if_pos rfl), (hf.genOf slot).trans (if_pos rfl), ?counter,
    fun n hn => ⟨(hf.plate n).trans (if_neg hn), (hf.copyOf n).trans (if_neg hn), (hf.genOf n).trans (if_neg hn)⟩,
    (Dev.reg_complete _ _ _ _ _ _ (by decide)).trans hf.flips, ?event, hf.install_eq, hf.root, ?lc⟩
  case counter => rw [hf.nv]; rfl
  case event =>
    rw [Dev.rbit, Dev.reg_complete _ _ _ _ _ _ (by decide)]
    exact hf.event
  case lc => rw [hf.nv]; rfl

theorem journalFlip_gives_up : Completes (.keyJournalFlip slot false) s (fun t =>
    t.dev.key = { s.dev.key with install := s.dev.key.install.filter (fun y => y.slot != slot) } ∧ t.bd = s.bd ∧
    t.nv = { s.nv with store := t.nv.store } ∧ Dev.Keeps noReg { s.dev with key := t.dev.key } t.dev) := by
  refine ⟨_, exec_keyJournalFlip slot false s, ?_⟩
  rw [State.journalFlip_of_failed hx hw]
  have hkeeps : Dev.Keeps noReg (s.dev.dropInstall slot) ((s.dev.dropInstall slot).keyEnd x.hdr x.code 7 8) := Dev.keeps_complete ..
  refine ⟨hkeeps.key_eq, rfl, rfl, ?_⟩
  rw [State.mapDev_dev, hkeeps.key_eq]
  exact hkeeps

end

/-! ### Grace, the random generator and MKA (R97, R409, R418) -/

theorem exec_brazeKeyGraceEnd (slot : Nat) (s : State) : exec (.brazeKeyGraceEnd slot) s = s.onDev (Dev.graceEnd slot) := rfl

theorem graceEnd_completes (slot due : Nat) (r : KeyRec) (s : State) (hg : KMap.get? s.dev.key.grace slot = some (r, due)) :
    Completes (.brazeKeyGraceEnd slot) s (fun t =>
      t = if due ≤ s.dev.raw then { s with dev := { s.dev with key := { s.dev.key with grace := KMap.del s.dev.key.grace slot } } } else s) := by
  refine completes_onDev (exec_brazeKeyGraceEnd slot s) ?_
  simp only [Dev.graceEnd, hg]
  split <;> rfl

theorem Dev.rngFailure_early {d : Dev} (hon : d.op.mainOn = true) (hok : d.key.rngFail = false) (hn : d.key.rngRuns < 2) :
    d.rngFailure = { d with key := { d.key with rngRuns := d.key.rngRuns + 1 } } := by
  have hfew : d.key.rngRuns + 1 < 3 := by omega
  simp [Dev.rngFailure, hon, hok, hfew]

/-- The third failure in a row stops the generator, raises its event and posts its record. -/
theorem Dev.rngFailure_third {d : Dev} (hon : d.op.mainOn = true) (hok : d.key.rngFail = false) (hn : 2 ≤ d.key.rngRuns) :
    d.rngFailure = (({ d with free := d.free + 1, key := { d.key with rngRuns := d.key.rngRuns + 1, rngFail := true } } : Dev).raise
      Reg.KEY_EVT 1).post 0x87 [BitVec.ofNat 32 (d.drawN 80).1, 0, 0, 0] := by
  have hthird : ¬ d.key.rngRuns + 1 < 3 := by omega
  simp only [Dev.rngFailure, hok, hon, Bool.not_true, Bool.or_false, Bool.false_eq_true, if_false, if_neg hthird]
  rfl

theorem rngThird_completes (s : State) (hon : s.dev.op.mainOn = true) (hok : s.dev.key.rngFail = false) (hn : 2 ≤ s.dev.key.rngRuns) :
    Completes .rngHealthFail s (fun t => s.MainOnly t ∧
      t.dev.key = { s.dev.key with rngRuns := s.dev.key.rngRuns + 1, rngFail := true } ∧ t.dev.rbit Reg.KEY_EVT 1 = true ∧
      Dev.Keeps (fun off => off == Reg.KEY_EVT) { s.dev with key := t.dev.key } t.dev) := by
  refine completes_onDev (f := Dev.rngFailure) rfl ?_
  rw [Dev.rngFailure_third hon hok hn]
  refine ⟨rfl, by simp, ?event, ?keeps⟩
  case event =>
    rw [Dev.rbit, Dev.reg_post _ _ _ _ (by decide)]
    exact Dev.rbit_raise _ _ _ (by decide)
  case keeps =>
    simp only [Dev.post_key, Dev.raise_key]
    refine Dev.Keeps.trans (Dev.Keeps.trans ?_ (Dev.keeps_raise _ _ _ (Or.inl rfl))) (Dev.keeps_post ..)
    exact Dev.keeps_of_regs rfl rfl

@[simp] theorem Dev.port_setPort (n m : Nat) (x : PortS) (d : Dev) : (d.setPort n x).port m = if m = n then x else d.port m := by
  simp only [Dev.port, Dev.setPort, KMap.get?_put]
  split <;> rfl

theorem exec_mkaSakInstall (port sa key : Nat) (keyId : Word) (scs : List Nat) (s : State) :
    exec (.mkaSakInstall port sa key keyId scs) s = .next (s.sakInstall port sa key keyId scs) := rfl

/-- MKA's key flips into the slot of its port and association, and the port sends under it (R97). -/
theorem sakInstall_completes (port sa key : Nat) (keyId : Word) (scs : List Nat) (s : State) (hport : port ≤ 3) (hsa : sa ≤ 1)
    (husable : s.nv.keysUsable = true) (hop : s.dev.op ∈ legalCRD) :
    Completes (.mkaSakInstall port sa key keyId scs) s (fun t => (t.dev.port port).txSa = some sa ∧
      (∃ k : KeyRec, KMap.get? t.dev.key.plate (248 + 2 * port + sa) = some k ∧ k.key = key ∧ k.keyId = keyId ∧ k.typ = 2 ∧ k.usage = 2 ∧
        k.gen = s.nv.genOf (248 + 2 * port + sa) + 1) ∧
      (∀ n, n ≠ 248 + 2 * port + sa → KMap.get? t.dev.key.plate n = KMap.get? s.dev.key.plate n) ∧ t.dev.op = s.dev.op) := by
  refine ⟨_, exec_mkaSakInstall port sa key keyId scs s, ?_⟩
  have hgo : ¬ (3 < port ∨ 1 < sa ∨ s.nv.keysUsable = false ∨ (!(legalCRD.contains s.dev.op)) = true) := by
    simp [husable, hop, hport, hsa]
  rw [State.sakInstall, if_neg hgo]
  have hf := State.flip_spec (248 + 2 * port + sa)
    (s.dev.newKey s.nv s.bd (248 + 2 * port + sa) 3 2 2 keyId 0 (Config.kcv 2 key) key) none s
  refine ⟨?sends, ⟨_, (hf.plate _).trans (if_pos rfl), rfl, rfl, rfl, rfl, rfl⟩, fun n hn => (hf.plate n).trans (if_neg hn), hf.op⟩
  case sends => simp

/-- Settles O53, clause by clause (R28, R97, R407, R409, R418). -/
theorem keysChangeAtTheFlip : Obligations.KeysChangeAtTheFlip := by
  refine ⟨fun slot x s hx hw => ⟨journalFlip_installs hx hw, journalFlip_gives_up hx hw⟩, ?none, graceEnd_completes,
    fun s hon hok => ⟨fun hn => ?early, rngThird_completes s hon hok⟩, sakInstall_completes⟩
  case none =>
    intro slot ok s hx
    exact ⟨_, exec_keyJournalFlip slot ok s, State.journalFlip_of_none hx ok⟩
  case early =>
    refine completes_onDev (f := Dev.rngFailure) rfl ?_
    rw [Dev.rngFailure_early hon hok hn]

end Sys2Proof.Machine

/-! # The time base (chapter 2), and what reset and the passing of time leave

First the rules of derived time and of a word's bits and fields; then, in the order of the statements, the tick, reset, strobes
and comparators, the writes of the rate and of `TBU_CTRL`, steps, leap seconds, references and qualification. -/

namespace Sys2Proof

/-! ### Bits and fields -/

theorem Word.bit_eq (w : Word) (i : Nat) : w.bit i = decide (w.toNat / 2 ^ i % 2 = 1) := Nat.testBit_eq_decide_div_mod_eq

theorem Word.bit_ofNat (n i : Nat) (h : i < 32) : Word.bit (BitVec.ofNat 32 n) i = n.testBit i := by
  rw [Word.bit, BitVec.toNat_ofNat, Nat.testBit_mod_two_pow, decide_eq_true h, Bool.true_and]

/-- The bits of a field. -/
theorem Word.testBit_field (w : Word) (lo len j : Nat) : (w.field lo len).testBit j = (decide (j < len) && w.bit (lo + j)) := by
  rw [Word.field, Nat.testBit_mod_two_pow, Nat.testBit_shiftRight, Word.bit]

/-- A field none of whose bits is written. -/
theorem Word.field_setField_ne (w : Word) (lo len v lo' len' : Nat) (h : lo + len ≤ 32) (hd : lo' + len' ≤ lo ∨ lo + len ≤ lo') :
    (w.setField lo len v).field lo' len' = w.field lo' len' := by
  refine Nat.eq_of_testBit_eq fun j => ?_
  rw [Word.testBit_field, Word.testBit_field]
  by_cases hj : j < len'
  · rw [Word.bit_setField_ne w lo len v (lo' + j) h (by omega)]
  · simp [hj]

theorem Word.bit_setField_one (w : Word) (i v : Nat) (h : i < 32) : (w.setField i 1 v).bit i = decide (v % 2 = 1) := by
  rw [Word.bit_eq_field, Word.field_setField w i 1 v (by omega)]
  rfl

/-- The bits of a field that reads 0. -/
theorem Word.bit_of_field_eq_zero {w : Word} {lo len : Nat} (h : w.field lo len = 0) {i : Nat} (hlo : lo ≤ i) (hhi : i < lo + len) :
    w.bit i = false := by
  have hb := w.testBit_field lo len (i - lo)
  rw [h, Nat.zero_testBit, decide_eq_true (by omega : i - lo < len), Bool.true_and, Nat.add_sub_cancel' hlo] at hb
  exact hb.symm

end Sys2Proof

namespace Sys2Proof.Machine

/-! ### How a meaning with a condition, or of a host command, answers -/

/-- A meaning of the main domain whose condition holds. -/
theorem completes_if {c : Instr} {s : State} {P : State → Prop} {p : Prop} [Decidable p] {d e : Dev}
    (hc : exec c s = .next { s with dev := if p then d else e }) (hp : p) (h : P { s with dev := d }) : Completes c s P :=
  ⟨_, hc, by simpa only [if_pos hp] using h⟩

/-- A meaning of the main domain whose condition fails. -/
theorem completes_if_not {c : Instr} {s : State} {P : State → Prop} {p : Prop} [Decidable p] {d e : Dev}
    (hc : exec c s = .next { s with dev := if p then d else e }) (hp : ¬ p) (h : P { s with dev := e }) : Completes c s P :=
  ⟨_, hc, by simpa only [if_neg hp] using h⟩

/-- A host command that is admitted. -/
theorem completes_cmd {c : Instr} {h : CmdHdr} {code : Nat} {slots : List Nat} {present : Bool} {legal : List OpState}
    {body : Dev → Dev} {s : State} {P : State → Prop} (hc : exec c s = s.onDev (Dev.cmd h code slots present legal body))
    (ha : s.dev.Admits h code slots present legal) (hP : P { s with dev := body s.dev }) : Completes c s P :=
  completes_onDev hc (by rw [Dev.cmd_of_admits ha]; exact hP)

theorem Dev.reg_setReg_ne {off o : Nat} (h : o ≠ off) (w : Word) (d : Dev) : (d.setReg off w).reg o = d.reg o := by
  rw [Dev.reg_setReg, if_neg h]

/-- What reporting leaves, when the time base has moved as well. -/
theorem Dev.Keeps.of_tbu {own : Nat → Bool} {d e : Dev} {x : TbuS} (h : Dev.Keeps own { d with tbu := x } e) :
    Dev.Keeps own { d with tbu := e.tbu } e := by
  rw [h.tbu_eq]
  exact h

theorem signedOf_bounds (n : Nat) : -549755813888 ≤ signedOf 40 n ∧ signedOf 40 n ≤ 549755813887 := by
  unfold signedOf
  split <;> omega

/-! ### Derived time (R47, R48) -/

/-- Derived time is a function of the time base and the raw count. -/
theorem Dev.derived_congr {d e : Dev} (htbu : e.tbu = d.tbu) (hraw : e.raw = d.raw) : e.derived = d.derived := by
  rw [Dev.derived, Dev.derived, htbu, hraw]

/-- A change of rate leaves derived time (R48). -/
@[simp] theorem Dev.derived_setRate (r : Int) (d : Dev) : (d.setRate r).derived = d.derived := by
  simp [Dev.setRate, Dev.derived]

@[simp] theorem Dev.derived_dropPhase (d : Dev) : d.dropPhase.derived = d.derived := Dev.derived_setRate _ _

@[simp] theorem Dev.derived_setReg (off : Nat) (w : Word) (d : Dev) : (d.setReg off w).derived = d.derived := rfl

@[simp] theorem Dev.derived_setField (off lo len v : Nat) (d : Dev) : (d.setField off lo len v).derived = d.derived := rfl

@[simp] theorem Dev.t16_setReg (off : Nat) (w : Word) (d : Dev) : (d.setReg off w).t16 = d.t16 := rfl

theorem Dev.derived_later (n : Nat) (d : Dev) :
    ({ d with raw := d.raw + n } : Dev).derived = d.derived + n * (281474976710656 + d.tbu.rate) := by
  simp only [Dev.derived]
  push_cast
  ring

/-- Settles O19 (R47, R48). -/
theorem derivedTimeIsContinuous : Obligations.DerivedTimeIsContinuous := ⟨Dev.derived_setRate, Dev.derived_later⟩

/-! ### A nanosecond passes (log entry 3) -/

theorem step_of_idle {s : State} (h : s.pending = []) : step s = .next s.tick := by
  simp only [step, h]

theorem State.tick_dev (s : State) : s.tick.dev.op = s.dev.op ∧
    s.tick.dev.raw = if s.dev.op.mainOn then s.dev.raw + 1 else s.dev.raw := by
  obtain ⟨x, hk⟩ := s.dev.tickOne_keeps
  by_cases hon : s.dev.op.mainOn = true
  · simp only [State.tick, if_pos hon]
    exact ⟨hk.op_eq, hk.raw_eq⟩
  · simp [State.tick, hon]

theorem State.tick_bd (s : State) : s.tick.bd = { s.bd with rtcNs := if s.dev.op = .off then s.bd.rtcNs else s.bd.rtcNs + 1 } := by
  unfold State.tick
  split <;> rfl

/-- Settles O2: what a tick moves in the two domains (R46, log entry 3). -/
theorem idleStepIsATick : Obligations.IdleStepIsATick := by
  intro s hs
  obtain ⟨hop, hraw⟩ := s.tick_dev
  exact ⟨s.tick, step_of_idle hs, hraw, by rw [s.tick_bd], hop, by rw [s.tick_bd], rfl, rfl, hs⟩

/-! ### Reset (R46, R465) -/

theorem RegRow.le_of_has {r : RegRow} {off : Nat} (h : r.has off = true) : r.base ≤ off ∧ off ≤ r.base + r.stride * r.count := by
  unfold RegRow.has at h
  split at h
  · simp only [Bool.and_eq_true, decide_eq_true_eq] at h
    omega
  · next hs =>
    simp only [Bool.and_eq_true, decide_eq_true_eq] at h
    obtain ⟨hlo, -, hcount⟩ := h
    have hlt := (Nat.div_lt_iff_lt_mul (Nat.pos_of_ne_zero hs)).1 hcount
    rw [Nat.mul_comm] at hlt
    omega

/-- No row of the register map that reaches the ring controls has its bit 0 set at power-on. -/
theorem regRows_ring_por : regRows.all (fun r => r.por % 2 == 0 || decide (r.base + r.stride * r.count < 0x121000) ||
    decide (0x122000 ≤ r.base)) = true := by
  simp only [regRows, List.all_append]
  rfl

theorem porOf_ring_bit_zero {off : Nat} (hlo : 0x121000 ≤ off) (hhi : off < 0x122000) : (porOf off).bit 0 = false := by
  rw [porOf, if_neg (by omega)]
  cases hr : regRow? off with
  | none => rfl
  | some r =>
    obtain ⟨hb, he⟩ := RegRow.le_of_has (List.find?_some (p := fun (x : RegRow) => x.has off) hr)
    have hrow := List.all_eq_true.1 regRows_ring_por r (List.mem_of_find?_eq_some hr)
    simp only [Bool.or_eq_true, beq_iff_eq, decide_eq_true_eq] at hrow
    have heven : r.por % 2 = 0 := by omega
    rw [Word.bit_ofNat _ _ (by decide), Nat.testBit_zero, heven]
    rfl

/-- Every register of the host interface and beyond reads its power-on value. -/
def Dev.HostPor (d : Dev) : Prop := ∀ off, 0x120000 ≤ off → d.reg off = porOf off

theorem Dev.HostPor.setReg {d : Dev} (hd : d.HostPor) {o : Nat} (ho : o < 0x120000) (w : Word) : (d.setReg o w).HostPor := by
  intro off hoff
  rw [Dev.reg_setReg, if_neg (by omega)]
  exact hd off hoff

/-- The registers that a pass through BOOT fills as it begins lie below the host interface (R465). -/
theorem Dev.atBoot_hostPor (fz : Fuse) (pcc cause ctr : Nat) (debug debugged : Bool) :
    (Dev.atBoot fz pcc cause ctr debug debugged).HostPor := by
  unfold Dev.atBoot
  extract_lets d0 d1 d2 d3 d4
  have h0 : d0.HostPor := fun _ _ => rfl
  have h1 : d1.HostPor := (h0.setReg (by decide) _).setReg (by decide) _
  have h2 : d2.HostPor := (h1.setReg (by decide) _).setReg (by decide) _
  have hmac {d : Dev} (hd : d.HostPor) (n : Nat) (hn : n < 4) (lo hi : Word) :
      ((d.setReg (Reg.NET_MAC_LO n) lo).setReg (Reg.NET_MAC_HI n) hi).HostPor :=
    (hd.setReg (by show _ + _ < _; omega) lo).setReg (by show _ + _ < _; omega) hi
  have h3 : d3.HostPor := hmac (hmac (hmac (hmac h2 0 (by decide) _ _) 1 (by decide) _ _) 2 (by decide) _ _) 3 (by decide) _ _
  have h4 : d4.HostPor := by
    unfold d4
    split
    · exact (h3.setReg (by decide) _).setReg (by decide) _
    · exact h3
  exact h4

/-- Settles O8: BOOT writes its causes and identity into a main domain in its power-on state (R46, R84, R396, R401, R465). -/
theorem resetIsBoot : Obligations.ResetIsBoot := by
  refine ⟨rfl, rfl, rfl, rfl, rfl, rfl, rfl, rfl, fun n hn => ?ring, ?cause⟩
  case ring =>
    have hlo : 0x121000 ≤ Reg.HST_RING_CTRL n := by show _ ≤ _ + _; omega
    have hhi : Reg.HST_RING_CTRL n < 0x122000 := by show _ + _ < _; omega
    rw [Dev.ringCtrl, show State.reset.dev.reg _ = porOf _ from Dev.atBoot_hostPor _ _ _ _ _ _ _ (by omega)]
    exact porOf_ring_bit_zero hlo hhi
  case cause => decide

/-! ### Strobes (R51) -/

/-- Outside the states of the alarm path, with no set open, a slot strobe has nothing to do. -/
theorem Dev.strobe_of_no_sets {d : Dev} (halarm : d.op.alarm = false) (hsets : d.eas.sets = []) (rc k : Nat) : d.strobe rc k = d := by
  have hopen : d.openSet? rc k = none := by rw [Dev.openSet?, hsets]; rfl
  have hrun : d.op.running = false := by
    revert halarm
    cases d.op <;> simp [OpState.alarm, OpState.running]
  simp only [Dev.strobe, hopen, halarm, hrun, Bool.false_eq_true, if_false]

theorem slotStrobe_completes (rc k : Nat) (s : State) (hon : s.dev.op.mainOn = true) (hrc : rc < 12)
    (hk : KMap.getD s.dev.tbu.nextSlot rc 0 = k) (ht : (slot16 (rateOf rc) k : Nat) ≤ s.dev.t16) :
    Completes (.slotStrobe rc k) s (fun t => s.MainOnly t ∧
      t.dev = ({ s.dev with tbu := { s.dev.tbu with nextSlot := KMap.put s.dev.tbu.nextSlot rc (k + 1) } } : Dev).strobe rc k ∧
      (s.dev.op.alarm = false → s.dev.eas.sets = [] →
        t.dev = { s.dev with tbu := { s.dev.tbu with nextSlot := KMap.put s.dev.tbu.nextSlot rc (k + 1) } })) := by
  refine completes_if rfl ?_ ⟨rfl, rfl, fun ha hs => ?_⟩
  · simp only [hon, hrc, hk, ht, decide_true, beq_self_eq_true, Bool.and_self]
  · exact Dev.strobe_of_no_sets (by exact ha) (by exact hs) rc k

theorem preSlotStrobe_completes (rc k : Nat) (s : State) (hon : s.dev.op.mainOn = true) (hrc : rc < 12)
    (hk : KMap.getD s.dev.tbu.nextPre rc 0 = k) (ht : (slot16 (rateOf rc) k : Nat) ≤ s.dev.t16 + 12000 * 65536) :
    Completes (.preSlotStrobe rc k) s (fun t =>
      t = { s with dev := { s.dev with tbu := { s.dev.tbu with nextPre := KMap.put s.dev.tbu.nextPre rc (k + 1) } } }) := by
  refine completes_if rfl ?_ rfl
  simp only [hon, hrc, hk, ht, decide_true, beq_self_eq_true, Bool.and_self]

/-! ### Time-event comparators (R80 to R83) -/

/-- The control register of a comparator is none of its other registers. -/
theorem tevCtrl_ne (n k : Nat) (hk : 0 < k) (hk' : k < 0x20) : 0x30200 + k + 0x20 * n ≠ Reg.TBU_TEV_CTRL n := by
  show _ ≠ 0x30200 + 0x20 * n
  omega

/-- A comparator that is armed stores its enable, and takes its target. -/
theorem Dev.writeTev_arms (n : Nat) (v : Word) (d : Dev) (hv : v.bit 0 = true) (hoff : d.rbit (Reg.TBU_TEV_CTRL n) 0 = false) :
    ∃ w : Word, w.bit 0 = true ∧ d.writeTev n v = (d.setReg (Reg.TBU_TEV_CTRL n) w).tevArmNow n := by
  unfold Dev.writeTev
  extract_lets c was keep all low e
  refine ⟨BitVec.ofNat 32 (low + keep), ?enable, ?armed⟩
  case enable =>
    have hall : all % 2 = 1 := by simpa [hv] using v.testBit_field 0 8 0
    have hall4 : v.bit 4 = true → 16 ≤ all := fun h4 => by
      have h := v.testBit_field 0 8 4
      rw [show v.bit (0 + 4) = true from h4] at h
      exact Nat.ge_two_pow_of_testBit h
    have hlow : low % 2 = 1 := by
      unfold low
      split
      · exact hall
      · split
        · have := hall4 ‹_›; omega
        · exact hall
    have hkeep : keep % 2 = 0 := by
      unfold keep
      split <;> split <;> rfl
    rw [Word.bit_ofNat _ _ (by decide), Nat.testBit_zero, decide_eq_true_eq]
    omega
  case armed =>
    have hwas : was = false := hoff
    simp only [hv, hwas, Bool.not_false, Bool.and_self, if_true]
    rfl

/-- A comparator whose target is ahead waits for it (R80). -/
theorem Dev.tevArmNow_ahead (n : Nat) (d : Dev) {ahead : Int}
    (ha : ahead = signedOf 40 ((((d.fld (Reg.TBU_TEV_TARGET_HI n) 0 8 * 4294967296 + (d.reg (Reg.TBU_TEV_TARGET_LO n)).toNat : Nat) : Int)
      - d.tick) % 1099511627776).toNat) (hpos : 0 < ahead) :
    d.tevArmNow n = { d with tbu := { d.tbu with
      tevs := KMap.put d.tbu.tevs n
        { first := (d.tick + ahead) * 65536, target := (d.tick + ahead) * 65536, base := (d.tick + ahead) * 65536 } } } := by
  simp only [Dev.tevArmNow, ← ha, if_neg (not_le.2 hpos)]

theorem tevArm_completes (n : Nat) (v : Word) (s : State) (ahead : Int) (hw : s.dev.writable = true) (hn : n < 8) (hv : v.bit 0 = true)
    (hoff : s.dev.rbit (Reg.TBU_TEV_CTRL n) 0 = false)
    (ha : ahead = signedOf 40 ((((s.dev.fld (Reg.TBU_TEV_TARGET_HI n) 0 8 * 4294967296 + (s.dev.reg (Reg.TBU_TEV_TARGET_LO n)).toNat : Nat) : Int)
      - s.dev.tick) % 1099511627776).toNat) (hpos : 0 < ahead) :
    Completes (.tevArm n v) s (fun t => s.MainOnly t ∧
      KMap.get? t.dev.tbu.tevs n = some { first := (s.dev.tick + ahead) * 65536, target := (s.dev.tick + ahead) * 65536, base := (s.dev.tick + ahead) * 65536 } ∧
      t.dev.rbit (Reg.TBU_TEV_CTRL n) 0 = true ∧ (∀ off, off ≠ Reg.TBU_TEV_CTRL n → t.dev.reg off = s.dev.reg off) ∧
      t.dev = { s.dev with regs := t.dev.regs, tbu := t.dev.tbu }) := by
  obtain ⟨w, hbit, harm⟩ := s.dev.writeTev_arms n v hv hoff
  have hhi := tevCtrl_ne n 8 (by decide) (by decide)
  have hlo := tevCtrl_ne n 4 (by decide) (by decide)
  rw [Dev.tevArmNow_ahead n _ (by rw [ha, Dev.fld, Dev.fld, Dev.reg_setReg_ne hhi, Dev.reg_setReg_ne hlo]; rfl) hpos] at harm
  refine completes_if (d := s.dev.writeTev n v) rfl ?_ ?_
  · simp [hw, hn, hv, hoff]
  · rw [harm]
    refine ⟨rfl, ?_, ?_, fun off ho => Dev.reg_setReg_ne ho w s.dev, rfl⟩
    · rw [KMap.get?_put, if_pos rfl]; rfl
    · show (Dev.reg (s.dev.setReg _ w) _).bit 0 = true
      rw [Dev.reg_setReg, if_pos rfl, hbit]

theorem Dev.tevDrive_of_none {n : Nat} {d : Dev} (h : d.fld (Reg.TBU_TEV_CTRL n) 4 4 = 0) (t : Int) : d.tevDrive n t = d := by
  have hbit (i : Nat) (hlo : 4 ≤ i) (hhi : i < 8) : d.rbit (Reg.TBU_TEV_CTRL n) i = false := Word.bit_of_field_eq_zero h hlo hhi
  simp only [Dev.tevDrive, hbit 4 (by decide) (by decide), hbit 5 (by decide) (by decide), hbit 6 (by decide) (by decide),
    hbit 7 (by decide) (by decide), Bool.false_and, Bool.false_eq_true, if_false]

/-- A comparator in single mode without a destination counts and disarms (R82). -/
theorem Dev.tevFire_single {n : Nat} {d : Dev} (hdue : d.tevDue n = true) (hdest : d.fld (Reg.TBU_TEV_CTRL n) 4 4 = 0)
    (hmode : d.tevMode n = 0) :
    d.tevFire n false = (({ d with tbu := { d.tbu with tevs := KMap.del d.tbu.tevs n } } : Dev).wrapAdd (Reg.TBU_TEV_COUNT n) 1).setField
      (Reg.TBU_TEV_CTRL n) 0 1 0 := by
  obtain ⟨x, hx⟩ : ∃ x, KMap.get? d.tbu.tevs n = some x := by
    cases h : KMap.get? d.tbu.tevs n with
    | none => simp [Dev.tevDue, h] at hdue
    | some x => exact ⟨x, rfl⟩
  have hreg (k : Nat) (hk : k < 0x18) :
      (d.wrapAdd (Reg.TBU_TEV_COUNT n) 1).reg (0x30200 + k + 0x20 * n) = d.reg (0x30200 + k + 0x20 * n) := by
    rw [Dev.reg_wrapAdd, if_neg (by show _ ≠ 0x30218 + 0x20 * n; omega)]
  have hdest' : (d.wrapAdd (Reg.TBU_TEV_COUNT n) 1).fld (Reg.TBU_TEV_CTRL n) 4 4 = 0 := by
    rw [Dev.fld, hreg 0 (by decide)]
    exact hdest
  have hmode' : (d.wrapAdd (Reg.TBU_TEV_COUNT n) 1).tevMode n = 0 := by
    rw [← hmode]
    simp only [Dev.tevMode, Dev.tevPeriod, Dev.fld, hreg 0 (by decide), hreg 0xC (by decide), hreg 0x10 (by decide)]
    rfl
  simp only [Dev.tevFire, hx, Bool.false_eq_true, if_false, Dev.tevDrive_of_none hdest', hmode', if_true]
  rfl

theorem tevFire_completes {n : Nat} {s : State} {P : State → Prop} (hon : s.dev.op.mainOn = true) (hdue : s.dev.tevDue n = true)
    (h : P { s with dev := s.dev.tevFire n false }) : Completes (.tevFire n) s P := by
  refine completes_if rfl ?_ h
  simp only [hon, hdue, Bool.and_self]

/-- A pulse that has run its length ends (R83). -/
theorem tevPulseEnd_completes (n e : Nat) (s : State) (hpin : KMap.get? s.dev.tbu.pins n = some e) (he : e ≤ s.dev.raw) :
    Completes (.tevPulseEnd n) s (fun t =>
      t = { s with dev := { s.dev with tbu := { s.dev.tbu with pins := KMap.del s.dev.tbu.pins n }
                                       out := .timedPin n (s.dev.rbit (Reg.TBU_TEV_CTRL n) 3) :: s.dev.out } }) := by
  refine ⟨_, rfl, ?_⟩
  simp only [hpin, if_neg (not_lt.2 he)]
  rfl

/-- Settles O18, clause by clause (R51, R80, R82, R83). -/
theorem strobesAndTimedEvents : Obligations.StrobesAndTimedEvents := by
  refine ⟨⟨slotStrobe_completes, preSlotStrobe_completes⟩, tevArm_completes, ?single, fun n s hon hdue => tevFire_completes hon hdue rfl,
    tevPulseEnd_completes⟩
  case single =>
    intro n s hon hdue hdest hmode
    have hne : Reg.TBU_TEV_COUNT n ≠ Reg.TBU_TEV_CTRL n := tevCtrl_ne n 0x18 (by decide) (by decide)
    refine tevFire_completes hon hdue ?_
    rw [Dev.tevFire_single hdue hdest hmode]
    refine ⟨rfl, ?gone, ?count, ?disarmed, fun off hctrl hcount => ?others, rfl⟩
    case gone => exact (KMap.get?_del _ n n).trans (if_pos rfl)
    case count =>
      rw [Dev.reg_setField, if_neg hne, Dev.reg_wrapAdd, if_pos rfl]
      rfl
    case disarmed =>
      rw [Dev.rbit, Dev.reg_setField, if_pos rfl]
      exact Word.bit_setBit _ 0 false (by decide)
    case others =>
      rw [Dev.reg_setField, if_neg hctrl, Dev.reg_wrapAdd, if_neg hcount]
      rfl

/-! ### Writes of the rate, snapshots, and writes of `TBU_CTRL` (R47, R49, R67, R72) -/

/-- A rate of 40 bits is in range (R47). -/
theorem clampRate_signedOf (n : Nat) : clampRate (signedOf 40 n) = signedOf 40 n := by
  obtain ⟨hlo, hhi⟩ := signedOf_bounds n
  unfold clampRate
  omega

theorem rateWrite_completes (hi : Bool) (v : Word) (s : State) (hw : s.dev.writable = true) :
    (s.dev.rbit Reg.TBU_CTRL 0 = false → Completes (.tbuRateWrite hi v) s (fun t => s.MainOnly t ∧
      t.dev.tbu.rate = signedOf 40 (if hi then (s.dev.tbu.rate % 1099511627776).toNat % 4294967296 + v.field 0 8 * 4294967296
        else (s.dev.tbu.rate % 1099511627776).toNat / 4294967296 * 4294967296 + v.toNat) ∧
      t.dev.derived = s.dev.derived ∧ t.dev.reg = s.dev.reg ∧ t.dev = { s.dev with tbu := t.dev.tbu })) ∧
    (s.dev.rbit Reg.TBU_CTRL 0 = true → Completes (.tbuRateWrite hi v) s (fun t => t = s)) := by
  constructor
  · intro hservo
    refine completes_if rfl hw ?_
    simp only [Dev.writeRate, hservo, Bool.false_eq_true, if_false]
    exact ⟨rfl, clampRate_signedOf _, Dev.derived_setRate _ _, rfl, rfl⟩
  · intro hservo
    refine completes_if rfl hw ?_
    simp only [Dev.writeRate, hservo, if_true]

/-- Only registers differ. -/
def Dev.RegsOnly (d e : Dev) : Prop := e = { d with regs := e.regs }

theorem Dev.RegsOnly.setReg {d e : Dev} (h : d.RegsOnly e) (off : Nat) (w : Word) : d.RegsOnly (e.setReg off w) := by
  rw [Dev.RegsOnly] at h ⊢
  rw [h]
  rfl

theorem Dev.tbuSnapNow_regsOnly (d : Dev) : d.RegsOnly d.tbuSnapNow := by
  have h : d.RegsOnly d := rfl
  exact (((((h.setReg _ _).setReg _ _).setReg _ _).setReg _ _).setReg _ _).setReg _ _

theorem snap_completes (v : Word) (s : State) (hw : s.dev.writable = true) (hv : v.bit 0 = true) :
    Completes (.tbuSnap v) s (fun t => s.MainOnly t ∧
    t.dev.reg Reg.TBU_SNAP_RAW_LO = lo32 s.dev.raw ∧ t.dev.reg Reg.TBU_SNAP_RAW_HI = hi32 s.dev.raw ∧
    t.dev.reg Reg.TBU_SNAP_SEC_LO = lo32 (s.dev.tick / 1000000000).toNat ∧
    t.dev.reg Reg.TBU_SNAP_SEC_HI = BitVec.ofNat 32 ((s.dev.tick / 1000000000).toNat / 4294967296 % 65536) ∧
    t.dev.reg Reg.TBU_SNAP_NS = BitVec.ofInt 32 (s.dev.tick % 1000000000) ∧
    t.dev.reg Reg.TBU_SNAP_FRAC = BitVec.ofInt 32 (s.dev.t16 % 65536) ∧
    (∀ off, off ∉ [Reg.TBU_SNAP_RAW_LO, Reg.TBU_SNAP_RAW_HI, Reg.TBU_SNAP_SEC_LO, Reg.TBU_SNAP_SEC_HI, Reg.TBU_SNAP_NS,
      Reg.TBU_SNAP_FRAC] → t.dev.reg off = s.dev.reg off) ∧ t.dev = { s.dev with regs := t.dev.regs }) := by
  refine completes_if rfl (by simp only [hw, hv, Bool.and_self]) ?_
  refine ⟨rfl, ?_, ?_, ?_, ?_, ?_, ?_, fun off hoff => ?others, s.dev.tbuSnapNow_regsOnly⟩
  case others =>
    simp only [List.mem_cons, List.not_mem_nil, or_false, not_or] at hoff
    obtain ⟨h1, h2, h3, h4, h5, h6⟩ := hoff
    simp only [Dev.tbuSnapNow, Dev.reg_setReg, if_neg h1, if_neg h2, if_neg h3, if_neg h4, if_neg h5, if_neg h6]
  all_goals simp +decide only [Dev.tbuSnapNow, Dev.reg_setReg, Dev.t16_setReg, if_true, if_false]

/-- The word that a write of `TBU_CTRL` stores, with `REARM_STEP` as `arm` (Table 2.5). -/
def tbuCtrlWord (v : Word) (arm : Bool) : Word :=
  BitVec.ofNat 32 (v.toNat % 16 - (if v.bit 2 then 4 else 0) + (if arm then 4 else 0) + v.field 8 8 * 256)

theorem tbuCtrlWord_enable (v : Word) (arm : Bool) : (tbuCtrlWord v arm).bit 0 = v.bit 0 := by
  rw [tbuCtrlWord, Word.bit_ofNat _ _ (by decide), Nat.testBit_eq_decide_div_mod_eq]
  simp only [Word.bit_eq, decide_eq_true_eq, decide_eq_decide]
  split <;> split <;> omega

theorem tbuCtrlWord_rearm (v : Word) : (tbuCtrlWord v true).bit 2 = true := by
  rw [tbuCtrlWord, Word.bit_ofNat _ _ (by decide), Nat.testBit_eq_decide_div_mod_eq]
  simp only [Word.bit_eq, decide_eq_true_eq, if_true]
  split <;> omega

/-- `TBU_CTRL` written, and a step armed by a 1 in `REARM_STEP` (R72). -/
def Dev.storeTbuCtrl (v : Word) (d : Dev) : Dev :=
  let d := d.setReg Reg.TBU_CTRL (tbuCtrlWord v (v.bit 2 || d.rbit Reg.TBU_CTRL 2))
  if v.bit 2 then { d with tbu := { d.tbu with armed := true } } else d

/-- The phase term goes when a write turns the servo off (R67). -/
theorem Dev.writeTbuCtrl_eq (v : Word) (d : Dev) : d.writeTbuCtrl v =
    if d.rbit Reg.TBU_CTRL 0 && !v.bit 0 then (d.storeTbuCtrl v).dropPhase else d.storeTbuCtrl v := rfl

theorem Dev.storeTbuCtrl_eq (v : Word) (d : Dev) : d.storeTbuCtrl v =
    { d.setReg Reg.TBU_CTRL (tbuCtrlWord v (v.bit 2 || d.rbit Reg.TBU_CTRL 2)) with
      tbu := { d.tbu with armed := v.bit 2 || d.tbu.armed } } := by
  unfold Dev.storeTbuCtrl
  by_cases hv : v.bit 2 = true
  · simp only [hv, if_true, Bool.true_or]
    rfl
  · rw [Bool.not_eq_true] at hv
    simp only [hv, Bool.false_eq_true, if_false, Bool.false_or]
    rfl

/-- What every write of `TBU_CTRL` does: it stores the word, moves no other register, and derived time goes on (R48). -/
theorem Dev.writeTbuCtrl_keeps (v : Word) (d : Dev) :
    (∀ off, (d.writeTbuCtrl v).reg off = if off = Reg.TBU_CTRL then tbuCtrlWord v (v.bit 2 || d.rbit Reg.TBU_CTRL 2) else d.reg off) ∧
    (d.writeTbuCtrl v).derived = d.derived ∧ (d.writeTbuCtrl v).tbu.armed = (v.bit 2 || d.tbu.armed) ∧
    d.writeTbuCtrl v = { d with regs := (d.writeTbuCtrl v).regs, tbu := (d.writeTbuCtrl v).tbu } := by
  have hstore := d.storeTbuCtrl_eq v
  have hderived : (d.storeTbuCtrl v).derived = d.derived := by rw [hstore]; rfl
  have hreg (off : Nat) : (d.storeTbuCtrl v).reg off =
      if off = Reg.TBU_CTRL then tbuCtrlWord v (v.bit 2 || d.rbit Reg.TBU_CTRL 2) else d.reg off := by
    rw [hstore]
    exact Dev.reg_setReg ..
  rw [Dev.writeTbuCtrl_eq]
  split
  · refine ⟨hreg, (Dev.derived_dropPhase _).trans hderived, ?_, ?_⟩
    · rw [hstore]; rfl
    · rw [hstore]; rfl
  · refine ⟨hreg, hderived, ?_, ?_⟩
    · rw [hstore]
    · rw [hstore]; rfl

theorem servoDisable_completes (v : Word) (s : State) (hw : s.dev.writable = true) (hservo : s.dev.rbit Reg.TBU_CTRL 0 = true)
    (hv : v.bit 0 = false) : Completes (.servoDisable v) s (fun t => s.MainOnly t ∧ t.dev.tbu.rate = clampRate s.dev.tbu.freq ∧
      t.dev.tbu.slewing = false ∧ t.dev.tbu.freq = s.dev.tbu.freq ∧ t.dev.derived = s.dev.derived ∧ t.dev.rbit Reg.TBU_CTRL 0 = false ∧
      (∀ off, off ≠ Reg.TBU_CTRL → t.dev.reg off = s.dev.reg off) ∧ t.dev = { s.dev with regs := t.dev.regs, tbu := t.dev.tbu }) := by
  obtain ⟨hreg, hderived, -, hframe⟩ := s.dev.writeTbuCtrl_keeps v
  have hdrop : s.dev.writeTbuCtrl v = (s.dev.storeTbuCtrl v).dropPhase := by simp [Dev.writeTbuCtrl_eq, hservo, hv]
  have hstore := s.dev.storeTbuCtrl_eq v
  refine completes_if rfl (by simp only [hw, hservo, hv, Bool.not_false, Bool.and_self]) ?_
  refine ⟨rfl, ?rate, ?slewing, ?freq, hderived, ?servo, fun off ho => (hreg off).trans (if_neg ho), hframe⟩
  case rate => rw [hdrop, hstore]; rfl
  case slewing => rw [hdrop]; rfl
  case freq => rw [hdrop, hstore]; rfl
  case servo =>
    rw [Dev.rbit, hreg, if_pos rfl, tbuCtrlWord_enable, hv]

theorem rearmStep_completes (v : Word) (s : State) (hw : s.dev.writable = true) (hv : v.bit 2 = true) :
    Completes (.rearmStep v) s (fun t => s.MainOnly t ∧
    t.dev.tbu.armed = true ∧ t.dev.rbit Reg.TBU_CTRL 2 = true ∧ t.dev.derived = s.dev.derived ∧
    (∀ off, off ≠ Reg.TBU_CTRL → t.dev.reg off = s.dev.reg off) ∧ t.dev = { s.dev with regs := t.dev.regs, tbu := t.dev.tbu }) := by
  obtain ⟨hreg, hderived, harmed, hframe⟩ := s.dev.writeTbuCtrl_keeps v
  refine completes_if rfl (by simp only [hw, hv, Bool.and_self]) ?_
  refine ⟨rfl, ?armed, ?rearm, hderived, fun off ho => (hreg off).trans (if_neg ho), hframe⟩
  case armed => rw [harmed, hv, Bool.true_or]
  case rearm => rw [Dev.rbit, hreg, if_pos rfl, hv, Bool.true_or, tbuCtrlWord_rearm]

/-- Settles O20, clause by clause (R47, R48, R49, R67, R72). -/
theorem timeBaseWrites : Obligations.TimeBaseWrites :=
  ⟨rateWrite_completes, snap_completes, servoDisable_completes, rearmStep_completes⟩

/-! ### Steps of time (R72 to R76, R86) -/

/-- Whether the fields of a `TBU_STEP` are refused with `BAD_ARG` (R86). -/
def badStep (mode : Nat) (rel : Int) (ns : Nat) (d : Dev) : Prop :=
  1 < mode ∨ (mode = 0 ∧ (rel = 0 ∨ d.tick + rel < 0)) ∨ (mode = 1 ∧ 1000000000 ≤ ns)

theorem Dev.stepCmd_of_bad {mode : Nat} {rel : Int} {ns : Nat} {d : Dev} (hbad : badStep mode rel ns d) (h : CmdHdr) (sec : Nat) :
    d.stepCmd h mode rel sec ns = d.complete h 0x10 2 [] := by
  unfold Dev.stepCmd
  refine if_pos ?_
  simpa [badStep, or_assoc] using hbad

/-- A step with valid fields is decided for the next multiple of 1 ms, and waits (R73). -/
theorem Dev.stepCmd_waits {mode : Nat} {rel : Int} {ns : Nat} {d : Dev} (hok : ¬ badStep mode rel ns d) (h : CmdHdr) (sec : Nat) :
    ∃ l : List StepDue, d.stepCmd h mode rel sec ns = { d with tbu := { d.tbu with stepDue := l } } ∧
      l.getLast? = some { ns := rel, target := if mode = 1 then some ((sec : Int) * 1000000000 + ns) else none, host := true,
                          hdr := some h, due := nextMs d.raw } := by
  unfold Dev.stepCmd
  refine ⟨_, if_neg ?_, List.getLast?_concat⟩
  simpa [badStep, or_assoc] using hok

theorem completes_tbuStep {h : CmdHdr} {mode : Nat} {rel : Int} {sec ns : Nat} {s : State} {P : State → Prop}
    (ha : s.dev.Admits h 0x10 [] true legalCRD) (hP : P { s with dev := s.dev.stepCmd h mode rel sec ns }) :
    Completes (.tbuStep h mode rel sec ns) s P := completes_cmd (body := Dev.stepCmd h mode rel sec ns) rfl ha hP

/-! #### The parts of a step in the time base -/

/-- Derived time after a step: its target, or the step's whole nanoseconds later (R74). -/
def Dev.stepTo (st : StepDue) (d : Dev) : Int :=
  match st.target with
  | some t => t * 281474976710656
  | none => d.derived + st.ns * 281474976710656

/-- Derived time jumps to `now`, and the epoch goes on (R74). -/
def Dev.jumpTime (now : Int) (d : Dev) : Dev :=
  let d := { d with tbu := { d.tbu with anchor := now, anchorRaw := d.raw, epoch := (d.tbu.epoch + 1) % 65536 } }
  ({ d with tbu := { d.tbu with stepTimes := d.tick :: d.tbu.stepTimes.take 63 } }).disarmStep

/-- The step shows in its registers, its event and its record (R74). -/
def Dev.reportStep (st : StepDue) (large : Bool) (d : Dev) : Dev :=
  let d := d.setReg Reg.TBU_STEP_STAT (BitVec.ofNat 32 (d.tbu.epoch + (if st.ns < 0 then 65536 else 0)
    + (if large then 131072 else 0) + (if st.host then 262144 else 0)))
  let d := d.setReg Reg.TBU_STEP_LAST_LO (lo32 (twos64 st.ns))
  let d := d.setReg Reg.TBU_STEP_LAST_HI (hi32 (twos64 st.ns))
  let d := d.raise Reg.TBU_EVT 1
  d.post 0x0003 [lo32 (twos64 st.ns), hi32 (twos64 st.ns), BitVec.ofNat 32 (d.tbu.epoch
    + (if large then 65536 else 0) + (if st.host then 131072 else 0)), lo32 d.raw]

/-- The offsets the sources have kept are given up. -/
def Dev.forgetOffsets (st : StepDue) (d : Dev) : Dev :=
  let moved := d.tbu.srcs.map (fun p => (p.1, { p.2 with offs := [], lastOff := p.2.lastOff + st.ns * 65536 }))
  { d with tbu := { d.tbu with srcs := moved, err := d.tbuErr + st.ns * 65536, errRaw := d.raw } }

/-- The phase term, half-finished measurements, comparators and strobes after a step. -/
def Dev.settleStep (st : StepDue) (d : Dev) : Dev :=
  let d := if d.tbu.slewing then d.dropPhase else d
  let ptp := d.tbu.ptp.map (fun (p : Nat × PtpS) => (p.1, { p.2 with offs := [], fresh := none, t2 := none, t1p := none }))
  let d := { d with tbu := { d.tbu with ptp := ptp, pps := none, ppsSec := none }, brz := { d.brz with t1 := none } }
  if st.ns < 0 then d.rewindTevs.restartStrobes else d

theorem Dev.stepTbu_eq (st : StepDue) (large : Bool) (d : Dev) :
    d.stepTbu st large = (((d.jumpTime (d.stepTo st)).reportStep st large).forgetOffsets st).settleStep st := by
  unfold Dev.stepTbu
  extract_lets now _ jumped _ timed disarmed _ _ _ raised posted moved _ judged
  rw [show d.stepTo st = now from rfl, show d.jumpTime now = disarmed from rfl, show disarmed.reportStep st large = posted from rfl,
    show posted.forgetOffsets st = judged from rfl]
  clear_value judged
  rfl

theorem Dev.epoch_jumpTime (now : Int) (d : Dev) : (d.jumpTime now).tbu.epoch = (d.tbu.epoch + 1) % 65536 := rfl

theorem Dev.raw_jumpTime (now : Int) (d : Dev) : (d.jumpTime now).raw = d.raw := rfl

theorem Dev.derived_jumpTime (now : Int) (d : Dev) : (d.jumpTime now).derived = now := by
  show now + ((d.raw : Int) - d.raw) * _ = now
  rw [sub_self, zero_mul, add_zero]

theorem Dev.reportStep_spec (st : StepDue) (large : Bool) (d : Dev) :
    (d.reportStep st large).tbu = d.tbu ∧ (d.reportStep st large).raw = d.raw ∧ (d.reportStep st large).rbit Reg.TBU_EVT 1 = true ∧
    (d.reportStep st large).reg Reg.TBU_STEP_STAT = BitVec.ofNat 32 (d.tbu.epoch + (if st.ns < 0 then 65536 else 0)
      + (if large then 131072 else 0) + (if st.host then 262144 else 0)) := by
  unfold Dev.reportStep
  refine ⟨by simp only [Dev.post_tbu, Dev.raise_tbu, Dev.setReg_tbu], by simp only [Dev.post_raw, Dev.raise_raw, Dev.setReg_raw], ?event, ?stat⟩
  case event =>
    rw [Dev.rbit, Dev.reg_post _ _ _ _ (by decide)]
    exact Dev.rbit_raise _ _ _ (by decide)
  case stat =>
    rw [Dev.reg_post _ _ _ _ (by decide), Dev.reg_raise, if_neg (by decide), Dev.reg_setReg, if_neg (by decide), Dev.reg_setReg,
      if_neg (by decide), Dev.reg_setReg, if_pos rfl]

@[simp] theorem Dev.forgetOffsets_derived (st : StepDue) (d : Dev) : (d.forgetOffsets st).derived = d.derived := rfl
@[simp] theorem Dev.forgetOffsets_raw (st : StepDue) (d : Dev) : (d.forgetOffsets st).raw = d.raw := rfl
@[simp] theorem Dev.forgetOffsets_reg (st : StepDue) (d : Dev) : (d.forgetOffsets st).reg = d.reg := rfl
@[simp] theorem Dev.forgetOffsets_epoch (st : StepDue) (d : Dev) : (d.forgetOffsets st).tbu.epoch = d.tbu.epoch := rfl

theorem Dev.forgetOffsets_srcs (st : StepDue) (d : Dev) : (d.forgetOffsets st).tbu.srcs.all (fun p => p.2.offs.isEmpty) = true := by
  simp [Dev.forgetOffsets]

/-- What the last part of a step leaves of what the others set. -/
structure Dev.SameClock (d e : Dev) : Prop where
  derived : e.derived = d.derived
  raw : e.raw = d.raw
  reg : e.reg = d.reg
  epoch : e.tbu.epoch = d.tbu.epoch
  srcs : e.tbu.srcs = d.tbu.srcs

theorem Dev.SameClock.trans {a b c : Dev} (h : a.SameClock b) (k : b.SameClock c) : a.SameClock c :=
  ⟨k.derived.trans h.derived, k.raw.trans h.raw, k.reg.trans h.reg, k.epoch.trans h.epoch, k.srcs.trans h.srcs⟩

theorem Dev.settleStep_sameClock (st : StepDue) (d : Dev) : d.SameClock (d.settleStep st) := by
  have hphase : d.SameClock (if d.tbu.slewing then d.dropPhase else d) := by
    split
    · exact ⟨Dev.derived_dropPhase d, rfl, rfl, rfl, rfl⟩
    · exact ⟨rfl, rfl, rfl, rfl, rfl⟩
  unfold Dev.settleStep
  generalize (if d.tbu.slewing then d.dropPhase else d) = e at hphase ⊢
  refine hphase.trans ?_
  dsimp only
  split <;> exact ⟨rfl, rfl, rfl, rfl, rfl⟩

/-- What a step does to time (R74). -/
theorem Dev.stepTbu_spec (st : StepDue) (large : Bool) (d : Dev) :
    (d.stepTbu st large).derived = d.stepTo st ∧ (d.stepTbu st large).raw = d.raw ∧ (d.stepTbu st large).tbu.epoch = (d.tbu.epoch + 1) % 65536 ∧
    (d.stepTbu st large).rbit Reg.TBU_EVT 1 = true ∧
    (d.stepTbu st large).reg Reg.TBU_STEP_STAT = BitVec.ofNat 32 ((d.tbu.epoch + 1) % 65536 + (if st.ns < 0 then 65536 else 0)
      + (if large then 131072 else 0) + (if st.host then 262144 else 0)) ∧
    (d.stepTbu st large).tbu.srcs.all (fun p => p.2.offs.isEmpty) = true := by
  rw [Dev.stepTbu_eq]
  generalize d.stepTo st = now
  obtain ⟨htbu, hraw, hevent, hstat⟩ := (d.jumpTime now).reportStep_spec st large
  have hclock := (((d.jumpTime now).reportStep st large).forgetOffsets st).settleStep_sameClock st
  refine ⟨?derived, ?raw, ?epoch, ?event, ?stat, ?srcs⟩
  case derived =>
    rw [hclock.derived, Dev.forgetOffsets_derived, Dev.derived_congr htbu hraw]
    exact d.derived_jumpTime now
  case raw => rw [hclock.raw, Dev.forgetOffsets_raw, hraw, Dev.raw_jumpTime]
  case epoch => rw [hclock.epoch, Dev.forgetOffsets_epoch, htbu, Dev.epoch_jumpTime]
  case event => rw [Dev.rbit, hclock.reg, Dev.forgetOffsets_reg, ← Dev.rbit, hevent]
  case stat => rw [hclock.reg, Dev.forgetOffsets_reg, hstat, Dev.epoch_jumpTime]
  case srcs => rw [hclock.srcs, Dev.forgetOffsets_srcs]

theorem timeStepApply_completes (st : StepDue) (rest : List StepDue) (s : State) (hdue : s.dev.tbu.stepDue = st :: rest)
    (hon : s.dev.op.mainOn = true) (ht : st.due ≤ s.dev.raw) :
    Completes .timeStepApply s (fun t => t = { s with dev := s.dev.applyStep st }) := by
  refine ⟨_, rfl, ?_⟩
  simp only [hdue, hon, ht, decide_true, Bool.and_self, if_true]

/-- Settles O21, clause by clause (R72, R73, R74, R86). -/
theorem stepsOfTime : Obligations.StepsOfTime := by
  refine ⟨⟨?relative, ?absolute, ?bad, timeStepApply_completes⟩, Dev.stepTbu_spec⟩
  case relative =>
    intro h rel sec ns s ha hrel hpos
    have hok : ¬ badStep 0 rel ns s.dev := by simp [badStep, hrel, hpos]
    obtain ⟨l, hstep, hlast⟩ := Dev.stepCmd_waits hok h sec
    refine completes_tbuStep ha ?_
    rw [hstep]
    exact ⟨rfl, hlast, rfl⟩
  case absolute =>
    intro h rel sec ns s ha hns
    have hok : ¬ badStep 1 rel ns s.dev := by simp [badStep, hns]
    obtain ⟨l, hstep, hlast⟩ := Dev.stepCmd_waits hok h sec
    refine completes_tbuStep ha ?_
    rw [hstep]
    exact ⟨rfl, hlast, rfl⟩
  case bad =>
    intro h mode rel sec ns s ha hbad
    refine completes_tbuStep ha ?_
    rw [Dev.stepCmd_of_bad hbad]
    exact ⟨rfl, Dev.keeps_complete ..⟩

/-! ### Leap seconds (R77, R87) -/

theorem completes_tbuLeap {h : CmdHdr} {v : Nat} {s : State} {P : State → Prop} (ha : s.dev.Admits h 0x11 [] true legalCRD)
    (hP : P { s with dev := s.dev.leapCmd h v }) : Completes (.tbuLeap h v) s P := completes_cmd (body := Dev.leapCmd h v) rfl ha hP

/-- Whether the last second before the end of the UTC day, or before a pending leap, has begun (R87). -/
def Dev.lastSecond (d : Dev) : Prop :=
  d.utcSecond % 86400 = 86399 ∨ (d.rbit Reg.TBU_UTC 8 = true ∧ d.leapTick - 1000000000 ≤ d.tick)

theorem Dev.leapCmd_refused {v : Nat} {d : Dev} (hbad : 2 < v ∨ d.lastSecond) (h : CmdHdr) : d.leapCmd h v = d.complete h 0x11 2 [] := by
  unfold Dev.leapCmd
  refine if_pos ?_
  simpa [Dev.lastSecond] using hbad

theorem Dev.leapCmd_cancels {d : Dev} (hok : ¬ d.lastSecond) (h : CmdHdr) :
    d.leapCmd h 0 = (({ d with tbu := { d.tbu with leapSrc := 0 } } : Dev).setField Reg.TBU_UTC 8 2 0).complete h 0x11 0 [] := by
  unfold Dev.leapCmd
  rw [if_neg (by simpa [Dev.lastSecond] using hok), if_pos rfl]

/-- A leap second that is set while none is pending falls on the end of the UTC day under way (R77). -/
theorem Dev.leapCmd_sets {v : Nat} {d : Dev} (hok : ¬ d.lastSecond) (hlo : 1 ≤ v) (hhi : v ≤ 2) (hidle : d.rbit Reg.TBU_UTC 8 = false)
    (h : CmdHdr) : d.leapCmd h v = (Dev.setField Reg.TBU_UTC 9 1 (if v == 2 then 1 else 0) (Dev.setField Reg.TBU_UTC 8 1 1
      { d with tbu := { d.tbu with leapSrc := 0, leapDay := d.utcSecond / 86400 } })).complete h 0x11 0 [] := by
  have hv : ¬ (2 < v) := by omega
  unfold Dev.leapCmd
  rw [if_neg (by simpa [Dev.lastSecond, hv] using hok), if_neg (by omega)]
  simp only [Dev.setLeap, hidle, Bool.false_eq_true, if_false]

/-- A command of `TBU_LEAP` that takes effect changes the leap fields of the time base and `TBU_UTC`, and completes. -/
theorem Dev.keeps_leapCmd {x : TbuS} {d e : Dev} (he : Dev.Keeps (fun off => off == Reg.TBU_UTC) { d with tbu := x } e) (h : CmdHdr) :
    Dev.Keeps (fun off => off == Reg.TBU_UTC) { d with tbu := (e.complete h 0x11 0 []).tbu } (e.complete h 0x11 0 []) :=
  (he.trans (Dev.keeps_complete ..)).of_tbu

/-- The word of `TBU_UTC` once a leap is pending. -/
theorem setLeap_word (w : Word) (deletion : Bool) :
    ((w.setField 8 1 1).setField 9 1 (if deletion then 1 else 0)).bit 8 = true ∧
    ((w.setField 8 1 1).setField 9 1 (if deletion then 1 else 0)).bit 9 = deletion ∧
    ((w.setField 8 1 1).setField 9 1 (if deletion then 1 else 0)).field 0 8 = w.field 0 8 := by
  refine ⟨?_, ?_, ?_⟩
  · rw [Word.bit_setField_ne _ 9 1 _ 8 (by decide) (by decide), Word.bit_setField_one _ 8 1 (by decide)]
    rfl
  · rw [Word.bit_setField_one _ 9 _ (by decide)]
    cases deletion <;> rfl
  · rw [Word.field_setField_ne _ 9 1 _ 0 8 (by decide) (by decide), Word.field_setField_ne _ 8 1 _ 0 8 (by decide) (by decide)]

/-- The word of `TBU_UTC` once a leap has occurred. -/
theorem leapNow_word (w : Word) (n : Nat) :
    (((w.setField 0 8 n).setField 8 1 0).setField 10 1 1).field 0 8 = n % 256 ∧
    (((w.setField 0 8 n).setField 8 1 0).setField 10 1 1).bit 8 = false ∧
    (((w.setField 0 8 n).setField 8 1 0).setField 10 1 1).bit 10 = true := by
  refine ⟨?_, ?_, ?_⟩
  · rw [Word.field_setField_ne _ 10 1 _ 0 8 (by decide) (by decide), Word.field_setField_ne _ 8 1 _ 0 8 (by decide) (by decide),
      Word.field_setField _ 0 8 _ (by decide)]
    rfl
  · rw [Word.bit_setField_ne _ 10 1 _ 8 (by decide) (by decide), Word.bit_setField_one _ 8 0 (by decide)]
    rfl
  · rw [Word.bit_setField_one _ 10 1 (by decide)]
    rfl

/-- The leap takes effect in `TBU_UTC`, before it is reported (R77). -/
def Dev.leapUtc (n : Nat) (d : Dev) : Dev :=
  ((({ d with tbu := { d.tbu with leapAt := some (d.leapTick, utcOffset (d.reg Reg.TBU_UTC)), leapOccur := some d.raw, leapSrc := 0 } } : Dev).setField
    Reg.TBU_UTC 0 8 n).setField Reg.TBU_UTC 8 1 0).setField Reg.TBU_UTC 10 1 1

theorem Dev.leapNow_eq (d : Dev) : d.leapNow = ((d.leapUtc
    ((utcOffset (d.reg Reg.TBU_UTC) + (if d.rbit Reg.TBU_UTC 9 then -1 else 1)) % 256).toNat).raise Reg.TBU_EVT 3).timeSource 4 d.tbu.src := by
  unfold Dev.leapNow Dev.leapUtc
  cases hdel : d.rbit Reg.TBU_UTC 9
  case false => simp only [Bool.false_eq_true, if_false]; rfl
  case true => simp only [if_true, Int.sub_eq_add_neg]; rfl

theorem Dev.reg_timeSource (kind v : Nat) (d : Dev) {off : Nat} (hr : reportReg off = false) : (d.timeSource kind v).reg off = d.reg off :=
  Dev.reg_post _ _ _ _ hr

theorem Dev.derived_leapUtc (n : Nat) (d : Dev) : (d.leapUtc n).derived = d.derived := by
  rw [Dev.leapUtc, Dev.derived_setField, Dev.derived_setField, Dev.derived_setField]
  rfl

theorem Dev.reg_leapUtc (n : Nat) (d : Dev) (off : Nat) : (d.leapUtc n).reg off =
    if off = Reg.TBU_UTC then (((d.reg Reg.TBU_UTC).setField 0 8 n).setField 8 1 0).setField 10 1 1 else d.reg off := by
  unfold Dev.leapUtc
  by_cases ho : off = Reg.TBU_UTC
  · subst ho
    simp only [Dev.reg_setField, if_true]
    rfl
  · simp only [Dev.reg_setField, if_neg ho]
    rfl

theorem tbuLeap_sets (h : CmdHdr) (v : Nat) (s : State) (ha : s.dev.Admits h 0x11 [] true legalCRD) (hlo : 1 ≤ v) (hhi : v ≤ 2)
    (hday : s.dev.utcSecond % 86400 ≠ 86399) (hidle : s.dev.rbit Reg.TBU_UTC 8 = false) :
    Completes (.tbuLeap h v) s (fun t => s.MainOnly t ∧ t.dev.rbit Reg.TBU_UTC 8 = true ∧
      t.dev.rbit Reg.TBU_UTC 9 = (v == 2) ∧ t.dev.fld Reg.TBU_UTC 0 8 = s.dev.fld Reg.TBU_UTC 0 8 ∧ t.dev.tbu.leapSrc = 0 ∧
      t.dev.tbu.leapDay = s.dev.utcSecond / 86400 ∧ Dev.Keeps (fun off => off == Reg.TBU_UTC) { s.dev with tbu := t.dev.tbu } t.dev) := by
  have hok : ¬ s.dev.lastSecond := by simp [Dev.lastSecond, hday, hidle]
  refine completes_tbuLeap ha ?_
  rw [Dev.leapCmd_sets hok hlo hhi hidle]
  set d : Dev := { s.dev with tbu := { s.dev.tbu with leapSrc := 0, leapDay := s.dev.utcSecond / 86400 } }
  have hutc : (((d.setField Reg.TBU_UTC 8 1 1).setField Reg.TBU_UTC 9 1 (if v == 2 then 1 else 0)).complete h 0x11 0 []).reg Reg.TBU_UTC =
      ((s.dev.reg Reg.TBU_UTC).setField 8 1 1).setField 9 1 (if v == 2 then 1 else 0) := by
    rw [Dev.reg_complete _ _ _ _ _ _ (by decide), Dev.reg_setField, if_pos rfl, Dev.reg_setField, if_pos rfl]
    rfl
  obtain ⟨hset, hdel, hoff⟩ := setLeap_word (s.dev.reg Reg.TBU_UTC) (v == 2)
  refine ⟨rfl, ?_, ?_, ?_, ?_, ?_, Dev.keeps_leapCmd (x := d.tbu) ?_ h⟩
  · rw [Dev.rbit, hutc, hset]
  · rw [Dev.rbit, hutc, hdel]
  · rw [Dev.fld, hutc, hoff, Dev.fld]
  · rw [Dev.complete_tbu]; rfl
  · rw [Dev.complete_tbu]; rfl
  · exact (Dev.keeps_setField _ _ _ _ _ (Or.inl rfl)).trans (Dev.keeps_setField _ _ _ _ _ (Or.inl rfl))

theorem tbuLeap_cancels (h : CmdHdr) (s : State) (ha : s.dev.Admits h 0x11 [] true legalCRD) (hday : s.dev.utcSecond % 86400 ≠ 86399)
    (hlate : s.dev.rbit Reg.TBU_UTC 8 = true → s.dev.tick < s.dev.leapTick - 1000000000) :
    Completes (.tbuLeap h 0) s (fun t => s.MainOnly t ∧ t.dev.rbit Reg.TBU_UTC 8 = false ∧
      Dev.Keeps (fun off => off == Reg.TBU_UTC) { s.dev with tbu := t.dev.tbu } t.dev) := by
  have hok : ¬ s.dev.lastSecond := by
    rintro (hl | ⟨hp, hl⟩)
    · exact hday hl
    · exact absurd (hlate hp) (not_lt.2 hl)
  refine completes_tbuLeap ha ?_
  rw [Dev.leapCmd_cancels hok]
  refine ⟨rfl, ?_, Dev.keeps_leapCmd (x := { s.dev.tbu with leapSrc := 0 }) (Dev.keeps_setField _ _ _ _ _ (Or.inl rfl)) h⟩
  rw [Dev.rbit, Dev.reg_complete _ _ _ _ _ _ (by decide), Dev.reg_setField, if_pos rfl]
  exact Word.bit_of_field_eq_zero (Word.field_setField _ 8 2 0 (by decide)) (by decide) (by decide)

theorem leapSecond_completes (s : State) (hon : s.dev.op.mainOn = true) (hpend : s.dev.rbit Reg.TBU_UTC 8 = true)
    (ht : s.dev.leapTick ≤ s.dev.tick) : Completes .leapSecond s (fun t => s.MainOnly t ∧
      t.dev.fld Reg.TBU_UTC 0 8 = ((utcOffset (s.dev.reg Reg.TBU_UTC) + (if s.dev.rbit Reg.TBU_UTC 9 then -1 else 1)) % 256).toNat ∧
      t.dev.rbit Reg.TBU_UTC 8 = false ∧ t.dev.rbit Reg.TBU_UTC 10 = true ∧ t.dev.rbit Reg.TBU_EVT 3 = true ∧
      t.dev.tbu.leapOccur = some s.dev.raw ∧ t.dev.derived = s.dev.derived ∧
      Dev.Keeps (fun off => off == Reg.TBU_UTC || off == Reg.TBU_EVT) { s.dev with tbu := t.dev.tbu } t.dev) := by
  refine completes_if (d := s.dev.leapNow) rfl (by simp only [hon, hpend, ht, decide_true, Bool.and_self]) ?_
  rw [Dev.leapNow_eq]
  generalize hn : (utcOffset (s.dev.reg Reg.TBU_UTC) + (if s.dev.rbit Reg.TBU_UTC 9 then -1 else 1)) % 256 = n
  have hlt : n.toNat % 256 = n.toNat := by omega
  have hutc : (((s.dev.leapUtc n.toNat).raise Reg.TBU_EVT 3).timeSource 4 s.dev.tbu.src).reg Reg.TBU_UTC =
      (((s.dev.reg Reg.TBU_UTC).setField 0 8 n.toNat).setField 8 1 0).setField 10 1 1 := by
    rw [Dev.reg_timeSource _ _ _ (by decide), Dev.reg_raise, if_neg (by decide), Dev.reg_leapUtc, if_pos rfl]
  obtain ⟨hoff, hclear, hoccur⟩ := leapNow_word (s.dev.reg Reg.TBU_UTC) n.toNat
  have hutcKeeps : Dev.Keeps (fun off => off == Reg.TBU_UTC || off == Reg.TBU_EVT) { s.dev with tbu := (s.dev.leapUtc n.toNat).tbu }
      (s.dev.leapUtc n.toNat) :=
    ((Dev.keeps_setField _ _ _ _ _ (Or.inl rfl)).trans (Dev.keeps_setField _ _ _ _ _ (Or.inl rfl))).trans
      (Dev.keeps_setField _ _ _ _ _ (Or.inl rfl))
  have hreport : Dev.Keeps (fun off => off == Reg.TBU_UTC || off == Reg.TBU_EVT) (s.dev.leapUtc n.toNat)
      (((s.dev.leapUtc n.toNat).raise Reg.TBU_EVT 3).timeSource 4 s.dev.tbu.src) :=
    (Dev.keeps_raise Reg.TBU_EVT 3 _ (Or.inl rfl)).trans (Dev.keeps_timeSource 4 s.dev.tbu.src _)
  refine ⟨rfl, ?_, ?_, ?_, ?_, ?_, ?_, (hutcKeeps.trans hreport).of_tbu⟩
  · rw [Dev.fld, hutc, hoff, hlt]
  · rw [Dev.rbit, hutc, hclear]
  · rw [Dev.rbit, hutc, hoccur]
  · rw [Dev.rbit, Dev.reg_timeSource _ _ _ (by decide)]
    exact Dev.rbit_raise _ _ _ (by decide)
  · rw [hreport.tbu_eq]; rfl
  · exact (Dev.derived_congr hreport.tbu_eq hreport.raw_eq).trans (s.dev.derived_leapUtc _)

/-- 24 h after it, the occurrence of a leap shows no longer (R77). -/
theorem leapOccurredExpiry_completes (r : Nat) (s : State) (hr : s.dev.tbu.leapOccur = some r) (ht : r + 86400000000000 ≤ s.dev.raw) :
    Completes .leapOccurredExpiry s (fun t =>
      t = { s with dev := ({ s.dev with tbu := { s.dev.tbu with leapOccur := none } } : Dev).setField Reg.TBU_UTC 10 1 0 }) := by
  refine ⟨_, rfl, ?_⟩
  simp only [hr]
  rw [if_pos ht]

/-- Settles O22, clause by clause (R77, R87). -/
theorem leapSeconds : Obligations.LeapSeconds := by
  refine ⟨tbuLeap_sets, tbuLeap_cancels, ?refused, leapSecond_completes, leapOccurredExpiry_completes⟩
  case refused =>
    intro h v s ha hbad
    refine completes_tbuLeap ha ?_
    rw [Dev.leapCmd_refused hbad]

/-! ### Sources and holdover (R69, R70) -/

@[simp] theorem Dev.srcS_setSrc (n m : Nat) (x : SrcS) (d : Dev) : (d.setSrc n x).srcS m = if m = n then x else d.srcS m := by
  simp only [Dev.srcS, Dev.setSrc, KMap.get?_put]
  split <;> rfl

/-- Judging agreement changes whether the sources disagree, and reports it (R55). -/
theorem Dev.judgeDisagree_tbu (d : Dev) : ∃ b : Bool, d.judgeDisagree.tbu = { d.tbu with disagree := b } := by
  unfold Dev.judgeDisagree
  dsimp only
  split
  · refine ⟨true, ?_⟩
    rw [Dev.timeSource, Dev.post_tbu, Dev.raise_tbu]
  · exact ⟨_, rfl⟩

/-- A source that is not the selected one is lost: it is no longer qualified, and the selected one stays. -/
theorem Dev.loseSrc_other {n : Nat} {d : Dev} (hn : d.tbu.src ≠ n) :
    ((d.loseSrc n).srcS n).qualified = false ∧ (d.loseSrc n).tbu.src = d.tbu.src := by
  have hlose : d.loseSrc n = (d.setSrc n { d.srcS n with qualified := false, offs := [], outRun := 0 }).judgeDisagree := by
    unfold Dev.loseSrc
    exact if_pos hn.symm
  obtain ⟨b, hb⟩ := (d.setSrc n { d.srcS n with qualified := false, offs := [], outRun := 0 }).judgeDisagree_tbu
  rw [hlose, Dev.srcS, hb]
  have hsrc := d.srcS_setSrc n n { d.srcS n with qualified := false, offs := [], outRun := 0 }
  rw [if_pos rfl, Dev.srcS] at hsrc
  exact ⟨by rw [hsrc], rfl⟩

theorem sourceLossTimeout_completes (n : Nat) (s : State) (hon : s.dev.op.mainOn = true) (hlo : 2 ≤ n) (hhi : n ≤ 4)
    (ht : (s.dev.srcS n).lastRaw + 3000000000 ≤ s.dev.raw) :
    Completes (.sourceLossTimeout n) s (fun t => s.MainOnly t ∧ t.dev = (if (s.dev.srcS n).qualified then s.dev.loseSrc n
      else s.dev.setSrc n { s.dev.srcS n with offs := [] }) ∧
      (s.dev.tbu.src ≠ n → (s.dev.srcS n).qualified = true → (t.dev.srcS n).qualified = false ∧ t.dev.tbu.src = s.dev.tbu.src)) := by
  refine ⟨{ s with dev := if (s.dev.srcS n).qualified then s.dev.loseSrc n else s.dev.setSrc n { s.dev.srcS n with offs := [] } },
    ?answer, rfl, rfl, fun hn hq => ?lost⟩
  case answer =>
    have hptp : n ≠ 1 := by omega
    simp [exec, execSourceLossTimeout, State.onDev, hon, hptp, hlo, hhi, ht]
  case lost =>
    simp only [hq, if_true]
    exact Dev.loseSrc_other hn

theorem uncertRefresh_completes (s : State) (hon : s.dev.op.mainOn = true) (hsync : s.dev.tbu.sync = 3) :
    Completes .tbuUncertRefresh s (fun t => s.MainOnly t ∧
    t.dev.reg Reg.TBU_UNCERT = BitVec.ofNat 32 (min (s.dev.tbu.uLock + s.dev.fld Reg.TBU_HOLD 0 16 * (s.dev.raw - s.dev.tbu.lastAcc) / 1000000000) 0xFFFFFFFF) ∧
    (∀ off, off ≠ Reg.TBU_UNCERT → t.dev.reg off = s.dev.reg off) ∧ t.dev = { s.dev with regs := t.dev.regs }) := by
  refine completes_if rfl (by simp only [hon, hsync, beq_self_eq_true, Bool.and_self]) ?_
  exact ⟨rfl, (Dev.reg_setReg ..).trans (if_pos rfl), fun off ho => Dev.reg_setReg_ne ho _ _, rfl⟩

/-! ### References and the backup counter (R65, R66, R84) -/

theorem ppsEdge_waits (f : Bool) (s : State) (hon : s.dev.op.mainOn = true) (hen : s.dev.rbit Reg.TBU_REFIN_CTRL 0 = true)
    (hedge : s.dev.rbit Reg.TBU_REFIN_CTRL 1 = f) (hrefers : s.dev.rbit Reg.TBU_REFIN_CTRL 2 = false) :
    Completes (.ppsEdge f) s (fun t => t = { s with dev := { s.dev with
      tbu := { s.dev.tbu with pps := some (s.dev.raw, s.dev.t16 - signedOf 32 (s.dev.reg Reg.TBU_PPS_DELAY).toNat * 65536) } } }) := by
  refine completes_if_not rfl (by simp [hon, hen, hedge]) ?_
  simp only [hrefers, Bool.false_eq_true, if_false]

theorem gnssSentence_held (g : NmeaSentence) (s : State) (hon : s.dev.op.mainOn = true) (hen : s.dev.rbit Reg.TBU_REFIN_CTRL 0 = true)
    (hsum : g.checksumOk = true) (hrefers : s.dev.rbit Reg.TBU_REFIN_CTRL 2 = true) :
    Completes (.gnssSentence g) s (fun t =>
      t = { s with dev := { s.dev with tbu := { s.dev.tbu with ppsSec := some (s.dev.raw, g.utcSecond) } } }) := by
  refine completes_if_not rfl (by simp [hon, hen, hsum]) ?_
  simp only [hrefers, if_true]

theorem gnssSentence_measures (g : NmeaSentence) (r : Nat) (e : Int) (s : State) (hon : s.dev.op.mainOn = true)
    (hen : s.dev.rbit Reg.TBU_REFIN_CTRL 0 = true) (hsum : g.checksumOk = true) (hrefers : s.dev.rbit Reg.TBU_REFIN_CTRL 2 = false)
    (hpps : s.dev.tbu.pps = some (r, e)) (ht : s.dev.raw ≤ r + 900000000) :
    Completes (.gnssSentence g) s (fun t => s.MainOnly t ∧
      t.dev = ({ s.dev with tbu := { s.dev.tbu with pps := none } } : Dev).refMeasure 2 e (g.utcSecond : Nat)) := by
  refine completes_if_not rfl (by simp [hon, hen, hsum]) ⟨rfl, ?_⟩
  simp only [hrefers, hpps, ht, Bool.false_eq_true, if_false, if_true]

theorem irigFrame_measures (g : IrigFrame) (s : State) (hon : s.dev.op.mainOn = true) (hen : s.dev.rbit Reg.TBU_REFIN_CTRL 8 = true)
    (hext : g.ext = none) : Completes (.irigFrame g) s (fun t => s.MainOnly t ∧
      t.dev = s.dev.refMeasure 3 (s.dev.t16 - signedOf 32 (s.dev.reg Reg.TBU_IRIG_DELAY).toNat * 65536) (s.dev.irigSecond g)) := by
  have hplain : s.dev.irigExt g = s.dev := by simp only [Dev.irigExt, hext]
  refine completes_if_not rfl (by simp [hon, hen]) ⟨rfl, ?_⟩
  simp only [hplain]

theorem backupRtcCopy_completes (s : State) (hon : s.dev.op.mainOn = true) (hsync : s.dev.tbu.sync = 2)
    (ht : s.dev.tbu.lastRtc + 1000000000 ≤ s.dev.raw) :
    Completes .backupRtcCopy s (fun t => t.bd = { s.bd with rtcNs := s.dev.tick.toNat } ∧
      t.dev = { s.dev with tbu := { s.dev.tbu with lastRtc := s.dev.raw } } ∧ t.nv = s.nv) := by
  refine ⟨s.copyRtc, ?_, rfl, rfl, rfl⟩
  simp [exec, execBackupRtcCopy, hon, hsync, ht]

/-- Settles O23, clause by clause (R65, R66, R69, R70, R84). -/
theorem sourcesAndReferences : Obligations.SourcesAndReferences :=
  ⟨⟨sourceLossTimeout_completes, uncertRefresh_completes⟩, ppsEdge_waits, gnssSentence_held, gnssSentence_measures,
    irigFrame_measures, backupRtcCopy_completes⟩

/-! ### Qualification (R54, R69) -/

/-- An offset outside the band of a qualified source that is not the selected one is counted (R69). -/
theorem Dev.measure_outside {n : Nat} {d : Dev} (o : Int) (hq : (d.srcS n).qualified = true) (hn : n ≠ d.tbu.src)
    (hrun : (d.srcS n).outRun < 2) (hband : d.fld Reg.TBU_SRC_CTRL 21 11 * 65536 < (o - (d.srcS n).lastOff).natAbs) :
    d.measure n o = d.setSrc n { d.srcS n with outRun := (d.srcS n).outRun + 1, lastRaw := d.raw } := by
  simp only [Dev.measure, hq, if_true, if_neg hn, if_pos hband, if_neg (not_le.2 hrun)]

/-- With fewer offsets than `QUAL_INTERVALS` asks for, a source keeps them (R54). -/
theorem Dev.measure_gathers {n : Nat} {d : Dev} (o : Int) (hq : (d.srcS n).qualified = false)
    (hfew : ((o :: (d.srcS n).offs).take (max 2 (d.fld Reg.TBU_SRC_CTRL 17 4))).length < max 2 (d.fld Reg.TBU_SRC_CTRL 17 4)) :
    d.measure n o = d.setSrc n { d.srcS n with
      offs := (o :: (d.srcS n).offs).take (max 2 (d.fld Reg.TBU_SRC_CTRL 17 4)), lastOff := o, lastRaw := d.raw } := by
  simp only [Dev.measure, hq, Bool.false_eq_true, if_false, decide_eq_false hfew.ne, Bool.false_and]

/-- Settles O24 (R53, R54, R69). -/
theorem qualification : Obligations.Qualification := by
  refine ⟨fun n o d hq hn hrun hband => Dev.measure_outside o hq hn hrun hband, fun n o d hq hfew => ?_⟩
  rw [Dev.measure_gathers o hq hfew, Dev.srcS_setSrc, if_pos rfl]
  exact ⟨hq, rfl⟩

end Sys2Proof.Machine

/-! # Network ingest (chapter 3): the ports, and the stream table's states, commits and versions

First the ports: what the MAC does with a frame, PRP's duplicate discard, and the published frames that start late, which
refute two statements about links and transmissions. Then the stream table: staleness and looks, the commands of a commit, its
validation and instant, and the versions that it leaves. -/

namespace Sys2Proof.Machine

theorem State.mainOnly_dev (s : State) (d : Dev) : s.MainOnly { s with dev := d } := rfl

/-! ### What the MAC does with a frame (R89, R102 to R105) -/

@[simp] theorem Dev.reg_setPort (n : Nat) (x : PortS) (off : Nat) (d : Dev) : (d.setPort n x).reg off = d.reg off := rfl

/-- Registers of one port at different places of its block. -/
theorem portReg_ne {a b : Nat} (h : a ≠ b) (n : Nat) : a + 0x2000 * n ≠ b + 0x2000 * n := fun he => h (Nat.add_right_cancel he)

theorem Dev.quantumNs_setReg {n off : Nat} (h : Reg.NET_CTRL n ≠ off) (w : Word) (q : Nat) (d : Dev) :
    (d.setReg off w).quantumNs n q = d.quantumNs n q := by
  unfold Dev.quantumNs Dev.rbit
  rw [Dev.reg_setReg_ne h]

/-- A frame on port `port` counts in `RXFRAMES` and in a counter of its own, and in no other register. -/
def Dev.Counts (port cnt : Nat) (d e : Dev) : Prop :=
  e.reg (Reg.NET_RXFRAMES port) = d.reg (Reg.NET_RXFRAMES port) + 1 ∧ e.reg cnt = (d.reg cnt).satAdd 1 ∧
    ∀ off, off ≠ cnt → off ≠ Reg.NET_RXFRAMES port → e.reg off = d.reg off

/-- The device once a frame has counted in `RXFRAMES` and in a counter of its own. -/
def Dev.counted (port cnt : Nat) (d : Dev) : Dev := (d.wrapAdd (Reg.NET_RXFRAMES port) 1).bump cnt 1

theorem Dev.counts_counted {port cnt : Nat} (h : cnt ≠ Reg.NET_RXFRAMES port) (d : Dev) : d.Counts port cnt (d.counted port cnt) := by
  refine ⟨?_, ?_, fun off hc hr => ?_⟩
  · rw [Dev.counted, Dev.reg_bump, if_neg h.symm, Dev.reg_wrapAdd, if_pos rfl]
    rfl
  · rw [Dev.counted, Dev.reg_bump, if_pos rfl, Dev.reg_wrapAdd, if_neg h]
  · rw [Dev.counted, Dev.reg_bump, if_neg hc, Dev.reg_wrapAdd, if_neg hr]

theorem Dev.counted_frame (port cnt : Nat) (d : Dev) : d.counted port cnt = { d with regs := (d.counted port cnt).regs } := rfl

section
variable {port : Nat} {f : RxFrame} {fz : Fuse} {d : Dev}
  (hport : port < 4) (hup : d.portUp port = true) (hboot : d.op ≠ .boot) (hon : d.op.mainOn = true)
include hport hup hboot hon

theorem Dev.mac_receives : (decide (3 < port) || !d.portUp port || d.op == .boot || !d.op.mainOn) = false := by
  simp [hport, hup, hboot, hon, Nat.le_of_lt_succ]

theorem Dev.rxFrame_of_unassembled (hreasm : f.reasmOk = false) : d.rxFrame fz port f = d.counted port (Reg.NET_REASM_ERR port) := by
  unfold Dev.rxFrame
  simp only [Dev.mac_receives hport hup hboot hon, hreasm, Bool.not_false, Bool.false_eq_true, if_true, if_false]
  rfl

theorem Dev.rxFrame_of_bad (hreasm : f.reasmOk = true) (hbad : f.len < 64 ∨ 1522 < f.len ∨ f.fcsOk = false) :
    d.rxFrame fz port f = d.counted port (Reg.NET_FCS_ERR port) := by
  have hb : (decide (f.len < 64) || decide (1522 < f.len) || !f.fcsOk) = true := by simpa [or_assoc] using hbad
  unfold Dev.rxFrame
  simp only [Dev.mac_receives hport hup hboot hon, hreasm, hb, Bool.not_true, Bool.false_eq_true, if_true, if_false]
  rfl

/-- A MAC control frame that the receive buffer admits is neither MACsec's nor PRP's: it goes to its class as it came. -/
theorem Dev.rxFrame_of_macCtrl {op q : Nat} (hreasm : f.reasmOk = true) (hmin : 64 ≤ f.len) (hmax : f.len ≤ 1522) (hfcs : f.fcsOk = true)
    (htags : f.tags < 2) (hrct : f.rct = none) (hbody : f.body = .macCtrl op q) (hfree : op = 1 → 1536 ≤ f.free) :
    d.rxFrame fz port f = (d.wrapAdd (Reg.NET_RXFRAMES port) 1).rxClass fz port (if op = 1 then 3 else 4) f false none := by
  have hgood : (decide (f.len < 64) || decide (1522 < f.len) || !f.fcsOk) = false := by simp [hmin, hmax, hfcs]
  have hrow : ∀ e : Dev, e.rxRow port f = if op = 1 then 3 else 4 := fun e => by simp [Dev.rxRow, hbody, htags]
  have hadmit : (rxAdmit port (if op = 1 then 3 else 4) f.free).1 = true := by
    by_cases hop : op = 1 <;> simp [rxAdmit, hop, hfree]
  have hsec : ∀ e : Dev, e.macsecIn port f = (some (false, none), e) := fun e => by simp [Dev.macsecIn, hbody]
  have hprp : ∀ e : Dev, e.prpIn port f = (true, e) := fun e => by simp [Dev.prpIn, hrct]
  unfold Dev.rxFrame
  simp only [Dev.mac_receives hport hup hboot hon, hreasm, hgood, hrow, hadmit, hsec, hprp, Bool.not_true, Bool.false_eq_true, if_true,
    if_false]

end

theorem Dev.rxClass_of_pfc {fz : Fuse} {port op q : Nat} {f : RxFrame} {secure : Bool} {sc : Option Nat} (hbody : f.body = .macCtrl op q)
    (d : Dev) : d.rxClass fz port 4 f secure sc = d.bump (Reg.NET_PFC_DROP port) 1 := by
  simp [Dev.rxClass, hbody]

theorem Dev.rxClass_of_pause {fz : Fuse} {port op q : Nat} {f : RxFrame} {secure : Bool} {sc : Option Nat} (hbody : f.body = .macCtrl op q)
    (d : Dev) : d.rxClass fz port 3 f secure sc = d.pauseIn port q := by
  simp [Dev.rxClass, hbody]

/-- A port held by a PAUSE for `q` quanta, from its first one on (R103). -/
def Dev.heldPort (port q : Nat) (d : Dev) : PortS :=
  { d.port port with pauseUntil := some (d.raw + d.quantumNs port q), pauseSince := some ((d.port port).pauseSince.getD d.raw) }

theorem Dev.heldPort_setReg {port off : Nat} (h : Reg.NET_CTRL port ≠ off) (w : Word) (q : Nat) (d : Dev) :
    (d.setReg off w).heldPort port q = d.heldPort port q := by
  unfold Dev.heldPort
  rw [Dev.quantumNs_setReg h]
  rfl

/-- A PAUSE outside a storm holds its port. -/
theorem Dev.pauseIn_holds {port q : Nat} {d : Dev} (hpos : 0 < q) (hq : q < 65536) (hstorm : (d.port port).stormUntil = none) :
    d.pauseIn port q = (d.bump (Reg.NET_PAUSE_RX port) 1).setPort port ((d.bump (Reg.NET_PAUSE_RX port) 1).heldPort port q) := by
  unfold Dev.pauseIn
  dsimp only
  split
  · next hs => exact absurd (hs.symm.trans hstorm) (by simp)
  · rw [if_neg hpos.ne', Nat.mod_eq_of_lt hq]
    rfl

theorem Dev.Counts.setPort {port cnt : Nat} {d e : Dev} (h : d.Counts port cnt e) (n : Nat) (x : PortS) :
    d.Counts port cnt (e.setPort n x) := by
  obtain ⟨hrx, hcnt, hrest⟩ := h
  exact ⟨(Dev.reg_setPort ..).trans hrx, (Dev.reg_setPort ..).trans hcnt, fun off hc hr => (Dev.reg_setPort ..).trans (hrest off hc hr)⟩

/-- A port's new state after a change of registers. -/
theorem Dev.setPort_frame {d e : Dev} (h : e = { d with regs := e.regs }) (n : Nat) (x : PortS) :
    e.setPort n x = { d with regs := (e.setPort n x).regs, net := (e.setPort n x).net } := by
  rw [h]
  rfl

theorem completes_frameReceived {port : Nat} {f : RxFrame} {s : State} {P : State → Prop} {e : Dev} (he : s.dev.rxFrame s.fuse port f = e)
    (hP : P { s with dev := e }) : Completes (.frameReceived port f) s P :=
  completes_onDev (f := Dev.rxFrame s.fuse port f) rfl (he ▸ hP)

/-- A frame that only counts. -/
theorem frameReceived_counts {port cnt : Nat} {f : RxFrame} {s : State} (hcnt : cnt ≠ Reg.NET_RXFRAMES port)
    (he : s.dev.rxFrame s.fuse port f = s.dev.counted port cnt) : Completes (.frameReceived port f) s (fun t =>
      (t.dev.reg (Reg.NET_RXFRAMES port) = s.dev.reg (Reg.NET_RXFRAMES port) + 1 ∧ t.dev.reg cnt = (s.dev.reg cnt).satAdd 1 ∧
        (∀ off, off ≠ cnt → off ≠ Reg.NET_RXFRAMES port → t.dev.reg off = s.dev.reg off) ∧ s.MainOnly t) ∧
      t.dev = { s.dev with regs := t.dev.regs }) := by
  obtain ⟨hrx, hown, hrest⟩ := Dev.counts_counted hcnt s.dev
  exact completes_frameReceived he ⟨⟨hrx, hown, hrest, s.mainOnly_dev _⟩, Dev.counted_frame ..⟩

/-- Settles O25, clause by clause (R89, R102, R103, R105). -/
theorem framesAtTheMac : Obligations.FramesAtTheMac := by
  intro port f s hport hup hboot hon
  refine ⟨fun hreasm => ?unassembled, fun hreasm hbad => ?bad, fun hreasm hmin hmax hfcs htags hrct => ⟨fun op q hbody hop => ?pfc,
    fun q hbody hpos hq hfree hstorm => ?pause⟩⟩
  case unassembled =>
    exact frameReceived_counts (portReg_ne (by decide) port) (Dev.rxFrame_of_unassembled hport hup hboot hon hreasm)
  case bad =>
    exact frameReceived_counts (portReg_ne (by decide) port) (Dev.rxFrame_of_bad hport hup hboot hon hreasm hbad)
  case pfc =>
    refine frameReceived_counts (portReg_ne (by decide) port) ?_
    rw [Dev.rxFrame_of_macCtrl hport hup hboot hon hreasm hmin hmax hfcs htags hrct hbody (fun h => absurd h hop), if_neg hop,
      Dev.rxClass_of_pfc hbody]
    rfl
  case pause =>
    have he : s.dev.rxFrame s.fuse port f = (s.dev.counted port (Reg.NET_PAUSE_RX port)).setPort port (s.dev.heldPort port q) := by
      rw [Dev.rxFrame_of_macCtrl hport hup hboot hon hreasm hmin hmax hfcs htags hrct hbody (fun _ => hfree), if_pos rfl,
        Dev.rxClass_of_pause hbody, Dev.pauseIn_holds hpos hq (by exact hstorm), Dev.bump, Dev.wrapAdd,
        Dev.heldPort_setReg (portReg_ne (by decide) port), Dev.heldPort_setReg (portReg_ne (by decide) port)]
      rfl
    obtain ⟨hrx, hown, hrest⟩ := (Dev.counts_counted (cnt := Reg.NET_PAUSE_RX port) (portReg_ne (by decide) port) s.dev).setPort port
      (s.dev.heldPort port q)
    refine completes_frameReceived he ⟨⟨hrx, hown, hrest, s.mainOnly_dev _⟩, ?_, fun n hn => ?_, Dev.setPort_frame (Dev.counted_frame ..) ..⟩
    · exact (Dev.port_setPort ..).trans (if_pos rfl)
    · exact (Dev.port_setPort ..).trans (if_neg hn)

/-! ### PRP duplicate discard (R93) -/

/-- An entry written at the key at which a search stopped, or where it found nothing, is what the search finds from then on: it stands
no later than the entry found before. -/
theorem KMap.find?_put {α : Type} {P : Nat × α → Bool} {k : Nat} {v : α} (hv : P (k, v) = true) (m : KMap α)
    (hm : ∀ q, m.find? P = some q → q.1 = k) : (KMap.put m k v).find? P = some (k, v) := by
  induction m with
  | nil => simp [KMap.put, hv]
  | cons q t ih =>
    obtain ⟨j, w⟩ := q
    unfold KMap.put
    split
    · exact List.find?_cons_of_pos hv
    · split
      · exact List.find?_cons_of_pos hv
      · next hlt hne =>
        have hw : ¬ P (j, w) = true := fun hw => hne (hm _ (List.find?_cons_of_pos hw)).symm
        rw [List.find?_cons_of_neg hw] at hm ⊢
        exact ih hm

theorem Dev.nodes_setNodes (pair : Nat) (m : KMap PrpNode) (d : Dev) : (d.setNodes pair m).nodes pair = m := by
  unfold Dev.nodes Dev.setNodes
  by_cases h : pair = 0 <;> simp only [h, if_true, if_false]

/-- The entry of a source after a write that keeps its address. -/
theorem Dev.find?_setNodes {pair k m : Nat} {x : PrpNode} {l : KMap PrpNode} (hx : x.mac = m)
    (hm : ∀ r, l.find? (fun p => p.2.mac == m) = some r → r.1 = k) (d : Dev) :
    ((d.setNodes pair (KMap.put l k x)).nodes pair).find? (fun p => p.2.mac == m) = some (k, x) := by
  rw [Dev.nodes_setNodes]
  exact KMap.find?_put (P := fun p => p.2.mac == m) (beq_iff_eq.2 hx) l hm

/-- How far a sequence number lies ahead of the highest one accepted from a source. -/
def PrpNode.ahead (e : PrpNode) (q : Nat) : Int := signedOf 16 ((q + 65536 - e.highest) % 65536)

/-- A sequence number is within the window of 64 and marked as accepted. -/
def PrpNode.Marked (e : PrpNode) (q : Nat) : Prop := e.ahead q ≤ 0 ∧ -64 < e.ahead q ∧ e.marks.testBit (-e.ahead q).toNat = true

theorem PrpNode.marked_highest {e : PrpNode} {q : Nat} (hq : e.highest = q) (hm : e.marks.testBit 0 = true) : e.Marked q := by
  have h0 : e.ahead q = 0 := by rw [PrpNode.ahead, hq, Nat.add_sub_cancel_left]; rfl
  rw [PrpNode.Marked, h0]
  exact ⟨le_refl _, by decide, hm⟩

/-- The newest number stands at bit 0 of the marks. -/
theorem testBit_zero_or_one_mod (marks n : Nat) : ((marks <<< n ||| 1) % 2 ^ 64).testBit 0 = true := by
  simp

/-- A number marked in the entry of its source is refused. -/
theorem Dev.prpAccept_of_marked {port m q k : Nat} {e : PrpNode} {d : Dev}
    (hf : (d.nodes (port / 2)).find? (fun p => p.2.mac == m) = some (k, e)) (hq : e.Marked q) : (d.prpAccept port m q).1 = false := by
  obtain ⟨hle, hwin, hbit⟩ := hq
  unfold PrpNode.ahead at hle hwin hbit
  simp only [Dev.prpAccept, hf, if_neg (not_lt.2 hle), decide_eq_true hwin, hbit, Bool.and_self, if_true]

/-- Duplicate discard leaves the number that it has judged marked in the entry of its source. -/
theorem Dev.prpAccept_marks (port m q : Nat) (d : Dev)
    (hwin : ∀ k e, (d.nodes (port / 2)).find? (fun p => p.2.mac == m) = some (k, e) → -64 < e.ahead q)
    (hroom : (d.nodes (port / 2)).find? (fun p => p.2.mac == m) = none → d.allocNode (port / 2) ≠ none) :
    ∃ k e, ((d.prpAccept port m q).2.nodes (port / 2)).find? (fun p => p.2.mac == m) = some (k, e) ∧ e.Marked q := by
  cases hf : (d.nodes (port / 2)).find? (fun p => p.2.mac == m) with
  | none =>
    obtain ⟨k, hk⟩ := Option.ne_none_iff_exists'.1 (hroom hf)
    simp only [Dev.prpAccept, hf, hk]
    refine ⟨k, _, Dev.find?_setNodes ?_ ?_ _, ?_⟩
    · rfl
    · simp [hf]
    · exact PrpNode.marked_highest rfl Nat.testBit_one_zero
  | some p =>
    obtain ⟨k, e⟩ := p
    have hmac : e.mac = m := by simpa using List.find?_some hf
    have hkey : ∀ r, (d.nodes (port / 2)).find? (fun p => p.2.mac == m) = some r → r.1 = k := fun r hr =>
      (congrArg Prod.fst (Option.some.inj (hf.symm.trans hr))).symm
    have hw : -64 < signedOf 16 ((q + 65536 - e.highest) % 65536) := hwin k e hf
    by_cases hnew : 0 < signedOf 16 ((q + 65536 - e.highest) % 65536)
    · simp only [Dev.prpAccept, hf, if_pos hnew]
      refine ⟨k, _, Dev.find?_setNodes ?_ hkey _, ?_⟩
      · exact hmac
      · exact PrpNode.marked_highest rfl (testBit_zero_or_one_mod ..)
    · by_cases hseen : e.marks.testBit (-signedOf 16 ((q + 65536 - e.highest) % 65536)).toNat = true
      · simp only [Dev.prpAccept, hf, if_neg hnew, decide_eq_true hw, hseen, Bool.and_self, if_true]
        refine ⟨k, _, Dev.find?_setNodes ?_ hkey _, ?_⟩
        · exact hmac
        · exact ⟨not_lt.1 hnew, hw, hseen⟩
      · simp only [Dev.prpAccept, hf, if_neg hnew, decide_eq_true hw, hseen, Bool.true_and, Bool.false_eq_true, if_false, if_pos hw]
        refine ⟨k, _, Dev.find?_setNodes ?_ hkey _, not_lt.1 hnew, hw, ?_⟩
        · exact hmac
        · rw [Nat.testBit_or, PrpNode.ahead, Nat.testBit_two_pow_self, Bool.or_true]

/-- Settles O26: duplicate discard leaves the number marked in the entry of its source, and a marked number is refused (R93). -/
theorem prpDiscardsTheSecondCopy : Obligations.PrpDiscardsTheSecondCopy := by
  intro p p' m q d hpair hwin hroom
  obtain ⟨k, e, hf, hq⟩ := d.prpAccept_marks p m q hwin hroom
  rw [hpair] at hf
  exact Dev.prpAccept_of_marked hf hq

/-! ### Late starts (R307) -/

/-- A published frame that can no longer start in time is the next to go out on a port (R307): the port is up and holds no express
frame and no preempted one. -/
structure Dev.LateNext (n : Nat) (d : Dev) : Prop where
  up : d.portUp n = true
  express : (d.port n).express = []
  held : (d.port n).held = none
  head : ∃ f rest u, (d.port n).preempt = f :: rest ∧ f.latest = some u ∧ u < d.raw

theorem Dev.txLatest_of_late {f : TxFrame} {u : Nat} {d : Dev} (h : f.latest = some u) (hu : u < d.raw) :
    d.txLatest f = d.bump Reg.PUB_LAT_OVER 1 := by
  simp only [Dev.txLatest, h, if_pos hu]

/-- An idle port that is not held by PAUSE starts it, and it counts. -/
theorem Dev.reg_startNext_of_late {n : Nat} {d : Dev} (h : d.LateNext n) (hidle : (d.port n).cur = none)
    (hpause : (d.port n).pauseUntil = none) : (d.startNext n).reg Reg.PUB_LAT_OVER = (d.reg Reg.PUB_LAT_OVER).satAdd 1 := by
  obtain ⟨hup, hexpress, hheld, f, rest, u, hpre, hlatest, hlate⟩ := h
  have hmay : d.mayStartTx n .preempt = true := by simp [Dev.mayStartTx, hpause]
  simp only [Dev.startNext, hidle, hup, hexpress, hheld, hpre, hmay, Option.isSome_none, Bool.not_true, Bool.or_self, Bool.false_eq_true,
    if_false]
  rw [Dev.txLatest_of_late hlatest (by exact hlate), Dev.reg_bump, if_pos rfl, Dev.reg_emit, Dev.reg_setPort]

theorem Dev.pauseEnds_of_due {port u : Nat} {d : Dev} (hu : (d.port port).pauseUntil = some u) (hdue : u ≤ d.raw) :
    d.pauseEnds port = (d.setPort port { d.port port with pauseUntil := none, pauseSince := none }).startNext port := by
  simp only [Dev.pauseEnds, hu, if_pos hdue]

/-- The end of a preemptable frame that is no host frame's. -/
theorem Dev.txEnds_of_gone {port : Nat} {c : TxCur} {d : Dev} (hcur : (d.port port).cur = some c)
    (hgone : c.frame.len - c.sent + 20 ≤ d.portBytes port (d.raw - c.start)) (hq : c.q = .preempt) (hhost : c.frame.host = none) :
    d.txEnds port = ((d.setPort port { d.port port with cur := none }).wrapAdd (Reg.NET_TXFRAMES port) 1).startNext port := by
  simp [Dev.txEnds, hcur, not_lt.2 hgone, hq, hhost]

/-- A frame of output set 3 that had to start 0.2 ms after power-up. -/
def lateFrame : TxFrame := { body := .c37 3 0 0 [], prp := none, len := 100, cls := 0, host := none, latest := some 200000 }

/-- RUN 1 ms after power-up, with port 0 enabled and as given. -/
def State.runWithPort (p : PortS) : State :=
  { State.reset with
    dev := (({ State.reset.dev with op := .run, raw := 1000000 } : Dev).setReg (Reg.NET_CTRL 0) 1).setPort 0 p }

theorem State.lateOver_runWithPort (p : PortS) : (State.runWithPort p).dev.reg Reg.PUB_LAT_OVER = 0 := by
  rw [State.runWithPort, Dev.reg_setPort]
  decide

/-- A port whose PAUSE has just run out over a frame that waited too long. -/
def pausedPort : PortS :=
  { PortS.new with link := true, preempt := [lateFrame], pauseUntil := some 1000000, pauseSince := some 100000 }

theorem pauseEnds_counts_late : ((State.runWithPort pausedPort).dev.pauseEnds 0).reg Reg.PUB_LAT_OVER = 1 := by
  rw [Dev.pauseEnds_of_due (u := 1000000) rfl (le_refl _), Dev.reg_startNext_of_late, Dev.reg_setPort, State.lateOver_runWithPort]
  · rfl
  · exact ⟨by decide, rfl, rfl, lateFrame, [], 200000, rfl, rfl, by decide⟩
  · rfl
  · rfl

/-- Refutes O27: the PAUSE of `PAUSE_EXPIRY` has held a published frame past its latest start, so that the frame starts late and counts
in `PUB_LAT_OVER` (R307), where the statement has every register as before. -/
theorem not_linksAndPauses : ¬ Obligations.LinksAndPauses := by
  intro h
  obtain ⟨-, hexpiry, -, -⟩ := h
  obtain ⟨t, ht, -, -, -, hframe⟩ := hexpiry 0 1000000 (State.runWithPort pausedPort) rfl (le_refl _)
  have hdev : (State.runWithPort pausedPort).dev.pauseEnds 0 = t.dev := congrArg State.dev (Host.Outcome.next.inj ht)
  have hsame : t.dev.reg Reg.PUB_LAT_OVER = (State.runWithPort pausedPort).dev.reg Reg.PUB_LAT_OVER := by rw [hframe]; rfl
  rw [← hdev, pauseEnds_counts_late, State.lateOver_runWithPort] at hsame
  exact absurd hsame (by decide)

/-- A preemptable frame that has gone out. -/
def goneFrame : TxCur := { q := .preempt, frame := { lateFrame with latest := none }, start := 0, sent := 0 }

/-- A port at the end of a frame, with a frame behind it that should have started before. -/
def busyPort : PortS := { PortS.new with link := true, preempt := [lateFrame], cur := some goneFrame }

theorem txEnds_counts_late : ((State.runWithPort busyPort).dev.txEnds 0).reg Reg.PUB_LAT_OVER = 1 := by
  rw [Dev.txEnds_of_gone (c := goneFrame) rfl (by decide) rfl rfl, Dev.reg_startNext_of_late, Dev.reg_wrapAdd, if_neg (by decide),
    Dev.reg_setPort, State.lateOver_runWithPort]
  · rfl
  · exact ⟨by decide, rfl, rfl, lateFrame, [], 200000, rfl, rfl, by decide⟩
  · rfl
  · rfl

/-- Refutes O28: the frame that follows the one of `FRAME_TRANSMIT_END` starts later than it should and counts in `PUB_LAT_OVER` (R307),
where the statement has every register but `TXFRAMES` and `TX_EXPRESS` as before. -/
theorem not_preemptionAndTransmission : ¬ Obligations.PreemptionAndTransmission := by
  intro h
  obtain ⟨-, hend, -⟩ := h
  obtain ⟨t, ht, -, -, -, -, hregs⟩ := hend 0 goneFrame (State.runWithPort busyPort) (by decide) rfl (by decide)
  have hdev : (State.runWithPort busyPort).dev.txEnds 0 = t.dev := congrArg State.dev (Host.Outcome.next.inj ht)
  have hsame : t.dev.reg Reg.PUB_LAT_OVER = (State.runWithPort busyPort).dev.reg Reg.PUB_LAT_OVER :=
    hregs Reg.PUB_LAT_OVER (by decide) (by decide)
  rw [← hdev, txEnds_counts_late, State.lateOver_runWithPort] at hsame
  exact absurd hsame (by decide)

/-! ### A stream goes STALE (Table 3.8, R124) -/

/-- A stream takes another state: its word 12 changes in the active tables, and its change bit is set. -/
theorem Dev.setStreamState_of_ne {i st : Nat} {d : Dev} (h : d.streamState i ≠ st) : d.setStreamState i st =
    (d.setAct (stmOff i 12) ((d.actW (stmOff i 12)).setField 0 4 st)).raise (Reg.STM_CHG (i / 32)) (i % 32) := if_neg h

theorem streamStale_completes (i : Nat) (s : State) (hvalid : eValid (s.dev.entry i) = true) (hactive : s.dev.streamState i = 2)
    (hon : s.dev.op.mainOn = true) (hdue : KMap.getD s.dev.stm.lastRx i 0 + s.dev.staleNs (s.dev.entry i) ≤ s.dev.raw) :
    Completes (.streamStale i) s (fun t => s.MainOnly t ∧
      t.dev.actW (stmOff i 12) = (s.dev.actW (stmOff i 12)).setField 0 4 3 ∧
      (∀ off, off ≠ stmOff i 12 → t.dev.actW off = s.dev.actW off) ∧ t.dev.rbit (Reg.STM_CHG (i / 32)) (i % 32) = true ∧
      Dev.Keeps (fun off => off == Reg.STM_CHG (i / 32)) { s.dev with act := t.dev.act } t.dev) := by
  refine completes_if (d := s.dev.setStreamState i 3) rfl (by simp only [hon, hvalid, hactive, hdue, beq_self_eq_true, decide_true,
    Bool.and_self]) ?_
  rw [Dev.setStreamState_of_ne (by rw [hactive]; decide)]
  set e : Dev := s.dev.setAct (stmOff i 12) ((s.dev.actW (stmOff i 12)).setField 0 4 3)
  have hraise : Dev.Keeps (fun off => off == Reg.STM_CHG (i / 32)) e (e.raise (Reg.STM_CHG (i / 32)) (i % 32)) :=
    Dev.keeps_raise _ _ _ (Or.inl (beq_self_eq_true _))
  have hact : ∀ off, (e.raise (Reg.STM_CHG (i / 32)) (i % 32)).actW off =
      if off = stmOff i 12 then (s.dev.actW (stmOff i 12)).setField 0 4 3 else s.dev.actW off := fun off => by
    rw [Dev.actW, hraise.act_eq]
    exact Dev.actW_setAct ..
  refine ⟨s.mainOnly_dev _, (hact _).trans (if_pos rfl), fun off ho => (hact off).trans (if_neg ho),
    Dev.rbit_raise _ _ _ (Nat.mod_lt _ (by decide)), ?_⟩
  rw [hraise.act_eq]
  exact hraise

/-! ### Looks (R140, R141) -/

/-- A look in which nothing goes wrong. -/
theorem Dev.lookWith_of_no_faults {f : LookFaults} (hf : f = { cells := [], late := [] }) (fz : Fuse) (k : Nat) (look : Dev → Dev) (d : Dev) :
    d.lookWith fz k f look = look d := by
  subst hf
  simp [Dev.lookWith, Dev.withReads, Dev.cellReads]

theorem Dev.openSet?_dropSet (rc k : Nat) (d : Dev) : (d.dropSet rc k).openSet? rc k = none := by
  refine List.find?_eq_none.2 fun x hx hk => ?_
  obtain ⟨-, hkeep⟩ := List.mem_filter.1 hx
  simp [hk] at hkeep

/-- A set's final look closes it. -/
theorem Dev.openSet?_lookFinal (x : SetS) (reason : Nat) (d : Dev) : (d.lookFinal x reason).openSet? x.rc x.k = none :=
  Dev.openSet?_dropSet ..

theorem Dev.openSet?_key {rc k : Nat} {x : SetS} {d : Dev} (h : d.openSet? rc k = some x) : x.rc = rc ∧ x.k = k := by
  simpa using List.find?_some h

section
variable {rc k : Nat} {f : LookFaults} {x : SetS} {s : State} (hx : s.dev.openSet? rc k = some x)
include hx

theorem firstLook_looks (hrun : s.dev.op.running = true) (hfresh : x.done = false) (hdue : x.first ≤ s.dev.raw) :
    Completes (.firstLook rc k f) s (fun t => t = { s with dev := s.dev.lookWith s.fuse k f (Dev.lookFirst x) } ∧
      (f = { cells := [], late := [] } → t.dev = s.dev.lookFirst x)) := by
  refine completes_onDev (f := Dev.firstLookDue s.fuse rc k f) rfl ?_
  have hlook : s.dev.firstLookDue s.fuse rc k f = s.dev.lookWith s.fuse k f (Dev.lookFirst x) := by
    simp [Dev.firstLookDue, hx, hrun, hfresh, hdue]
  rw [hlook]
  exact ⟨rfl, fun hf => Dev.lookWith_of_no_faults hf ..⟩

theorem firstLook_waits (hnot : x.done = true ∨ s.dev.raw < x.first) : Completes (.firstLook rc k f) s (fun t => t = s) := by
  refine completes_onDev (f := Dev.firstLookDue s.fuse rc k f) rfl ?_
  have hstays : s.dev.firstLookDue s.fuse rc k f = s.dev := by
    rcases hnot with h | h <;> simp [Dev.firstLookDue, hx, h]
  rw [hstays]

theorem finalLook_looks (hrun : s.dev.op.running = true) (hlooked : x.done = true) (hdue : x.final ≤ s.dev.raw) :
    Completes (.finalLook rc k f) s (fun t => t = { s with dev := s.dev.lookWith s.fuse k f (Dev.lookFinal x 0) } ∧
      (f = { cells := [], late := [] } → t.dev = s.dev.lookFinal x 0 ∧ t.dev.openSet? rc k = none)) := by
  refine completes_onDev (f := Dev.finalLookDue s.fuse rc k f) rfl ?_
  have hlook : s.dev.finalLookDue s.fuse rc k f = s.dev.lookWith s.fuse k f (Dev.lookFinal x 0) := by
    simp [Dev.finalLookDue, hx, hrun, hlooked, hdue]
  rw [hlook]
  refine ⟨rfl, fun hf => ?_⟩
  obtain ⟨hrc, hk⟩ := Dev.openSet?_key hx
  have hnone := s.dev.openSet?_lookFinal x 0
  rw [hrc, hk] at hnone
  have hplain := Dev.lookWith_of_no_faults hf s.fuse k (Dev.lookFinal x 0) s.dev
  exact ⟨hplain, hplain.symm ▸ hnone⟩

theorem finalLook_waits (hnot : x.done = false ∨ s.dev.raw < x.final) : Completes (.finalLook rc k f) s (fun t => t = s) := by
  refine completes_onDev (f := Dev.finalLookDue s.fuse rc k f) rfl ?_
  have hstays : s.dev.finalLookDue s.fuse rc k f = s.dev := by
    rcases hnot with h | h <;> simp [Dev.finalLookDue, hx, h]
  rw [hstays]

end

/-- Settles O29, clause by clause (R124, R140, R141, Table 3.8). -/
theorem streamsAndLooks : Obligations.StreamsAndLooks :=
  ⟨streamStale_completes, fun _ _ _ _ _ hx => ⟨firstLook_looks hx, firstLook_waits hx, finalLook_looks hx, finalLook_waits hx⟩⟩

/-! ### The commands of a commit (R117 to R120, R122) -/

theorem completes_stmCommit {h : CmdHdr} {p : CommitArgs} {s : State} {P : State → Prop} (ha : s.dev.Admits h 0x20 [] true legalCRD)
    (hP : P { s with dev := s.dev.stmFetch h p }) : Completes (.stmCommit h p) s P :=
  completes_cmd (body := Dev.stmFetch h p) rfl ha hP

theorem completes_stmCancel {h : CmdHdr} {s : State} {P : State → Prop} (ha : s.dev.Admits h 0x21 [] true legalCRD)
    (hP : P { s with dev := s.dev.stmCancel1 h }) : Completes (.stmCancel h) s P := completes_cmd (body := Dev.stmCancel1 h) rfl ha hP

theorem completes_stmReload {h : CmdHdr} {s : State} {P : State → Prop} (ha : s.dev.Admits h 0x22 [] true legalCRD)
    (hP : P { s with dev := s.dev.stmReload1 h }) : Completes (.stmReload h) s P := completes_cmd (body := Dev.stmReload1 h) rfl ha hP

/-- Whether the fields of an `STM_COMMIT` are bad as it is fetched (R119). -/
def badCommit (p : CommitArgs) (d : Dev) : Bool :=
  decide (1 < p.mode) || (p.mode == 1 && d.op != .config && d.badInstant d.earliest (commitInstant p))

theorem badCommit_eq_false {p : CommitArgs} {d : Dev} (hmode : p.mode ≤ 1)
    (hinst : p.mode = 1 → d.op = .config ∨ d.badInstant d.earliest (commitInstant p) = false) : badCommit p d = false := by
  by_cases h1 : p.mode = 1
  · rcases hinst h1 with h | h <;> simp [badCommit, h1, h]
  · simp [badCommit, h1, hmode]

theorem badCommit_eq_true {p : CommitArgs} {d : Dev}
    (hbad : 1 < p.mode ∨ (p.mode = 1 ∧ d.op ≠ .config ∧ d.badInstant d.earliest (commitInstant p) = true)) : badCommit p d = true := by
  simpa [badCommit, and_assoc] using hbad

theorem Dev.stmFetch_of_bad {p : CommitArgs} {d : Dev} (hbad : badCommit p d = true) (h : CmdHdr) :
    d.stmFetch h p = d.complete h 0x20 2 (failWords 0xFFFF 15) := if_pos hbad

theorem Dev.stmFetch_of_pending {p : CommitArgs} {d : Dev} (hok : badCommit p d = false) (hpend : d.stm.pend.isSome = true) (h : CmdHdr) :
    d.stmFetch h p = d.refuse h 0x20 6 1 0xFFFF [] :=
  (if_neg (Bool.eq_false_iff.1 hok)).trans (if_pos hpend)

/-- A commit is fetched with a snapshot of the staged tables, and validated next (R118). -/
theorem Dev.stmFetch_takes {p : CommitArgs} {d : Dev} (hok : badCommit p d = false) (hpend : d.stm.pend = none) (h : CmdHdr) :
    d.stmFetch h p = Dev.setReg Reg.STM_STATUS 3 { d with stm := { d.stm with
      pend := some { hdr := h, args := p, snap := viewWords d.stg, validating := true, inst := 0, homes := [] } } } :=
  (if_neg (Bool.eq_false_iff.1 hok)).trans (if_neg (by simp [hpend]))

theorem stmCommit_takes (h : CmdHdr) (p : CommitArgs) (s : State) (ha : s.dev.Admits h 0x20 [] true legalCRD)
    (hok : badCommit p s.dev = false) (hpend : s.dev.stm.pend = none) : Completes (.stmCommit h p) s (fun t => s.MainOnly t ∧
      t.dev.stm = { s.dev.stm with pend := some { hdr := h, args := p, snap := viewWords s.dev.stg, validating := true, inst := 0,
                                                  homes := [] } } ∧
      t.dev.reg Reg.STM_STATUS = 3 ∧ (∀ off, off ≠ Reg.STM_STATUS → t.dev.reg off = s.dev.reg off) ∧
      t.dev = { s.dev with regs := t.dev.regs, stm := t.dev.stm }) := by
  refine completes_stmCommit ha ?_
  rw [Dev.stmFetch_takes hok hpend]
  exact ⟨s.mainOnly_dev _, rfl, (Dev.reg_setReg ..).trans (if_pos rfl), fun off ho => Dev.reg_setReg_ne ho _ _, rfl⟩

/-- The pending commit and the `STM_CANCEL` that withdraws it both complete (R120). -/
theorem Dev.stmCancel1_of_pending {p : PendCommit} {d : Dev} (hpend : d.stm.pend = some p) (h : CmdHdr) :
    d.stmCancel1 h = (d.stmUnpend.complete p.hdr 0x20 7 []).complete h 0x21 0 [] := by
  simp [Dev.stmCancel1, Dev.stmWithdraw, hpend]

theorem Dev.stmCancel1_of_idle {d : Dev} (hpend : d.stm.pend = none) (h : CmdHdr) : d.stmCancel1 h = d.refuse h 0x21 6 1 0xFFFF [] := by
  simp [Dev.stmCancel1, hpend]

/-- A commit that ends leaves nothing pending, and `STM_STATUS` reads 0. -/
theorem Dev.keeps_stmUnpend (d : Dev) :
    Dev.Keeps (fun off => off == Reg.STM_STATUS) { d with stm := { d.stm with pend := none } } d.stmUnpend :=
  Dev.keeps_setReg _ _ _ (Or.inl rfl)

theorem Dev.reg_stmUnpend (d : Dev) : d.stmUnpend.reg Reg.STM_STATUS = 0 := (Dev.reg_setReg ..).trans (if_pos rfl)

/-- What a device keeps of one that has no commit pending any more, when it has reported besides. -/
theorem Dev.Keeps.of_unpend {d e : Dev} (he : Dev.Keeps noReg d.stmUnpend e) : e.stm = { d.stm with pend := none } ∧
    e.reg Reg.STM_STATUS = 0 ∧ Dev.Keeps (fun off => off == Reg.STM_STATUS) { d with stm := e.stm } e := by
  have hstm : e.stm = { d.stm with pend := none } := he.stm_eq
  refine ⟨hstm, (he.2 _ rfl (by decide)).trans d.reg_stmUnpend, ?_⟩
  rw [hstm]
  exact d.keeps_stmUnpend.trans (he.mono fun _ _ => rfl)

theorem stmCancel_withdraws (h : CmdHdr) (p : PendCommit) (s : State) (ha : s.dev.Admits h 0x21 [] true legalCRD)
    (hpend : s.dev.stm.pend = some p) : Completes (.stmCancel h) s (fun t => s.MainOnly t ∧
      t.dev.stm = { s.dev.stm with pend := none } ∧ t.dev.reg Reg.STM_STATUS = 0 ∧
      Dev.Keeps (fun off => off == Reg.STM_STATUS) { s.dev with stm := t.dev.stm } t.dev) := by
  refine completes_stmCancel ha ?_
  rw [Dev.stmCancel1_of_pending hpend]
  exact ⟨s.mainOnly_dev _, ((Dev.keeps_complete ..).trans (Dev.keeps_complete ..)).of_unpend⟩

theorem Dev.stmReload1_of_idle {d : Dev} (hpend : d.stm.pend = none) (h : CmdHdr) :
    d.stmReload1 h = ({ d with stg := copyWords (cfgWord viewTables) d.act d.stg } : Dev).complete h 0x22 0 [] := by
  simp [Dev.stmReload1, hpend]

theorem stmReload_copies (h : CmdHdr) (s : State) (ha : s.dev.Admits h 0x22 [] true legalCRD) (hpend : s.dev.stm.pend = none) :
    Completes (.stmReload h) s (fun t => s.MainOnly t ∧ t.dev.stg = copyWords (cfgWord viewTables) s.dev.act s.dev.stg ∧
      Dev.Keeps noReg { s.dev with stg := t.dev.stg } t.dev) := by
  refine completes_stmReload ha ?_
  rw [Dev.stmReload1_of_idle hpend]
  refine ⟨s.mainOnly_dev _, Dev.complete_stg .., ?_⟩
  rw [Dev.complete_stg]
  exact Dev.keeps_complete ..

/-! ### Validation and the commit instant (R25, R118, R119) -/

theorem exec_stmValidationEnd (s : State) : exec .stmValidationEnd s = s.onFlg (fun d => match d.stm.pend with
    | some p => if p.validating && legalCRD.contains d.op then d.stmValidated s.fuse p else d
    | none => d) := rfl

theorem exec_stmCommitApply (s : State) : exec .stmCommitApply s = s.onFlg (fun d => match d.stm.pend with
    | some p => if !p.validating && decide (p.inst ≤ d.tick) && legalCRD.contains d.op then d.stmApply s.fuse p p.inst else d
    | none => d) := rfl

/-- The end of the validation under way: main domain and hop counter may change (`completes_onFlg`). -/
theorem completes_stmValidationEnd {p : PendCommit} {s : State} {d : Dev} {P : State → Prop} (hpend : s.dev.stm.pend = some p)
    (hval : p.validating = true) (hop : legalCRD.contains s.dev.op = true) (hd : s.dev.stmValidated s.fuse p = d)
    (h : ∀ n, P { s with dev := d, nv := { s.nv with hopCtr := n } }) : Completes .stmValidationEnd s P :=
  completes_onFlg (exec_stmValidationEnd s) (by simp only [hpend, hval, hop, Bool.and_self, if_true, hd]) (fun n _ => h n)

theorem Dev.stmValidated_of_failed {fz : Fuse} {p : PendCommit} {obj reason : Nat} {d : Dev} (h : d.validate fz p.snap = some (obj, reason)) :
    d.stmValidated fz p = d.stmUnpend.complete p.hdr 0x20 2 (failWords obj reason) := by
  simp only [Dev.stmValidated, h]

theorem Dev.stmValidated_in_config {fz : Fuse} {p : PendCommit} {d : Dev} (h : d.validate fz p.snap = none) (hop : d.op = .config) :
    d.stmValidated fz p =
      d.stmApply fz { p with validating := false, inst := d.tick, homes := (d.homingFor fz p.snap false).homes } d.tick := by
  simp only [Dev.stmValidated, h, hop, if_true]

/-- A commit whose snapshot passes while the data plane runs waits for its instant, which shows (R119). -/
theorem Dev.stmValidated_waits {fz : Fuse} {p : PendCommit} {d : Dev} (h : d.validate fz p.snap = none) (hop : d.op ≠ .config)
    (hinst : d.badInstant d.earliest (if p.args.mode = 1 then commitInstant p.args else d.earliest) = false) :
    d.stmValidated fz p =
      Dev.putInstant Reg.STM_PEND_SEC_LO (if p.args.mode = 1 then commitInstant p.args else d.earliest)
        (Dev.setReg Reg.STM_STATUS 1 { d with stm := { d.stm with pend := some { p with
          validating := false, inst := if p.args.mode = 1 then commitInstant p.args else d.earliest
          homes := (d.homingFor fz p.snap false).homes } } }) := by
  simp only [Dev.stmValidated, h, if_neg hop, hinst, Bool.false_eq_true, if_false]
  rfl

theorem running_ne_config {o : OpState} (h : o.running = true) : legalCRD.contains o = true ∧ o ≠ .config := by
  cases o <;> simp_all [OpState.running, legalCRD]

theorem Dev.reg_putInstant {off lo : Nat} (h : off < lo) (inst : Int) (d : Dev) : (d.putInstant lo inst).reg off = d.reg off := by
  simp only [Dev.putInstant]
  rw [Dev.reg_setReg_ne (by omega), Dev.reg_setReg_ne (by omega), Dev.reg_setReg_ne (by omega)]

theorem Dev.reg_putInstant_lo (lo : Nat) (inst : Int) (d : Dev) : (d.putInstant lo inst).reg lo = lo32 (inst / 1000000000).toNat := by
  simp only [Dev.putInstant]
  rw [Dev.reg_setReg_ne (by omega), Dev.reg_setReg_ne (by omega), Dev.reg_setReg, if_pos rfl]

theorem stmValidationEnd_fails (p : PendCommit) (obj reason : Nat) (s : State) (hpend : s.dev.stm.pend = some p) (hval : p.validating = true)
    (hop : legalCRD.contains s.dev.op = true) (hfail : s.dev.validate s.fuse p.snap = some (obj, reason)) :
    Completes .stmValidationEnd s (fun t => t.dev = s.dev.stmUnpend.complete p.hdr 0x20 2 (failWords obj reason) ∧
      t.dev.stm = { s.dev.stm with pend := none } ∧ t.dev.act = s.dev.act ∧ t.dev.reg Reg.STM_STATUS = 0 ∧ t.bd = s.bd ∧
      Dev.Keeps (fun off => off == Reg.STM_STATUS) { s.dev with stm := t.dev.stm } t.dev) := by
  refine completes_stmValidationEnd hpend hval hop (Dev.stmValidated_of_failed hfail) fun n => ?_
  obtain ⟨hstm, hstatus, hkeeps⟩ := (Dev.keeps_complete p.hdr 0x20 2 (failWords obj reason) s.dev.stmUnpend).of_unpend
  exact ⟨rfl, hstm, hkeeps.act_eq, hstatus, rfl, hkeeps⟩

theorem stmValidationEnd_waits (p : PendCommit) (inst : Int) (s : State) (hpend : s.dev.stm.pend = some p) (hval : p.validating = true)
    (hrun : s.dev.op.running = true) (hpass : s.dev.validate s.fuse p.snap = none)
    (hinst : inst = (if p.args.mode = 1 then commitInstant p.args else s.dev.earliest)) (hgood : s.dev.badInstant s.dev.earliest inst = false) :
    Completes .stmValidationEnd s (fun t =>
      t.dev.stm = { s.dev.stm with pend := some { p with validating := false, inst := inst, homes := (s.dev.homingFor s.fuse p.snap false).homes } } ∧
      t.dev.reg Reg.STM_STATUS = 1 ∧ t.dev.reg Reg.STM_PEND_SEC_LO = lo32 (inst / 1000000000).toNat ∧ t.bd = s.bd ∧
      t.dev = { s.dev with regs := t.dev.regs, stm := t.dev.stm }) := by
  subst hinst
  obtain ⟨hop, hconfig⟩ := running_ne_config hrun
  refine completes_stmValidationEnd hpend hval hop (Dev.stmValidated_waits hpass hconfig hgood) fun n => ?_
  refine ⟨rfl, ?_, Dev.reg_putInstant_lo .., rfl, rfl⟩
  exact (Dev.reg_putInstant (by decide) ..).trans ((Dev.reg_setReg ..).trans (if_pos rfl))

theorem stmValidationEnd_applies (p : PendCommit) (s : State) (hpend : s.dev.stm.pend = some p) (hval : p.validating = true)
    (hop : s.dev.op = .config) (hpass : s.dev.validate s.fuse p.snap = none) : Completes .stmValidationEnd s (fun t => t.bd = s.bd ∧
      t.dev = s.dev.stmApply s.fuse { p with validating := false, inst := s.dev.tick, homes := (s.dev.homingFor s.fuse p.snap false).homes }
        s.dev.tick) := by
  refine completes_stmValidationEnd hpend hval (by rw [hop]; decide) (Dev.stmValidated_in_config hpass hop) fun n => ⟨rfl, ?_⟩
  with_reducible rfl

theorem stmCommitApply_applies (p : PendCommit) (s : State) (hpend : s.dev.stm.pend = some p) (hval : p.validating = false)
    (hop : legalCRD.contains s.dev.op = true) (hdue : p.inst ≤ s.dev.tick) :
    Completes .stmCommitApply s (fun t => t.bd = s.bd ∧ t.dev = s.dev.stmApply s.fuse p p.inst) := by
  refine completes_onFlg (exec_stmCommitApply s) (d := s.dev.stmApply s.fuse p p.inst) ?_ fun n _ => ⟨rfl, ?_⟩
  · simp only [hpend, hval, hdue, hop, Bool.not_false, decide_true, Bool.and_self, if_true]
  · with_reducible rfl

theorem stmCommitApply_waits (p : PendCommit) (s : State) (hpend : s.dev.stm.pend = some p) (hearly : s.dev.tick < p.inst) :
    Completes .stmCommitApply s (fun t => t.dev = s.dev) := by
  refine completes_onFlg (exec_stmCommitApply s) (d := s.dev) ?_ fun n _ => rfl
  simp only [hpend, decide_eq_false (not_le.2 hearly), Bool.and_false, Bool.false_and, Bool.false_eq_true, if_false]

/-- Settles O30, clause by clause (R25, R117 to R120, R122). -/
theorem streamCommits : Obligations.StreamCommits := by
  refine ⟨⟨fun h p s ha hmode hinst => ⟨stmCommit_takes h p s ha (badCommit_eq_false hmode hinst), fun hpend => ?again⟩, ?bad,
    stmCancel_withdraws, ?idle, fun h s ha => ⟨stmReload_copies h s ha, fun hpend => ?busy⟩⟩, stmValidationEnd_fails,
    stmValidationEnd_waits, stmValidationEnd_applies, stmCommitApply_applies, stmCommitApply_waits⟩
  case again =>
    refine completes_stmCommit ha ?_
    rw [Dev.stmFetch_of_pending (badCommit_eq_false hmode hinst) hpend]
    exact ⟨rfl, Dev.keeps_refuse ..⟩
  case bad =>
    intro h p s ha hbad
    refine completes_stmCommit ha ?_
    rw [Dev.stmFetch_of_bad (badCommit_eq_true hbad)]
    exact ⟨rfl, Dev.keeps_complete ..⟩
  case idle =>
    intro h s ha hpend
    refine completes_stmCancel ha ?_
    rw [Dev.stmCancel1_of_idle hpend]
    exact ⟨rfl, Dev.keeps_refuse ..⟩
  case busy =>
    refine completes_stmReload ha ?_
    rw [show s.dev.stmReload1 h = s.dev.refuse h 0x22 6 1 0xFFFF [] from if_pos hpend]
    exact ⟨rfl, Dev.keeps_refuse ..⟩

/-! ### Versions of a stream entry (R121) -/

theorem get?_nextVersions_of_changed {prev : KMap PrevVer} {old : SMap} {changed : List Nat} {inst : Int} {i : Nat} (hi : i ∈ changed) :
    KMap.get? (nextVersions prev old changed inst) i = some { inst := inst
                                                              words := if eValid (entryIn old i) then some (entryIn old i) else none
                                                              pool := poolIn old (entryIn old i), gone := false } :=
  (KMap.get?_foldl_put _ changed _ i).trans (if_pos hi)

/-- With no commit pending, an entry with a previous version is that version before its instant and the active one from then on. -/
theorem Dev.entryAt_of_previous {i : Nat} {v : PrevVer} {d : Dev} (hpend : d.stm.pend = none) (hv : KMap.get? d.stm.prev i = some v)
    (t : Int) : d.entryAt i t = if t < v.inst then v.words.getD [] else d.entry i := by
  simp only [Dev.entryAt, hpend, hv]

/-- Settles O31: a changed entry keeps the version it had, for the times before the instant (R121). -/
theorem earlierTimesSeeTheOldEntry : Obligations.EarlierTimesSeeTheOldEntry := by
  intro prev old changed inst i d hpend hprev hi t
  have hat := d.entryAt_of_previous hpend (hprev ▸ get?_nextVersions_of_changed hi) t
  refine ⟨fun ht => ?before, fun ht => hat.trans (if_neg (not_lt.2 ht))⟩
  case before =>
    rw [hat, if_pos ht, apply_ite (fun w : Option (List Word) => w.getD [])]
    rfl

end Sys2Proof.Machine

/-! # Alignment (chapter 4): the failure of a tile, frames and cells, the sentinel's checks

First what a tile's failure takes from it and what re-homing leaves; then the rows of Table 4.2 for a frame, and the checks. -/

namespace Sys2Proof.Machine

/-! ### Tiles and cells -/

theorem Dev.tile_setTile (n : Nat) (x : TileS) (d : Dev) : (d.setTile n x).tile n = x := by
  rw [Dev.tile, Dev.setTile, KMap.get?_put, if_pos rfl]
  rfl

@[simp] theorem Dev.reg_setTile (n : Nat) (x : TileS) (off : Nat) (d : Dev) : (d.setTile n x).reg off = d.reg off := rfl

theorem Dev.tile_congr {d e : Dev} (h : e.eas.tiles = d.eas.tiles) (n : Nat) : e.tile n = d.tile n := by
  rw [Dev.tile, Dev.tile, h]

/-- A tile is in service when the part has it and it has not failed. -/
theorem Dev.tileOk_eq_true {n : Nat} {fz : Fuse} {d : Dev} : d.tileOk n fz = true ↔ n < fz.part.tiles ∧ (d.tile n).cause = 0 := by
  rw [Dev.tileOk, Bool.and_eq_true, decide_eq_true_eq, beq_iff_eq, Dev.tile]

theorem Dev.tileOk_congr {d e : Dev} (h : e.eas.tiles = d.eas.tiles) (n : Nat) (fz : Fuse) : e.tileOk n fz = d.tileOk n fz := by
  rw [Dev.tileOk, Dev.tileOk, h]

theorem Dev.tileOk_of_failed {n : Nat} {d : Dev} (h : (d.tile n).cause ≠ 0) (fz : Fuse) : d.tileOk n fz = false :=
  Bool.eq_false_iff.2 fun hok => h (Dev.tileOk_eq_true.1 hok).2

/-- The cell stored last for a stream and slot. -/
theorem Dev.cell_setCell (i : Nat) (c : Cell) (d : Dev) : (d.setCell i c).cell i c.k = some c := by
  simp [Dev.cell, Dev.setCell, KMap.get?_put]

theorem Dev.cell_setCell_ne {i j k : Nat} {c : Cell} (h : cellKey j k ≠ cellKey i c.k) (d : Dev) :
    (d.setCell i c).cell j k = d.cell j k := by
  rw [Dev.cell, Dev.setCell, KMap.get?_put, if_neg h]
  rfl

theorem Dev.cell_congr {d e : Dev} (h : e.eas.cells = d.eas.cells) (i k : Nat) : e.cell i k = d.cell i k := by
  rw [Dev.cell, Dev.cell, h]

/-! ### The failure of a tile (R152, R153) -/

/-- What the loss of a tile's data and the re-homing of its streams leave: the tiles, the operating state and the failed units. -/
structure Dev.SameUnits (d e : Dev) : Prop where
  tiles : e.eas.tiles = d.eas.tiles
  op : e.op = d.op
  deg : e.deg = d.deg

theorem Dev.SameUnits.refl (d : Dev) : d.SameUnits d := ⟨rfl, rfl, rfl⟩

theorem Dev.SameUnits.trans {a b c : Dev} (h : a.SameUnits b) (k : b.SameUnits c) : a.SameUnits c :=
  ⟨k.tiles.trans h.tiles, k.op.trans h.op, k.deg.trans h.deg⟩

theorem Dev.Keeps.sameUnits {own : Nat → Bool} {d e : Dev} (h : Dev.Keeps own d e) : d.SameUnits e :=
  ⟨congrArg EasS.tiles h.eas_eq, h.op_eq, h.deg_eq⟩

/-- Reporting leaves the units as well. -/
theorem Dev.Keeps.sameUnits_of {own : Nat → Bool} {a b c : Dev} (k : Dev.Keeps own b c) (h : a.SameUnits b) : a.SameUnits c :=
  h.trans k.sameUnits

theorem Dev.SameUnits.foldl {α : Type} {f : Dev → α → Dev} (hf : ∀ (e : Dev) (x : α), e.SameUnits (f e x)) (l : List α)
    (d : Dev) : d.SameUnits (l.foldl f d) := by
  induction l generalizing d with
  | nil => exact Dev.SameUnits.refl d
  | cons x l ih => exact (hf d x).trans (ih _)

theorem Dev.sameUnits_setCell (i : Nat) (c : Cell) (d : Dev) : d.SameUnits (d.setCell i c) := ⟨rfl, rfl, rfl⟩

theorem Dev.sameUnits_faultCell (x : SetS) (i : Nat) (d : Dev) : d.SameUnits (d.faultCell x i) := by
  unfold Dev.faultCell
  split
  case h_1 => exact Dev.sameUnits_setCell ..
  case h_2 c _ =>
    split_ifs
    · exact Dev.sameUnits_setCell ..
    · exact Dev.sameUnits_setCell ..
    · exact Dev.sameUnits_setCell ..
    · exact Dev.SameUnits.refl d

theorem Dev.keeps_streamChanged (i : Nat) (d : Dev) : Dev.Keeps (fun _ => true) d (d.streamChanged i) :=
  Dev.keeps_raise _ _ _ (Or.inl rfl)

/-- A stream's state is kept in the active tables; a change of it reports. -/
theorem Dev.keeps_setStreamState (i st : Nat) (d : Dev) :
    Dev.Keeps (fun _ => true) { d with act := (d.setStreamState i st).act } (d.setStreamState i st) := by
  unfold Dev.setStreamState
  split
  · exact Dev.Keeps.refl ..
  · rw [(Dev.keeps_streamChanged ..).act_eq]
    exact Dev.keeps_streamChanged ..

theorem mem_of_mem_sortBy {α : Type} {le : α → α → Bool} {x : α} {l : List α} (h : x ∈ sortBy le l) : x ∈ l := by
  induction l with
  | nil => exact h
  | cons a l ih => exact List.mem_cons.2 (((mem_insertBy ..).1 h).imp_right ih)

/-- A stream is placed on one of the tiles offered. -/
theorem mem_of_autoTile {deg spill : Bool} {ent : Nat → List Word} {homes : KMap Nat} {tiles : List Nat} {i t : Nat}
    (h : autoTile deg spill ent homes tiles i = some t) : t ∈ tiles := by
  obtain ⟨p, hp, rfl⟩ := List.mem_map.1 (List.mem_of_find?_eq_some h)
  obtain ⟨n, hn, rfl⟩ := List.mem_map.1 (mem_of_mem_sortBy hp)
  exact hn

/-- A stream of a failed tile goes to a tile in service, or has no home. -/
theorem Dev.rehomeOne_spec (fz : Fuse) (i : Nat) (stop : Bool) (d : Dev) : d.SameUnits (d.rehomeOne fz i stop).2 ∧
    ((∃ t, d.tileOk t fz = true ∧ (d.rehomeOne fz i stop).2.eas.homes = KMap.put d.eas.homes i t) ∨
      (d.rehomeOne fz i stop).2.eas.homes = KMap.del d.eas.homes i) := by
  unfold Dev.rehomeOne
  split
  case h_1 t ht =>
    have hmem : t ∈ d.tilesOk fz := by
      cases stop
      · exact mem_of_autoTile ht
      · exact nomatch ht
    dsimp only
    exact ⟨(Dev.keeps_streamChanged ..).sameUnits_of ⟨rfl, rfl, rfl⟩,
      Or.inl ⟨t, (List.mem_filter.1 hmem).2, congrArg EasS.homes (Dev.keeps_streamChanged ..).eas_eq⟩⟩
  case h_2 =>
    exact ⟨(Dev.keeps_setStreamState ..).sameUnits_of ⟨rfl, rfl, rfl⟩,
      Or.inr (congrArg EasS.homes (Dev.keeps_setStreamState ..).eas_eq)⟩

theorem Dev.sameUnits_rehomeAll (fz : Fuse) (is : List Nat) (a b : Nat) (d : Dev) : d.SameUnits (d.rehomeAll fz is a b).2 := by
  induction is generalizing a b d with
  | nil => exact Dev.SameUnits.refl d
  | cons i is ih =>
    have hone := (d.rehomeOne_spec fz i (decide (0 < b))).1
    rw [Dev.rehomeAll]
    dsimp only
    split_ifs
    · exact hone.trans (ih ..)
    · exact hone.trans (ih ..)

/-- No stream has the tile as its home. -/
def Dev.HomesNothing (tile : Nat) (d : Dev) : Prop := ∀ p ∈ d.eas.homes, p.2 ≠ tile

theorem Dev.HomesNothing.rehomeOne {fz : Fuse} {tile : Nat} {d : Dev} (hd : d.HomesNothing tile) (hfailed : d.tileOk tile fz = false)
    (i : Nat) (stop : Bool) : (d.rehomeOne fz i stop).2.HomesNothing tile := by
  intro p hp
  obtain ⟨-, ⟨t, ht, hput⟩ | hdel⟩ := d.rehomeOne_spec fz i stop
  · rcases KMap.mem_put _ _ _ _ (hput ▸ hp) with rfl | hold
    · rintro rfl
      exact absurd (ht.symm.trans hfailed) (by decide)
    · exact hd p hold
  · exact hd p (KMap.mem_del _ _ _ (hdel ▸ hp))

theorem Dev.HomesNothing.rehomeAll {fz : Fuse} {tile : Nat} (is : List Nat) (a b : Nat) {d : Dev} (hd : d.HomesNothing tile)
    (hfailed : d.tileOk tile fz = false) : (d.rehomeAll fz is a b).2.HomesNothing tile := by
  induction is generalizing a b d with
  | nil => exact hd
  | cons i is ih =>
    have hone := hd.rehomeOne hfailed i (decide (0 < b))
    have hstill : (d.rehomeOne fz i (decide (0 < b))).2.tileOk tile fz = false :=
      (Dev.tileOk_congr (d.rehomeOne_spec fz i (decide (0 < b))).1.tiles ..).trans hfailed
    rw [Dev.rehomeAll]
    dsimp only
    split_ifs
    · exact ih _ _ hone hstill
    · exact ih _ _ hone hstill

theorem Dev.keeps_stateChanged (d : Dev) : Dev.Keeps (fun _ => true) d d.stateChanged :=
  (Dev.keeps_raise _ _ _ (Or.inl rfl)).trans (Dev.keeps_doorbell ..)

/-- A change of operating state reports, beside the state and its reason. -/
theorem Dev.keeps_setOp (new : OpState) (reason order : Nat) (d : Dev) :
    Dev.Keeps (fun _ => true) { d with op := new, reason := reason } (d.setOp new reason order) :=
  ((Dev.keeps_setField _ _ _ _ _ (Or.inl rfl)).trans (Dev.keeps_stateChanged _)).trans (Dev.keeps_post ..)

/-- A unit that fails shows in `DEG_UNITS`, and RUN becomes DEGRADED (Table 1.8). -/
theorem Dev.unitFailed_spec (bit : Nat) (d : Dev) : (d.unitFailed bit).eas = d.eas ∧ (d.unitFailed bit).deg.testBit bit = true ∧
    (d.unitFailed bit).op = if d.op = .run then .degraded else d.op := by
  obtain ⟨e, heas, hdeg, hop, he⟩ : ∃ e : Dev, e.eas = d.eas ∧ e.deg.testBit bit = true ∧ e.op = d.op ∧
      d.unitFailed bit = if e.op = .run then e.setOp .degraded 0 4 else e := by
    by_cases hbit : d.deg.testBit bit = true
    · exact ⟨d, rfl, hbit, rfl, by simp only [Dev.unitFailed, if_pos hbit]⟩
    · have hk := Dev.keeps_stateChanged { d with deg := d.deg ||| 2 ^ bit }
      exact ⟨_, hk.eas_eq, by simp [hk.deg_eq, Nat.testBit_or, Nat.testBit_two_pow_self], hk.op_eq,
        by simp only [Dev.unitFailed, if_neg hbit]⟩
  rw [he, ← hop]
  split
  case isTrue =>
    have hk := Dev.keeps_setOp .degraded 0 4 e
    exact ⟨hk.eas_eq.trans heas, hk.deg_eq ▸ hdeg, hk.op_eq⟩
  case isFalse => exact ⟨heas, hdeg, rfl⟩

/-- The record and the notice of a fault (R156), once `r` says how many streams were placed and how many became UNHOMED. -/
def Dev.reportFault (tile cause : Nat) (r : (Nat × Nat) × Dev) : Dev :=
  let d := r.2.post 0x0010 [BitVec.ofNat 32 (tile + cause * 256), BitVec.ofNat 32 (r.1.1 + r.1.2 * 65536), lo32 r.2.raw, hi32 r.2.raw]
  if cause = 5 then d
  else d.notice 0xE0 [BitVec.ofNat 32 (tile + cause * 256 + r.1.1 * 65536), BitVec.ofNat 32 r.1.2, lo32 d.raw, hi32 d.raw]

theorem Dev.keeps_reportFault (tile cause : Nat) (r : (Nat × Nat) × Dev) : Dev.Keeps noReg r.2 (Dev.reportFault tile cause r) := by
  unfold Dev.reportFault
  dsimp only
  split
  · exact Dev.keeps_post ..
  · exact (Dev.keeps_post ..).trans (Dev.keeps_notice ..)

/-- The device `e` after a tile in service has lost its queue, its cells and the streams it was the home of: the unit fails next, the
streams `is` are re-homed, and the fault is reported. -/
theorem Dev.tileFault_of_ok {fz : Fuse} {tile : Nat} {d : Dev} (hok : d.tileOk tile fz = true) (cause : Nat) :
    ∃ (e : Dev) (is : List Nat), (d.setTile tile { d.tile tile with cause := cause, inq := [] }).SameUnits e ∧
      e.HomesNothing tile ∧
      d.tileFault fz tile cause = Dev.reportFault tile cause
        (((if cause = 5 then e else e.raise Reg.EAS_FAULT_EVT tile).unitFailed 0).rehomeAll fz is 0 0) := by
  refine ⟨_, _, ?units, ?homes, (if_neg (by rw [hok]; decide)).trans rfl⟩
  case units =>
    refine Dev.SameUnits.trans ?queue (Dev.SameUnits.trans (b := List.foldl _ _ _) (Dev.SameUnits.foldl ?cells _ _) ⟨rfl, rfl, rfl⟩)
    case queue => exact ⟨rfl, rfl, rfl⟩
    case cells => exact fun e x => Dev.SameUnits.foldl (fun e i => Dev.sameUnits_faultCell x i e) _ e
  case homes =>
    intro p hp
    simpa using (List.mem_filter.1 hp).2

/-- The device `u` whose streams are re-homed after a tile's fault: the tile is out of service, the unit shows as failed. -/
theorem Dev.tileFault_rehomes {fz : Fuse} {tile : Nat} {d : Dev} (hok : d.tileOk tile fz = true) (cause : Nat) :
    ∃ (u : Dev) (is : List Nat), u.tile tile = { d.tile tile with cause := cause, inq := [] } ∧ u.HomesNothing tile ∧
      u.deg.testBit 0 = true ∧ u.op = (if d.op = .run then .degraded else d.op) ∧
      d.tileFault fz tile cause = Dev.reportFault tile cause (u.rehomeAll fz is 0 0) := by
  obtain ⟨e, is, hlost, hempty, hfault⟩ := Dev.tileFault_of_ok hok cause
  have hraise : Dev.Keeps (fun _ => true) e (if cause = 5 then e else e.raise Reg.EAS_FAULT_EVT tile) := by
    split
    · exact Dev.Keeps.refl ..
    · exact Dev.keeps_raise _ _ _ (Or.inl rfl)
  obtain ⟨heas, hdeg, hop⟩ := Dev.unitFailed_spec 0 (if cause = 5 then e else e.raise Reg.EAS_FAULT_EVT tile)
  rw [hraise.eas_eq] at heas
  rw [hraise.op_eq, hlost.op] at hop
  have htiles := (congrArg EasS.tiles heas).trans hlost.tiles
  exact ⟨_, is, (Dev.tile_congr htiles tile).trans (Dev.tile_setTile ..), fun p hp => hempty p (heas ▸ hp), hdeg, hop, hfault⟩

/-- Settles O34 (R152, R153, Table 1.8): the tile is out of service and homes nothing before its streams are re-homed, and re-homing
places them on tiles in service only. -/
theorem aFailedTileHomesNothing : Obligations.AFailedTileHomesNothing := by
  intro fz tile cause d hcause hok
  obtain ⟨u, is, htile, hempty, hdeg, hop, hfault⟩ := Dev.tileFault_rehomes hok cause
  have hfailed : u.tileOk tile fz = false := Dev.tileOk_of_failed (by rwa [htile]) fz
  have hhomes : (u.rehomeAll fz is 0 0).2.HomesNothing tile := hempty.rehomeAll is 0 0 hfailed
  have hsame : u.SameUnits (Dev.reportFault tile cause (u.rehomeAll fz is 0 0)) :=
    (Dev.keeps_reportFault ..).sameUnits_of (u.sameUnits_rehomeAll fz is 0 0)
  rw [hfault]
  refine ⟨(Dev.tileOk_congr hsame.tiles ..).trans hfailed, ?queue, ?homes, hsame.deg ▸ hdeg, hsame.op.trans hop⟩
  case queue => rw [Dev.tile_congr hsame.tiles, htile]
  case homes =>
    rw [(Dev.keeps_reportFault ..).eas_eq]
    exact List.all_eq_true.2 fun p hp => bne_iff_ne.2 (hhomes p hp)

/-! ### A frame at the head of a tile's queue (R132 to R134, Table 4.2) -/

/-- A tile's queue without the frame at its head. -/
def Dev.dequeue (tile : Nat) (rest : List TileFrame) (d : Dev) : Dev := d.setTile tile { d.tile tile with inq := rest }

/-- The stream entry that holds at a frame's time. -/
def Dev.frameEntry (f : TileFrame) (d : Dev) : List Word := d.entryAt f.idx ((f.num * 1000000000 / f.den : Nat) : Int)

/-- The slot of a frame at the rate of its stream (R132). -/
def Dev.frameSlot (f : TileFrame) (d : Dev) : Nat := slotOf (rateOf (eRate (d.frameEntry f))) f.num f.den

/-- A frame lies further from its slot time than `EAS_CTRL` allows (R132). -/
def Dev.frameOff (f : TileFrame) (d : Dev) : Bool :=
  offGrid (rateOf (eRate (d.frameEntry f))) f.num f.den (zeroActs 1 (d.fld Reg.EAS_CTRL 8 8))

/-- The cell that a frame fills, before first look or after it. -/
def TileFrame.fill (f : TileFrame) (k : Nat) (late : Bool) : Cell :=
  { k := k, st := if late then 2 else 1, num := f.num, den := f.den, stat := f.stat, mtq := f.mtq, arrNs := f.arrNs, arrRaw := f.arrRaw,
    pay := some f.pay, rev := f.rev, merged := false, ue := false, spUe := false, first := none }

/-- A frame is counted, and one that comes after first look is counted as late. -/
def Dev.countFrame (tile : Nat) (late : Bool) (d : Dev) : Dev :=
  if late then (d.wrapAdd (Reg.EAS_RX tile) 1).bump (Reg.EAS_LATE tile) 1 else d.wrapAdd (Reg.EAS_RX tile) 1

section
variable {tile : Nat} {f : TileFrame} {d : Dev}

theorem Dev.placeFrame_off (hoff : d.frameOff f = true) : d.placeFrame tile f = (none, d.bump (Reg.EAS_OFFGRID tile) 1) := if_pos hoff

variable (hoff : d.frameOff f = false)
include hoff

theorem Dev.placeFrame_of_unopened (hset : d.openSet? (eRate (d.frameEntry f)) (d.frameSlot f) = none)
    (hhigh : ∀ j, KMap.get? d.eas.highest (eRate (d.frameEntry f)) = some j → j < d.frameSlot f) :
    d.placeFrame tile f = (none, d.bump (Reg.EAS_EARLY tile) 1) := by
  unfold Dev.frameOff Dev.frameSlot Dev.frameEntry at *
  simp only [Dev.placeFrame, hoff, hset, Bool.false_eq_true, if_false]
  split
  case h_1 j hj => simp only [hhigh j hj, decide_true, if_true]
  case h_2 => rw [if_pos rfl]

theorem Dev.placeFrame_of_closed {j : Nat} (hset : d.openSet? (eRate (d.frameEntry f)) (d.frameSlot f) = none)
    (hhigh : KMap.get? d.eas.highest (eRate (d.frameEntry f)) = some j) (hj : d.frameSlot f ≤ j) :
    d.placeFrame tile f = (none, d.bump (Reg.EAS_TOOLATE tile) 1) := by
  unfold Dev.frameOff Dev.frameSlot Dev.frameEntry at *
  simp only [Dev.placeFrame, hoff, hset, hhigh, not_lt.2 hj, decide_false, Bool.false_eq_true, if_false]

variable {x : SetS} (hset : d.openSet? (eRate (d.frameEntry f)) (d.frameSlot f) = some x)
include hset

theorem Dev.placeFrame_of_not_member (hmem : d.isMember f.idx (eRate (d.frameEntry f)) (d.frameSlot f) = false) :
    d.placeFrame tile f = (none, d.bump (Reg.EAS_TOOLATE tile) 1) := by
  unfold Dev.frameOff Dev.frameSlot Dev.frameEntry at *
  simp only [Dev.placeFrame, hoff, hset, hmem, Bool.false_eq_true, if_false, Bool.not_false, if_true]

variable (hmem : d.isMember f.idx (eRate (d.frameEntry f)) (d.frameSlot f) = true)
include hmem

theorem Dev.placeFrame_of_rehomed {c : Cell} (hcell : d.cell f.idx (d.frameSlot f) = some c) (hst : c.st = 3 ∨ c.st = 4) :
    d.placeFrame tile f = (none, d.bump Reg.EAS_REHOME_DROP 1) := by
  unfold Dev.frameOff Dev.frameSlot Dev.frameEntry at *
  simp only [Dev.placeFrame, hoff, hset, hmem, hcell, hst, Option.getD_some, Bool.false_eq_true, if_false, Bool.not_true, if_true]

theorem Dev.placeFrame_of_duplicate {c : Cell} (hcell : d.cell f.idx (d.frameSlot f) = some c) (hst : c.st < 3)
    (hpay : c.pay.isSome = true) (hkind : eKind (d.frameEntry f) ≠ 3) : d.placeFrame tile f = (none, d.streamDup f.idx) := by
  unfold Dev.frameOff Dev.frameSlot Dev.frameEntry at *
  have hlost : ¬ (c.st = 3 ∨ c.st = 4) := by omega
  simp only [Dev.placeFrame, hoff, hset, hmem, hcell, hlost, hpay, hkind, Option.getD_some, decide_false, Bool.false_and,
    Bool.false_eq_true, if_false, Bool.not_true, if_true]

/-- A frame that finds its cell empty fills it. -/
theorem Dev.placeFrame_of_empty (hcell : d.cell f.idx (d.frameSlot f) = none) : d.placeFrame tile f =
    (if x.done then none else some (eRate (d.frameEntry f), d.frameSlot f),
      Dev.placedLatency tile f.arrRaw (Dev.countFrame tile x.done (d.setCell f.idx (f.fill (d.frameSlot f) x.done)))) := by
  unfold Dev.frameOff Dev.frameSlot Dev.frameEntry at *
  simp only [Dev.placeFrame, hoff, hset, hmem, hcell, Option.getD_none, Cell.blank, Option.isSome_none, Bool.false_eq_true, if_false,
    Bool.not_true, show ¬ (0 = 3 ∨ 0 = 4) by decide]
  rfl

end

theorem exec_tilePlaceFrame (tile : Nat) (ecc : Option CellEcc) (s : State) : exec (.tilePlaceFrame tile ecc) s =
    s.onDev (fun d => d.withReads s.fuse (d.headRead tile ecc) (Dev.tileTake tile)) := rfl

/-- A frame that is not placed before first look leaves the queue, and no input has changed. -/
theorem Dev.tileTake_of_dropped {tile : Nat} {f : TileFrame} {rest : List TileFrame} {d e : Dev} (hq : (d.tile tile).inq = f :: rest)
    (hrun : d.op.running = true) (hok : (d.tile tile).cause = 0) (he : (d.dequeue tile rest).placeFrame tile f = (none, e)) :
    d.tileTake tile = e := by
  have hserves : (!d.op.running || (d.tile tile).cause != 0) = false := by rw [hrun, hok]; rfl
  unfold Dev.tileTake
  extract_lets x
  split
  case h_1 h => exact absurd (h.symm.trans hq) (by simp)
  case h_2 g tail h =>
    obtain ⟨rfl, rfl⟩ := List.cons.inj (h.symm.trans hq)
    rw [if_neg (Bool.eq_false_iff.1 hserves)]
    split
    next hit d' hp =>
      obtain ⟨rfl, rfl⟩ := Prod.mk.inj (hp.symm.trans he)
      rfl

theorem Dev.withReads_nil (fz : Fuse) (g : Dev → Dev) (d : Dev) : d.withReads fz [] g = g d := rfl

section
variable {tile : Nat} {f : TileFrame} {rest : List TileFrame} {s : State} (hq : (s.dev.tile tile).inq = f :: rest)
  (hrun : s.dev.op.running = true) (hok : (s.dev.tile tile).cause = 0)
include hq hrun hok

/-- A frame that is not placed before first look, in a cell without an error. -/
theorem tilePlaceFrame_drops {e : Dev} (he : (s.dev.dequeue tile rest).placeFrame tile f = (none, e)) :
    Completes (.tilePlaceFrame tile none) s (fun t => t = { s with dev := e }) := by
  refine completes_onDev (exec_tilePlaceFrame tile none s) ?_
  have hread : s.dev.headRead tile none = [] := by simp only [Dev.headRead, hq]
  rw [hread, Dev.withReads_nil, Dev.tileTake_of_dropped hq hrun hok he]

/-- An error in the cell that the frame finds is met before the frame is placed (R139). -/
theorem tilePlaceFrame_reads (ecc : CellEcc) : Completes (.tilePlaceFrame tile (some ecc)) s (fun t => t = { s with
    dev := s.dev.withReads s.fuse [(s.dev.frameSlot f, { stream := f.idx, ecc := ecc })] (Dev.tileTake tile) }) := by
  refine completes_onDev (exec_tilePlaceFrame tile (some ecc) s) ?_
  have hread : s.dev.headRead tile (some ecc) = [(s.dev.frameSlot f, { stream := f.idx, ecc := ecc })] := by
    simp only [Dev.headRead, hq, hrun, hok, beq_self_eq_true, Bool.and_self, if_true]
    rfl
  rw [hread]

end

/-! #### A frame that fills its cell -/

theorem Dev.countFrame_regs (tile : Nat) (late : Bool) (d : Dev) : ∃ r, d.countFrame tile late = { d with regs := r } := by
  cases late <;> exact ⟨_, rfl⟩

theorem Dev.placedLatency_regs (tile arr : Nat) (d : Dev) : ∃ r, d.placedLatency tile arr = { d with regs := r } := by
  unfold Dev.placedLatency
  dsimp only
  split <;> exact ⟨_, rfl⟩

/-- Registers of one tile at different places of its block. -/
theorem tileReg_ne {a b : Nat} (h : a ≠ b) (n : Nat) : a + 0x800 * n ≠ b + 0x800 * n := fun he => h (Nat.add_right_cancel he)

theorem Dev.reg_placedLatency {tile off : Nat} (hmax : off ≠ Reg.EAS_LAT_MAX tile) (hover : off ≠ Reg.EAS_LAT_OVER tile) (arr : Nat)
    (d : Dev) : (d.placedLatency tile arr).reg off = d.reg off := by
  have hkeep : (d.keepMax (Reg.EAS_LAT_MAX tile) (d.raw - arr) 65535).reg off = d.reg off := Dev.reg_setReg_ne hmax ..
  unfold Dev.placedLatency
  dsimp only
  split
  · rw [Dev.reg_bump, if_neg hover, hkeep]
  · exact hkeep

theorem Dev.reg_countFrame_rx (tile : Nat) (late : Bool) (d : Dev) :
    (d.countFrame tile late).reg (Reg.EAS_RX tile) = d.reg (Reg.EAS_RX tile) + 1 := by
  have hrx : (d.wrapAdd (Reg.EAS_RX tile) 1).reg (Reg.EAS_RX tile) = d.reg (Reg.EAS_RX tile) + 1 := (Dev.reg_wrapAdd ..).trans (if_pos rfl)
  cases late
  · exact hrx
  · exact ((Dev.reg_bump ..).trans (if_neg (tileReg_ne (by decide) tile))).trans hrx

theorem Dev.reg_countFrame_late (tile : Nat) (late : Bool) (d : Dev) : (d.countFrame tile late).reg (Reg.EAS_LATE tile) =
    if late then (d.reg (Reg.EAS_LATE tile)).satAdd 1 else d.reg (Reg.EAS_LATE tile) := by
  have hrx : (d.wrapAdd (Reg.EAS_RX tile) 1).reg (Reg.EAS_LATE tile) = d.reg (Reg.EAS_LATE tile) :=
    (Dev.reg_wrapAdd ..).trans (if_neg (tileReg_ne (by decide) tile))
  cases late
  · exact hrx
  · exact ((Dev.reg_bump ..).trans (if_pos rfl)).trans (congrArg (Word.satAdd · 1) hrx)

/-- What a frame leaves that has filled cell `c` of its stream and is counted. -/
theorem Dev.filled_spec (tile i arr : Nat) (late : Bool) (c : Cell) (d : Dev) :
    let e := Dev.placedLatency tile arr (Dev.countFrame tile late (d.setCell i c))
    e.cell i c.k = some c ∧ (∀ j k, cellKey j k ≠ cellKey i c.k → e.cell j k = d.cell j k) ∧
      e.reg (Reg.EAS_RX tile) = d.reg (Reg.EAS_RX tile) + 1 ∧
      e.reg (Reg.EAS_LATE tile) = (if late then (d.reg (Reg.EAS_LATE tile)).satAdd 1 else d.reg (Reg.EAS_LATE tile)) ∧
      e = { d with regs := e.regs, eas := { d.eas with cells := e.eas.cells } } := by
  intro e
  obtain ⟨r, hr⟩ : ∃ r, e = { d.setCell i c with regs := r } := by
    obtain ⟨r₁, hcount⟩ := Dev.countFrame_regs tile late (d.setCell i c)
    obtain ⟨r₂, hplaced⟩ := Dev.placedLatency_regs tile arr (Dev.countFrame tile late (d.setCell i c))
    exact ⟨r₂, hplaced.trans (by rw [hcount])⟩
  have hcells : e.eas.cells = (d.setCell i c).eas.cells := by rw [hr]
  refine ⟨(Dev.cell_congr hcells ..).trans (Dev.cell_setCell ..),
    fun j k hne => (Dev.cell_congr hcells ..).trans (Dev.cell_setCell_ne hne d), ?rx, ?late, by rw [hr]; rfl⟩
  case rx => exact (Dev.reg_placedLatency (tileReg_ne (by decide) tile) (tileReg_ne (by decide) tile) ..).trans (Dev.reg_countFrame_rx ..)
  case late =>
    exact (Dev.reg_placedLatency (tileReg_ne (by decide) tile) (tileReg_ne (by decide) tile) ..).trans (Dev.reg_countFrame_late ..)

/-- Settles O32, row by row of Table 4.2 (R132 to R135, R139). -/
theorem framesAndCells : Obligations.FramesAndCells := by
  refine ⟨fun tile f rest s hq hrun hok => ?rows, fun tile f x d => ?fill⟩
  case rows =>
    intro d e k off
    have drops {e : Dev} (he : d.placeFrame tile f = (none, e)) := tilePlaceFrame_drops hq hrun hok he
    exact ⟨fun hoff => drops (Dev.placeFrame_off hoff),
      fun hoff hset hhigh => drops (Dev.placeFrame_of_unopened hoff hset hhigh),
      fun j hoff hset hhigh hj => drops (Dev.placeFrame_of_closed hoff hset hhigh hj),
      fun x hoff hset hmem => drops (Dev.placeFrame_of_not_member hoff hset hmem),
      fun x c hoff hset hmem hcell => ⟨fun hst => drops (Dev.placeFrame_of_rehomed hoff hset hmem hcell hst),
        fun hst hpay hkind => drops (Dev.placeFrame_of_duplicate hoff hset hmem hcell hst hpay hkind)⟩,
      tilePlaceFrame_reads hq hrun hok⟩
  case fill =>
    intro e k htile hoff hset hmem hcell
    dsimp only
    rw [Dev.placeFrame_of_empty hoff hset hmem hcell]
    exact ⟨rfl, Dev.filled_spec tile f.idx f.arrRaw x.done (f.fill k x.done) d⟩

/-! ### The sentinel's checks and `EAS_FAIL` (R139, R152, R159, Table 4.7) -/

theorem Dev.tilesWatched_of {d : Dev} (h : d.op.running = true ∨ d.op = .config) : d.tilesWatched = true := by
  simpa [Dev.tilesWatched] using h

section
variable {fz : Fuse} {tile : Nat} {d : Dev} (hok : d.tileOk tile fz = true)
include hok

/-- The sentinel's check of a tile in service, while tiles are looked after. -/
theorem Dev.sentinel_checks (hwatch : d.tilesWatched = true) (pass : Bool) : d.sentinel fz tile pass =
    if pass then d.setTile tile { d.tile tile with kat := 0 }
    else if (d.tile tile).kat = 0 then d.setTile tile { d.tile tile with kat := 1 }
    else d.failTile fz tile 3 := if_neg (by rw [hwatch, hok]; decide)

theorem Dev.tileFound_clean : d.tileFound fz tile .clean = d := if_neg (by rw [hok]; decide)

theorem Dev.tileFound_corrected : d.tileFound fz tile .corrected = d.bump (Reg.EAS_SRAM_CE tile) 1 := if_neg (by rw [hok]; decide)

/-- An uncorrectable error outside any cell that is held. -/
theorem Dev.tileFound_uncorrectable : d.tileFound fz tile (.uncorrectable none) = d.noteUe fz tile := if_neg (by rw [hok]; decide)

end

theorem exec_tileSentinelCheck (tile : Nat) (pass : Bool) (find : TileFind) (s : State) : exec (.tileSentinelCheck tile pass find) s =
    s.onDev (fun d => (if d.tilesWatched then d.tileFound s.fuse tile find else d).sentinel s.fuse tile pass) := rfl

theorem completes_tileSentinelCheck {tile : Nat} {pass : Bool} {find : TileFind} {s : State} {P : State → Prop}
    (hwatch : s.dev.tilesWatched = true) (h : P { s with dev := (s.dev.tileFound s.fuse tile find).sentinel s.fuse tile pass }) :
    Completes (.tileSentinelCheck tile pass find) s P :=
  completes_onDev (exec_tileSentinelCheck tile pass find s) (by simpa only [hwatch, if_true] using h)

theorem completes_easFail {h : CmdHdr} {tile : Nat} {s : State} {P : State → Prop} (ha : s.dev.Admits h 0x28 [] true legalCRD)
    (hP : P { s with dev := s.dev.easFailCmd s.fuse h tile }) : Completes (.easFail h tile) s P :=
  completes_cmd (body := Dev.easFailCmd s.fuse h tile) rfl ha hP

section
variable {fz : Fuse} {tile : Nat} {d : Dev} (h : CmdHdr)

theorem Dev.easFailCmd_of_absent (hpart : fz.part.tiles ≤ tile) : d.easFailCmd fz h tile = d.complete h 0x28 2 [] := if_pos hpart

theorem Dev.easFailCmd_of_out_of_service (hpart : tile < fz.part.tiles) (hok : d.tileOk tile fz = false) :
    d.easFailCmd fz h tile = d.refuse h 0x28 6 1 0xFFFF [] :=
  (if_neg (not_le.2 hpart)).trans (if_pos (by rw [hok]; rfl))

theorem Dev.easFailCmd_of_ok (hok : d.tileOk tile fz = true) :
    d.easFailCmd fz h tile = (d.failTile fz tile 4).complete h 0x28 0 [] :=
  (if_neg (not_le.2 (Dev.tileOk_eq_true.1 hok).1)).trans (if_neg (by rw [hok]; decide))

end

/-- An error that the check corrects is counted in the tile's `EAS_SRAM_CE` (R139). -/
theorem Dev.reg_sentinel_of_corrected {fz : Fuse} {tile : Nat} {d : Dev} (hok : d.tileOk tile fz = true) (hwatch : d.tilesWatched = true) :
    ((d.tileFound fz tile .corrected).sentinel fz tile true).reg (Reg.EAS_SRAM_CE tile) = (d.reg (Reg.EAS_SRAM_CE tile)).satAdd 1 := by
  have hok' : (d.bump (Reg.EAS_SRAM_CE tile) 1).tileOk tile fz = true := hok
  have hwatch' : (d.bump (Reg.EAS_SRAM_CE tile) 1).tilesWatched = true := hwatch
  rw [Dev.tileFound_corrected hok, Dev.sentinel_checks hok' hwatch', if_pos rfl, Dev.reg_setTile, Dev.reg_bump, if_pos rfl]

/-- Settles O33, clause by clause (R139, R152, R159, Table 4.7). -/
theorem tileChecks : Obligations.TileChecks := by
  refine ⟨fun tile s hop hok => ?checks, fun h tile s ha => ?fail⟩
  case checks =>
    have hwatch := Dev.tilesWatched_of hop
    refine ⟨?pass, fun hfirst => ?first, fun hsecond => ?second, ?corrected, ?uncorrectable⟩
    all_goals refine completes_tileSentinelCheck hwatch ?_
    case pass => rw [Dev.tileFound_clean hok, Dev.sentinel_checks hok hwatch, if_pos rfl]
    case first => rw [Dev.tileFound_clean hok, Dev.sentinel_checks hok hwatch, if_neg Bool.false_ne_true, if_pos hfirst]
    case second => rw [Dev.tileFound_clean hok, Dev.sentinel_checks hok hwatch, if_neg Bool.false_ne_true, if_neg hsecond]
    case corrected => exact Dev.reg_sentinel_of_corrected hok hwatch
    case uncorrectable => rw [Dev.tileFound_uncorrectable hok]
  case fail =>
    refine ⟨fun hpart => ?absent, fun hpart hout => ?refused, fun hok => ?failed⟩
    all_goals refine completes_easFail ha ?_
    case absent =>
      rw [Dev.easFailCmd_of_absent h hpart]
      exact ⟨rfl, Dev.keeps_complete ..⟩
    case refused =>
      rw [Dev.easFailCmd_of_out_of_service h hpart hout]
      exact ⟨rfl, Dev.keeps_refuse ..⟩
    case failed => rw [Dev.easFailCmd_of_ok h hok]

end Sys2Proof.Machine

/-! # The Phasor chain (chapter 5): the engine's rounds, estimates, detectors and lanes, and `PHX_RESYNC`

First what storing a channel's state and a reset of both classes do; then each event of the engine, and the command. -/

namespace Sys2Proof.Machine

/-! ### Channels -/

theorem Dev.phxCh_setPhx (b c : Nat) (x : PhxCh) (d : Dev) : (d.setPhx c x).phxCh b = if b = c then x else d.phxCh b := by
  rw [Dev.phxCh, KMap.getD, Dev.setPhx, KMap.get?_put, apply_ite (fun w : Option PhxCh => w.getD PhxCh.new)]
  rfl

theorem Dev.phxCh_congr {d e : Dev} (h : e.phx = d.phx) (c : Nat) : e.phxCh c = d.phxCh c := by
  rw [Dev.phxCh, Dev.phxCh, h]

/-! ### Rounds (R165) -/

/-- A channel with its latest delivered sample taken. -/
def PhxCh.takeHead (x : PhxCh) : PhxCh :=
  match x.hist.head? with
  | none => x
  | some s => { x with taken := s.n }

theorem PhxCh.takeHead_takeHead (x : PhxCh) : x.takeHead.takeHead = x.takeHead := by
  unfold PhxCh.takeHead
  cases hx : x.hist.head? <;> simp [hx]

theorem PhxCh.taken_takeHead {x : PhxCh} {y : Sample} (hy : x.hist.head? = some y) : x.takeHead.taken = y.n := by
  simp only [PhxCh.takeHead, hy]

/-- A round takes one channel's delivered samples. -/
def Dev.takeSamples (d : Dev) (c : Nat) : Dev :=
  match (d.phxCh c).hist.head? with
  | none => d
  | some s => d.setPhx c { d.phxCh c with taken := s.n }

theorem Dev.phxCh_takeSamples (b c : Nat) (d : Dev) :
    (d.takeSamples c).phxCh b = if b = c then (d.phxCh c).takeHead else d.phxCh b := by
  unfold Dev.takeSamples PhxCh.takeHead
  split
  · split
    case isTrue hb => rw [hb]
    case isFalse => rfl
  · exact Dev.phxCh_setPhx ..

/-- Every channel named takes its latest sample; taking it again changes nothing. -/
theorem Dev.phxCh_foldl_takeSamples (b : Nat) (cs : List Nat) (d : Dev) :
    (cs.foldl Dev.takeSamples d).phxCh b = if b ∈ cs then (d.phxCh b).takeHead else d.phxCh b := by
  induction cs generalizing d with
  | nil => rfl
  | cons c cs ih =>
    rw [List.foldl_cons, ih, Dev.phxCh_takeSamples]
    by_cases hb : b = c
    · subst hb
      simp [PhxCh.takeHead_takeHead]
    · simp [hb]

/-- Taking samples touches the channels' own states only. -/
theorem Dev.takeSamples_chans (c : Nat) (d : Dev) : ∃ m, d.takeSamples c = { d with phx := { d.phx with chans := m } } := by
  unfold Dev.takeSamples
  split
  · exact ⟨d.phx.chans, rfl⟩
  · exact ⟨_, rfl⟩

theorem Dev.foldl_takeSamples_chans (cs : List Nat) (d : Dev) :
    ∃ m, cs.foldl Dev.takeSamples d = { d with phx := { d.phx with chans := m } } := by
  induction cs generalizing d with
  | nil => exact ⟨d.phx.chans, rfl⟩
  | cons c cs ih =>
    obtain ⟨m₁, hhead⟩ := d.takeSamples_chans c
    obtain ⟨m₂, hrest⟩ := ih (d.takeSamples c)
    exact ⟨m₂, by rw [List.foldl_cons, hrest, hhead]⟩

/-- The start of the round that is under way at the raw count. -/
def Dev.roundBegun (d : Dev) : Nat := d.phx.round + (d.raw - d.phx.round) / d.roundNs * d.roundNs

/-- A round that begins on a part with placement to the sample: its start is kept and the samples are taken. -/
theorem Dev.phxRoundStep_of_due {fz : Fuse} {d : Dev} (halarm : d.op.alarm = true) (hdue : d.phx.round + d.roundNs ≤ d.raw)
    (hpart : fz.part.trigSample = true) : d.phxRoundStep fz =
      (chansIn d.act).foldl Dev.takeSamples { d with phx := { d.phx with round := d.roundBegun } } := by
  have hbegins : ¬ (!d.op.alarm || decide (d.raw < d.phx.round + d.roundNs)) = true := by simp [halarm, hdue]
  exact (if_neg hbegins).trans (if_pos (by rw [hpart]; rfl))

theorem phxRound_takes (s : State) (halarm : s.dev.op.alarm = true) (hdue : s.dev.phx.round + s.dev.roundNs ≤ s.dev.raw) :
    Completes .phxRound s (fun t => s.MainOnly t ∧ t.dev = s.dev.phxRoundStep s.fuse ∧
      (s.fuse.part.trigSample = true → t.dev = { s.dev with phx := t.dev.phx } ∧ t.dev.phx.round = s.dev.roundBegun ∧
        ∀ c x, c ∈ chansIn s.dev.act → (s.dev.phxCh c).hist.head? = some x → (t.dev.phxCh c).taken = x.n)) := by
  refine ⟨_, rfl, s.mainOnly_dev _, rfl, fun hpart => ?_⟩
  dsimp only
  rw [Dev.phxRoundStep_of_due halarm hdue hpart]
  refine ⟨?others, ?round, fun c x hc hx => ?taken⟩
  case taken =>
    rw [Dev.phxCh_foldl_takeSamples, if_pos hc]
    exact PhxCh.taken_takeHead hx
  all_goals
    obtain ⟨m, hm⟩ := Dev.foldl_takeSamples_chans (chansIn s.dev.act) { s.dev with phx := { s.dev.phx with round := s.dev.roundBegun } }
    rw [hm]

/-! ### Estimates and missing samples (R163, R171) -/

theorem completes_phxEstimate {ch cls : Nat} {s : State} {P : State → Prop} (halarm : s.dev.op.alarm = true)
    (hch : chEn s.dev.act ch = true) (hcls : cls < 2) (h : P { s with dev := s.dev.phxEstimateStep ch cls }) :
    Completes (.phxEstimate ch cls) s P :=
  completes_if (p := (s.dev.op.alarm && chEn s.dev.act ch && decide (cls < 2)) = true) rfl (by simp [halarm, hch, hcls]) h

/-- An M-class estimate that can be formed, while no output is made: the class moves to its next grid point. -/
theorem Dev.phxEstimateStep_m_of_idle {ch : Nat} {t : Int} {d : Dev} (ht : t = (gridNs (d.phxCh ch).nextM * 65536 : Nat))
    (hrun : d.op.running = false) (hdue : t + winTime 1 (d.phxCh ch).ft / 2 + rsDelay (d.phxCh ch).rate ≤ d.t16)
    (hforms : d.noInput ch = true ∨ d.phxShed ch 1 = true ∨ (d.phxCh ch).settles 1 t = true ∨ (d.phxCh ch).complete 1 t = true) :
    d.phxEstimateStep ch 1 = d.setPhx ch { d.phxCh ch with nextM := (d.phxCh ch).nextM + 1 } := by
  have hready : ¬ (!(d.noInput ch || d.phxShed ch 1 || (d.phxCh ch).settles 1 t) && !(d.phxCh ch).complete 1 t) = true := by
    rcases hforms with h | h | h | h <;> simp [h]
  have hidle (x : PhxCh) : ¬ (d.setPhx ch x).op.running = true := Bool.eq_false_iff.1 hrun
  subst ht
  exact (if_neg (not_or.2 ⟨not_lt.2 hdue, hready⟩)).trans ((if_neg Nat.one_ne_zero).trans (if_neg (hidle _)))

/-- A sample that the next P-class output needs and that is overdue by 1 ms counts as lost. -/
theorem Dev.sampleTimeout_of_overdue {ch need : Nat} {last : Int} {d : Dev}
    (hlast : last = (gridNs (d.phxCh ch).nextP * 65536 : Nat) + winTime 0 (d.phxCh ch).ft / 2 + rsDelay (d.phxCh ch).rate)
    (hdue : last + 65536000000 ≤ d.t16) (hneed : need = (last * ((d.phxCh ch).rate : Int) / 65536000000000).toNat)
    (hmissing : (match (d.phxCh ch).hist.head? with | some y => y.n | none => 0) < need) :
    d.sampleTimeout ch = d.setPhx ch { d.phxCh ch with lost := max (d.phxCh ch).lost need } := by
  subst hneed hlast
  exact if_neg (not_or.2 ⟨not_lt.2 hdue, not_le.2 hmissing⟩)

theorem completes_sampleMissingTimeout {ch : Nat} {s : State} {P : State → Prop} (halarm : s.dev.op.alarm = true)
    (hch : chEn s.dev.act ch = true) (h : P { s with dev := s.dev.sampleTimeout ch }) : Completes (.sampleMissingTimeout ch) s P :=
  completes_if (p := (s.dev.op.alarm && chEn s.dev.act ch) = true) rfl (by rw [halarm, hch]; rfl) h

/-! ### Detectors (R180 to R184) -/

theorem completes_detectorSample {ch : Nat} {s : State} {P : State → Prop} (halarm : s.dev.op.alarm = true)
    (hch : chEn s.dev.act ch = true) (haj : chAj s.dev.act ch = true) (h : P { s with dev := s.dev.detectorStep ch }) :
    Completes (.detectorSample ch) s P :=
  completes_if (p := (s.dev.op.alarm && chEn s.dev.act ch && chAj s.dev.act ch) = true) rfl (by rw [halarm, hch, haj]; rfl) h

/-- The detector core takes the oldest valid sample that it has not evaluated. -/
theorem Dev.detectorStep_of_next {ch : Nat} {x : Sample} {d : Dev}
    (hx : (d.phxCh ch).hist.reverse.find? (fun y => decide ((d.phxCh ch).detN ≤ y.n) && !y.filled) = some x) :
    d.detectorStep ch = if x.clip then d.setPhx ch { d.phxCh ch with detN := x.n + 1 }
      else (d.setPhx ch { d.phxCh ch with detN := x.n + 1 }).ajEvaluate ch x := by
  simp only [Dev.detectorStep, hx]

theorem completes_detHoldEnd {ch det : Nat} {s : State} {P : State → Prop} (hdet : det < 2)
    (h : P { s with dev := s.dev.detRelease ch det }) : Completes (.detHoldEnd ch det) s P :=
  completes_if (p := det < 2) rfl hdet h

theorem Dev.detRelease_angle {ch u : Nat} {d : Dev} (htill : (d.phxCh ch).aj.till = some u) (hdue : u ≤ d.raw) : d.detRelease ch 0 =
    (d.setPhx ch { d.phxCh ch with aj := { (d.phxCh ch).aj with till := none, val := 0 } }).localChange := by
  simp only [Dev.detRelease, htill, hdue, if_true]

theorem Dev.detRelease_rocof {ch u : Nat} {d : Dev} (htill : (d.phxCh ch).rf.till = some u) (hdue : u ≤ d.raw) : d.detRelease ch 1 =
    (d.setPhx ch { d.phxCh ch with rf := { (d.phxCh ch).rf with till := none, val := 0 } }).localChange := by
  simp only [Dev.detRelease, htill, hdue, Nat.one_ne_zero, if_true, if_false]

/-! ### Checks of the lanes (R166) -/

theorem completes_phxLaneCheck {lane : Nat} {pass : Bool} {s : State} {P : State → Prop} (hlane : lane < 8)
    (hlive : s.dev.phx.failed.contains lane = false) (hop : s.dev.op.running = true ∨ s.dev.op = .config)
    (h : P { s with dev := s.dev.laneCheck lane pass }) : Completes (.phxLaneCheck lane pass) s P := by
  have hchecks : (s.dev.op.running || s.dev.op == .config) = true := by simpa using hop
  exact completes_if (p := (decide (lane < 8) && !s.dev.phx.failed.contains lane && (s.dev.op.running || s.dev.op == .config)) = true) rfl
    (by rw [hchecks, hlive, decide_eq_true hlane]; rfl) h

section
variable {lane : Nat} {d : Dev}

theorem Dev.laneCheck_passed : d.laneCheck lane true = { d with phx := { d.phx with kat := KMap.del d.phx.kat lane } } := rfl

theorem Dev.laneCheck_first (h : KMap.getD d.phx.kat lane 0 = 0) :
    d.laneCheck lane false = { d with phx := { d.phx with kat := KMap.put d.phx.kat lane 1 } } := by
  simp [Dev.laneCheck, h]

theorem Dev.laneCheck_second (h : 1 ≤ KMap.getD d.phx.kat lane 0) : d.laneCheck lane false = d.laneFault lane := by
  have hsecond : ¬ KMap.getD d.phx.kat lane 0 + 1 < 2 := by omega
  simp only [Dev.laneCheck, hsecond, Bool.false_eq_true, if_false]

end

/-! ### Resets and `PHX_RESYNC` (R177 to R179, R187) -/

/-- A channel of which both classes are reset at `t`; `nom` is its f_nom. -/
def PhxCh.reset (x : PhxCh) (nom : Nat) (t : Int) : PhxCh :=
  { x.gridFrom t (rho nom t) x.ft with
    trP := t, endP := t + winTime 0 x.ft + rsDelay x.rate, trM := t, endM := t + winTime 1 x.ft + rsDelay x.rate,
    resets := (x.resets + 1) % 65536, lastUs := BitVec.ofInt 32 (t / 65536000), rfRun := 0, off := 0, aj := DetS.new, rf := DetS.new }

/-- A reset at a new instant of a channel of which no detector is held. -/
theorem Dev.phxReset_both {c : Nat} {t : Int} {d : Dev} (haj : (d.phxCh c).aj.till = none) (hrf : (d.phxCh c).rf.till = none)
    (hnew : (d.phxCh c).trP ≠ t) :
    d.phxReset c true true t = (d.setPhx c ((d.phxCh c).reset (chNom d.act c) t)).wrapAdd Reg.PHX_RESETS 1 := by
  have hacts : ¬ ((!true || (d.phxCh c).trP == t) && (!true || (d.phxCh c).trM == t)) = true := by simp [hnew]
  exact (if_neg hacts).trans (if_neg (by rw [haj, hrf]; decide))

theorem completes_phxResync {h : CmdHdr} {ch : Nat} {s : State} {P : State → Prop} (ha : s.dev.Admits h 0x30 [] true legalCRD)
    (hP : P { s with dev := s.dev.resync1 s.fuse h ch }) : Completes (.phxResync h ch) s P :=
  completes_cmd (body := Dev.resync1 s.fuse h ch) rfl ha hP

theorem Dev.resyncArg_all (fz : Fuse) (d : Dev) : d.resyncArg fz 0xFFFF = true := rfl

theorem Dev.resyncArg_of_used {fz : Fuse} {ch : Nat} {d : Dev} (hpart : ch < fz.part.channels) (hen : chEn d.act ch = true) :
    d.resyncArg fz ch = true := by
  simp [Dev.resyncArg, hpart, hen]

theorem Part.channels_le (p : Part) : p.channels ≤ 512 := by cases p <;> decide

section
variable {fz : Fuse} {ch : Nat} {d : Dev} (h : CmdHdr)

theorem Dev.resync1_of_bad (harg : d.resyncArg fz ch = false) : d.resync1 fz h ch = d.complete h 0x30 2 [] :=
  if_neg (Bool.eq_false_iff.1 harg)

theorem Dev.resync1_all : d.resync1 fz h 0xFFFF =
    ((chansIn d.act).foldl (fun d c => d.phxReset c true true d.t16) d).complete h 0x30 0 [] := if_pos (d.resyncArg_all fz)

theorem Dev.resync1_one (hpart : ch < fz.part.channels) (hen : chEn d.act ch = true) :
    d.resync1 fz h ch = (d.phxReset ch true true d.t16).complete h 0x30 0 [] := by
  have hone : ch ≠ 0xFFFF := by
    have := fz.part.channels_le
    omega
  rw [Dev.resync1, if_pos (Dev.resyncArg_of_used hpart hen), Dev.resyncChans, if_neg hone, List.foldl_cons, List.foldl_nil]

end

/-- A reset of one channel that is reported: its state is the reset one, the reset is counted, and the other channels keep theirs. -/
theorem phxResync_resets (h : CmdHdr) (ch : Nat) (s : State) (ha : s.dev.Admits h 0x30 [] true legalCRD)
    (hpart : ch < s.fuse.part.channels) (hen : chEn s.dev.act ch = true) (haj : (s.dev.phxCh ch).aj.till = none)
    (hrf : (s.dev.phxCh ch).rf.till = none) (hnew : (s.dev.phxCh ch).trP ≠ s.dev.t16) :
    Completes (.phxResync h ch) s (fun t => s.MainOnly t ∧
      t.dev.phxCh ch = (s.dev.phxCh ch).reset (chNom s.dev.act ch) s.dev.t16 ∧ (∀ c, c ≠ ch → t.dev.phxCh c = s.dev.phxCh c) ∧
      t.dev.reg Reg.PHX_RESETS = s.dev.reg Reg.PHX_RESETS + 1 ∧
      Dev.Keeps (fun off => off == Reg.PHX_RESETS) { s.dev with phx := t.dev.phx } t.dev) := by
  refine completes_phxResync ha ?_
  rw [Dev.resync1_one h hpart hen, Dev.phxReset_both haj hrf hnew]
  set d := s.dev.setPhx ch ((s.dev.phxCh ch).reset (chNom s.dev.act ch) s.dev.t16)
  have hdone : Dev.Keeps noReg (d.wrapAdd Reg.PHX_RESETS 1) ((d.wrapAdd Reg.PHX_RESETS 1).complete h 0x30 0 []) := Dev.keeps_complete ..
  have hch (c : Nat) := (Dev.phxCh_congr hdone.phx_eq c).trans (Dev.phxCh_setPhx c ch _ s.dev)
  refine ⟨s.mainOnly_dev _, (hch ch).trans (if_pos rfl), fun c hc => (hch c).trans (if_neg hc), ?count, ?keeps⟩
  case count => exact (hdone.2 _ rfl (by decide)).trans ((Dev.reg_wrapAdd ..).trans (if_pos rfl))
  case keeps =>
    dsimp only
    rw [hdone.phx_eq]
    exact (Dev.keeps_wrapAdd _ _ d (Or.inl rfl)).trans (hdone.mono fun _ _ => rfl)

/-- Settles O35, event by event of the engine and case by case of `PHX_RESYNC`. -/
theorem phasors : Obligations.Phasors := by
  refine ⟨⟨phxRound_takes, ?idle, ?estimate, ?sample, ?hold, ?missing, ?lane⟩, ?bad, ?one, ?all⟩
  case idle =>
    intro ch s halarm hrun hch x at_ hdue hforms
    refine completes_phxEstimate halarm hch one_lt_two ?_
    rw [Dev.phxEstimateStep_m_of_idle rfl hrun hdue hforms]
  case estimate => exact fun ch cls s halarm hch hcls => completes_phxEstimate halarm hch hcls rfl
  case sample =>
    intro ch x s halarm hch haj hx d
    refine completes_detectorSample halarm hch haj ?_
    rw [Dev.detectorStep_of_next hx]
  case hold =>
    refine fun ch u s => ⟨fun htill hdue => ?angle, fun htill hdue => ?rocof⟩
    case angle => exact completes_detHoldEnd zero_lt_two (by rw [Dev.detRelease_angle htill hdue])
    case rocof => exact completes_detHoldEnd one_lt_two (by rw [Dev.detRelease_rocof htill hdue])
  case missing =>
    intro ch need s halarm hch x last hdue hneed hmissing
    refine completes_sampleMissingTimeout halarm hch ?_
    rw [Dev.sampleTimeout_of_overdue rfl hdue hneed hmissing]
  case lane =>
    intro lane s hlane hlive hop
    refine ⟨completes_phxLaneCheck hlane hlive hop rfl, fun hfirst => ?first, fun hsecond => ?second⟩
    case first => exact completes_phxLaneCheck hlane hlive hop (by rw [Dev.laneCheck_first hfirst])
    case second => exact completes_phxLaneCheck hlane hlive hop (by rw [Dev.laneCheck_second hsecond])
  case bad =>
    intro h ch s ha harg
    refine completes_phxResync ha ?_
    rw [Dev.resync1_of_bad h harg]
    exact ⟨rfl, Dev.keeps_complete ..⟩
  case one =>
    intro h ch s ha hpart hen haj hrf hnew
    obtain ⟨t, ht, hmain, hself, hothers, hcount, hkeeps⟩ := phxResync_resets h ch s ha hpart hen haj hrf hnew
    refine ⟨t, ht, hmain, ?_, ?_, ?_, ?_, ?_, hothers, hcount, hkeeps⟩
    all_goals rw [hself]; rfl
  case all =>
    intro h s ha
    refine completes_phxResync ha ?_
    rw [Dev.resync1_all h]

end Sys2Proof.Machine

/-! # Safelight (chapter 6): rule states, commits, clearing, alarm outputs, and the end of a local slot

First the counts of Table 6.7; then the commands of a commit with its validation and instant, clearing, the snapshot and the
times of alarm outputs and messages; last the slot that ends once only, which refutes the statement about passes and lanes. -/

namespace Sys2Proof.Machine

/-! ### Rule states (R206, Table 6.7) -/

/-- A latched rule stays ASSERTED. -/
theorem ruleStep_latched (p q : Nat) (res : Option Bool) {x : RuleS} (hx : x.st = 1) : (ruleStep p q true res x).st = 1 := by
  rcases res with _ | _ | _ <;> simp [ruleStep, hx]

section
variable {p q : Nat} {x : RuleS}

theorem ruleStep_counts_true {latch : Bool} (hx : x.st ≠ 1) (hp : p ≤ 255) (hfew : x.acount + 1 < p) :
    (ruleStep p q latch (some true) x).st = x.st ∧ (ruleStep p q latch (some true) x).acount = x.acount + 1 := by
  have hsmall : min 255 (x.acount + 1) = x.acount + 1 := by omega
  simp [ruleStep, not_le.2 hfew, hsmall]

theorem ruleStep_raises {latch : Bool} (hx : x.st ≠ 1) (henough : p ≤ x.acount + 1) : (ruleStep p q latch (some true) x).st = 1 := by
  simp [ruleStep, henough]

theorem ruleStep_counts_false (hx : x.st = 1) (hq : q ≤ 255) (hfew : x.dcount + 1 < q) :
    (ruleStep p q false (some false) x).st = 1 ∧ (ruleStep p q false (some false) x).dcount = x.dcount + 1 := by
  have hsmall : min 255 (x.dcount + 1) = x.dcount + 1 := by omega
  simp [ruleStep, hx, not_le.2 hfew, hsmall]

theorem ruleStep_drops (hx : x.st = 1) (hq : q ≤ 255) (henough : q ≤ x.dcount + 1) : (ruleStep p q false (some false) x).st = 0 := by
  have hmin : q ≤ min 255 (x.dcount + 1) := by omega
  simp only [ruleStep, hx, hmin, decide_true, Bool.not_false, Bool.and_self, if_true]

end

/-- A rule's state after `n` decisions in a row that are all `r`. -/
def ruleRun (p q : Nat) (latch r : Bool) (n : Nat) (x : RuleS) : RuleS :=
  (List.replicate n (some r)).foldl (fun y res => ruleStep p q latch res y) x

theorem ruleRun_succ (p q : Nat) (latch r : Bool) (n : Nat) (x : RuleS) :
    ruleRun p q latch r (n + 1) x = ruleStep p q latch (some r) (ruleRun p q latch r n x) := by
  simp only [ruleRun, List.replicate_succ', List.foldl_append, List.foldl_cons, List.foldl_nil]

section
variable {p q n : Nat} {x : RuleS}

/-- Fewer than PERSIST true decisions only count. -/
theorem ruleRun_counts_true {latch : Bool} (hx : x.st ≠ 1) (hcount : x.acount = 0) (hp : p ≤ 255) (hn : n < p) :
    (ruleRun p q latch true n x).st = x.st ∧ (ruleRun p q latch true n x).acount = n := by
  induction n with
  | zero => exact ⟨rfl, hcount⟩
  | succ n ih =>
    obtain ⟨hst, hacount⟩ := ih (by omega)
    rw [ruleRun_succ]
    obtain ⟨hst', hacount'⟩ := ruleStep_counts_true (q := q) (latch := latch) (by rwa [hst]) hp (by rwa [hacount])
    exact ⟨hst'.trans hst, by rw [hacount', hacount]⟩

/-- Fewer than DROPOUT false decisions only count. -/
theorem ruleRun_counts_false (hx : x.st = 1) (hcount : x.dcount = 0) (hq : q ≤ 255) (hn : n < q) :
    (ruleRun p q false false n x).st = 1 ∧ (ruleRun p q false false n x).dcount = n := by
  induction n with
  | zero => exact ⟨hx, hcount⟩
  | succ n ih =>
    obtain ⟨hst, hdcount⟩ := ih (by omega)
    rw [ruleRun_succ]
    obtain ⟨hst', hdcount'⟩ := ruleStep_counts_false (p := p) hst hq (by rwa [hdcount])
    exact ⟨hst', by rw [hdcount', hdcount]⟩

theorem ruleRun_true (latch : Bool) (hx : x.st ≠ 1) (hcount : x.acount = 0) (hpos : 1 ≤ p) (hp : p ≤ 255) (hn : n ≤ p) :
    (ruleRun p q latch true n x).st = if n = p then 1 else x.st := by
  split
  case isTrue hlast =>
    subst hlast
    obtain ⟨m, rfl⟩ := Nat.exists_eq_add_of_le' hpos
    obtain ⟨hst, hacount⟩ := ruleRun_counts_true (q := q) (latch := latch) hx hcount hp (Nat.lt_succ_self m)
    rw [ruleRun_succ]
    exact ruleStep_raises (by rwa [hst]) (by rw [hacount])
  case isFalse hearly => exact (ruleRun_counts_true hx hcount hp (lt_of_le_of_ne hn hearly)).1

theorem ruleRun_false (hx : x.st = 1) (hcount : x.dcount = 0) (hpos : 1 ≤ q) (hq : q ≤ 255) (hn : n ≤ q) :
    (ruleRun p q false false n x).st = if n = q then 0 else 1 := by
  split
  case isTrue hlast =>
    subst hlast
    obtain ⟨m, rfl⟩ := Nat.exists_eq_add_of_le' hpos
    obtain ⟨hst, hdcount⟩ := ruleRun_counts_false (p := p) hx hcount hq (Nat.lt_succ_self m)
    rw [ruleRun_succ]
    exact ruleStep_drops hst hq (by rw [hdcount])
  case isFalse hearly => exact (ruleRun_counts_false hx hcount hq (lt_of_le_of_ne hn hearly)).1

end

/-- Settles O39: a run of true or of false decisions counts up to its PERSIST-th or DROPOUT-th one (R206, Table 6.7). -/
theorem rulesPersistAndDrop : Obligations.RulesPersistAndDrop :=
  ⟨fun p q res _ => ruleStep_latched p q res, fun _ _ _ latch _ => ruleRun_true latch, fun _ _ _ _ => ruleRun_false⟩

/-! ### The commits of rules (R25, R202) -/

theorem Dev.reg_setField_self (off lo len v : Nat) (d : Dev) : (d.setField off lo len v).reg off = (d.reg off).setField lo len v := by
  rw [Dev.reg_setField, if_pos rfl]

theorem Dev.reg_setField_ne {off o : Nat} (h : o ≠ off) (lo len v : Nat) (d : Dev) : (d.setField off lo len v).reg o = d.reg o := by
  rw [Dev.reg_setField, if_neg h]

/-- A field just written reads as the value written, when it fits. -/
theorem Dev.fld_setField {lo len v : Nat} (hfits : lo + len ≤ 32) (hv : v < 2 ^ len) (off : Nat) (d : Dev) :
    (d.setField off lo len v).fld off lo len = v := by
  rw [Dev.fld, Dev.reg_setField_self, Word.field_setField _ _ _ _ hfits, Nat.mod_eq_of_lt hv]

theorem Dev.fld_congr {d e : Dev} {off : Nat} (h : e.reg off = d.reg off) (lo len : Nat) : e.fld off lo len = d.fld off lo len := by
  rw [Dev.fld, Dev.fld, h]

theorem Dev.rbit_congr {d e : Dev} {off : Nat} (h : e.reg off = d.reg off) (i : Nat) : e.rbit off i = d.rbit off i := by
  rw [Dev.rbit, Dev.rbit, h]

theorem completes_sflCommit {h : CmdHdr} {p : CommitArgs} {s : State} {P : State → Prop} (ha : s.dev.Admits h 0x40 [] true legalCRD)
    (hP : P { s with dev := s.dev.sflFetch h p }) : Completes (.sflCommit h p) s P :=
  completes_cmd (body := Dev.sflFetch h p) rfl ha hP

theorem completes_sflCancel {h : CmdHdr} {s : State} {P : State → Prop} (ha : s.dev.Admits h 0x41 [] true legalCRD)
    (hP : P { s with dev := s.dev.sflCancel1 h }) : Completes (.sflCancel h) s P := completes_cmd (body := Dev.sflCancel1 h) rfl ha hP

theorem completes_sflReload {h : CmdHdr} {s : State} {P : State → Prop} (ha : s.dev.Admits h 0x42 [] true legalCRD)
    (hP : P { s with dev := s.dev.sflReload1 h }) : Completes (.sflReload h) s P := completes_cmd (body := Dev.sflReload1 h) rfl ha hP

/-- Whether the fields of an `SFL_COMMIT` are bad as it is fetched (log entry 44). -/
def badSflCommit (p : CommitArgs) (d : Dev) : Bool :=
  decide (1 < p.mode) || (p.mode == 1 && d.op != .config && d.badInstant d.sflEarliest (commitInstant p))

theorem badSflCommit_eq_false {p : CommitArgs} {d : Dev} (hmode : p.mode ≤ 1)
    (hinst : p.mode = 1 → d.op = .config ∨ d.badInstant d.sflEarliest (commitInstant p) = false) : badSflCommit p d = false := by
  by_cases h1 : p.mode = 1
  · rcases hinst h1 with h | h <;> simp [badSflCommit, h1, h]
  · simp [badSflCommit, h1, hmode]

theorem badSflCommit_eq_true {p : CommitArgs} {d : Dev}
    (hbad : 1 < p.mode ∨ (p.mode = 1 ∧ d.op ≠ .config ∧ d.badInstant d.sflEarliest (commitInstant p) = true)) : badSflCommit p d = true := by
  simpa [badSflCommit, and_assoc] using hbad

section
variable {p : CommitArgs} {d : Dev}

theorem Dev.sflFetch_of_bad (hbad : badSflCommit p d = true) (h : CmdHdr) :
    d.sflFetch h p = d.complete h 0x40 2 (failWords 0xFFFF 10) := if_pos hbad

theorem Dev.sflFetch_of_pending (hok : badSflCommit p d = false) (hpend : d.sfl.pend.isSome = true) (h : CmdHdr) :
    d.sflFetch h p = d.refuse h 0x40 6 1 0xFFFF [] :=
  (if_neg (Bool.eq_false_iff.1 hok)).trans (if_pos hpend)

/-- A commit is fetched with a snapshot of the staged rule tables, and validated next. -/
theorem Dev.sflFetch_takes (hok : badSflCommit p d = false) (hpend : d.sfl.pend = none) (h : CmdHdr) :
    d.sflFetch h p = Dev.setField Reg.SFL_STATUS 0 2 3 { d with sfl := { d.sfl with
      pend := some { hdr := h, args := p, snap := ruleWords d.stg, validating := true, inst := 0, homes := [] } } } :=
  (if_neg (Bool.eq_false_iff.1 hok)).trans (if_neg (by simp [hpend]))

end

theorem sflCommit_takes (h : CmdHdr) (p : CommitArgs) (s : State) (ha : s.dev.Admits h 0x40 [] true legalCRD)
    (hok : badSflCommit p s.dev = false) (hpend : s.dev.sfl.pend = none) : Completes (.sflCommit h p) s (fun t => s.MainOnly t ∧
      t.dev.sfl = { s.dev.sfl with pend := some { hdr := h, args := p, snap := ruleWords s.dev.stg, validating := true, inst := 0,
                                                  homes := [] } } ∧
      t.dev.fld Reg.SFL_STATUS 0 2 = 3 ∧ (∀ off, off ≠ Reg.SFL_STATUS → t.dev.reg off = s.dev.reg off) ∧
      t.dev = { s.dev with regs := t.dev.regs, sfl := t.dev.sfl }) := by
  refine completes_sflCommit ha ?_
  rw [Dev.sflFetch_takes hok hpend]
  exact ⟨s.mainOnly_dev _, rfl, Dev.fld_setField (by decide) (by decide) .., fun off ho => Dev.reg_setField_ne ho .., rfl⟩

/-- The pending commit and the `SFL_CANCEL` that withdraws it both complete. -/
theorem Dev.sflCancel1_of_pending {p : PendCommit} {d : Dev} (hpend : d.sfl.pend = some p) (h : CmdHdr) :
    d.sflCancel1 h = (d.sflUnpend.complete p.hdr 0x40 7 []).complete h 0x41 0 [] := by
  simp [Dev.sflCancel1, Dev.sflWithdraw, hpend]

/-- What a device keeps of one that has no rule commit pending any more, when it has reported besides. -/
theorem Dev.Keeps.of_sflUnpend {d e : Dev} (he : Dev.Keeps noReg d.sflUnpend e) : e.sfl = { d.sfl with pend := none } ∧
    e.fld Reg.SFL_STATUS 0 2 = 0 ∧ Dev.Keeps (fun off => off == Reg.SFL_STATUS) { d with sfl := e.sfl } e := by
  have hsfl : e.sfl = { d.sfl with pend := none } := he.sfl_eq
  refine ⟨hsfl, (Dev.fld_congr (he.2 _ rfl (by decide)) 0 2).trans (Dev.fld_setField (by decide) (by decide) ..), ?_⟩
  rw [hsfl]
  exact (Dev.keeps_setField _ _ _ _ _ (Or.inl rfl)).trans (he.mono fun _ _ => rfl)

theorem sflCancel_withdraws (h : CmdHdr) (p : PendCommit) (s : State) (ha : s.dev.Admits h 0x41 [] true legalCRD)
    (hpend : s.dev.sfl.pend = some p) : Completes (.sflCancel h) s (fun t => s.MainOnly t ∧
      t.dev.sfl = { s.dev.sfl with pend := none } ∧ t.dev.fld Reg.SFL_STATUS 0 2 = 0 ∧
      Dev.Keeps (fun off => off == Reg.SFL_STATUS) { s.dev with sfl := t.dev.sfl } t.dev) := by
  refine completes_sflCancel ha ?_
  rw [Dev.sflCancel1_of_pending hpend]
  exact ⟨s.mainOnly_dev _, ((Dev.keeps_complete ..).trans (Dev.keeps_complete ..)).of_sflUnpend⟩

theorem Dev.sflReload1_of_idle {d : Dev} (hpend : d.sfl.pend = none) (h : CmdHdr) :
    d.sflReload1 h = ({ d with stg := copyWords (cfgWord ruleTables) d.act d.stg } : Dev).complete h 0x42 0 [] := by
  simp [Dev.sflReload1, hpend]

theorem sflReload_copies (h : CmdHdr) (s : State) (ha : s.dev.Admits h 0x42 [] true legalCRD) (hpend : s.dev.sfl.pend = none) :
    Completes (.sflReload h) s (fun t => s.MainOnly t ∧ t.dev.stg = copyWords (cfgWord ruleTables) s.dev.act s.dev.stg ∧
      Dev.Keeps noReg { s.dev with stg := t.dev.stg } t.dev) := by
  refine completes_sflReload ha ?_
  rw [Dev.sflReload1_of_idle hpend]
  refine ⟨s.mainOnly_dev _, Dev.complete_stg .., ?_⟩
  rw [Dev.complete_stg]
  exact Dev.keeps_complete ..

theorem exec_sflValidationEnd (s : State) : exec .sflValidationEnd s = s.onDev (fun d => match d.sfl.pend with
    | some p => if p.validating && legalCRD.contains d.op then d.sflValidated s.fuse p else d
    | none => d) := rfl

theorem exec_sflCommitApply (s : State) : exec .sflCommitApply s = s.onDev (fun d => match d.sfl.pend with
    | some p => if !p.validating && decide (p.inst ≤ d.tick) && legalCRD.contains d.op then d.sflApply p p.inst else d
    | none => d) := rfl

/-- The end of the validation under way. -/
theorem completes_sflValidationEnd {p : PendCommit} {s : State} {d : Dev} {P : State → Prop} (hpend : s.dev.sfl.pend = some p)
    (hval : p.validating = true) (hop : legalCRD.contains s.dev.op = true) (hd : s.dev.sflValidated s.fuse p = d)
    (h : P { s with dev := d }) : Completes .sflValidationEnd s P :=
  completes_onDev (exec_sflValidationEnd s) (by simpa only [hpend, hval, hop, Bool.and_self, if_true, hd] using h)

section
variable {fz : Fuse} {p : PendCommit} {d : Dev}

theorem Dev.sflValidated_of_failed {obj reason : Nat} (h : sflValidate fz p.snap = some (obj, reason)) :
    d.sflValidated fz p = d.sflUnpend.complete p.hdr 0x40 2 (failWords obj reason) := by
  simp only [Dev.sflValidated, h]

theorem Dev.sflValidated_in_config (h : sflValidate fz p.snap = none) (hop : d.op = .config) :
    d.sflValidated fz p = d.sflApply p d.tick := by
  simp only [Dev.sflValidated, h, hop, if_true]

/-- A commit whose snapshot passes while the data plane runs waits for its instant, which shows. -/
theorem Dev.sflValidated_waits (h : sflValidate fz p.snap = none) (hop : d.op ≠ .config)
    (hinst : d.badInstant d.sflEarliest (if p.args.mode = 1 then commitInstant p.args else d.sflEarliest) = false) :
    d.sflValidated fz p =
      Dev.putInstant Reg.SFL_PEND_SEC_LO (if p.args.mode = 1 then commitInstant p.args else d.sflEarliest)
        (Dev.setField Reg.SFL_STATUS 0 2 1 { d with sfl := { d.sfl with pend := some { p with
          validating := false, inst := if p.args.mode = 1 then commitInstant p.args else d.sflEarliest } } }) := by
  simp only [Dev.sflValidated, h, if_neg hop, hinst, Bool.false_eq_true, if_false]

end

theorem Dev.putInstant_regs (lo : Nat) (inst : Int) (d : Dev) : d.putInstant lo inst = { d with regs := (d.putInstant lo inst).regs } := rfl

theorem Dev.putInstant_sfl (lo : Nat) (inst : Int) (d : Dev) : (d.putInstant lo inst).sfl = d.sfl := rfl

theorem sflValidationEnd_fails (p : PendCommit) (s : State) (hpend : s.dev.sfl.pend = some p) (hval : p.validating = true)
    (hop : legalCRD.contains s.dev.op = true) (obj reason : Nat) (hfail : sflValidate s.fuse p.snap = some (obj, reason)) :
    Completes .sflValidationEnd s (fun t => s.MainOnly t ∧ t.dev = s.dev.sflUnpend.complete p.hdr 0x40 2 (failWords obj reason) ∧
      t.dev.act = s.dev.act ∧ t.dev.sfl.pend = none) := by
  refine completes_sflValidationEnd hpend hval hop (Dev.sflValidated_of_failed hfail) ⟨s.mainOnly_dev _, rfl, Dev.complete_act .., ?_⟩
  rw [Dev.complete_sfl]
  rfl

theorem sflValidationEnd_waits (p : PendCommit) (s : State) (hpend : s.dev.sfl.pend = some p) (hval : p.validating = true)
    (inst : Int) (hpass : sflValidate s.fuse p.snap = none) (hrun : s.dev.op.running = true)
    (hinst : inst = (if p.args.mode = 1 then commitInstant p.args else s.dev.sflEarliest))
    (hgood : s.dev.badInstant s.dev.sflEarliest inst = false) : Completes .sflValidationEnd s (fun t => s.MainOnly t ∧
      t.dev.sfl = { s.dev.sfl with pend := some { p with validating := false, inst := inst } } ∧
      t.dev.fld Reg.SFL_STATUS 0 2 = 1 ∧ t.dev.reg Reg.SFL_PEND_SEC_LO = lo32 (inst / 1000000000).toNat ∧
      t.dev = { s.dev with regs := t.dev.regs, sfl := t.dev.sfl }) := by
  subst hinst
  obtain ⟨hop, hconfig⟩ := running_ne_config hrun
  refine completes_sflValidationEnd hpend hval hop (Dev.sflValidated_waits hpass hconfig hgood) ?_
  refine ⟨s.mainOnly_dev _, Dev.putInstant_sfl .., ?_, Dev.reg_putInstant_lo .., Dev.putInstant_regs ..⟩
  rw [Dev.fld_congr (Dev.reg_putInstant (by decide) ..), Dev.fld_setField (by decide) (by decide)]

theorem sflCommitApply_applies (p : PendCommit) (s : State) (hpend : s.dev.sfl.pend = some p) (hval : p.validating = false)
    (hop : legalCRD.contains s.dev.op = true) (hdue : p.inst ≤ s.dev.tick) :
    Completes .sflCommitApply s (fun t => t = { s with dev := s.dev.sflApply p p.inst }) := by
  refine completes_onDev (exec_sflCommitApply s) ?_
  simp only [hpend, hval, hdue, hop, Bool.not_false, decide_true, Bool.and_self, if_true]

/-- Settles O36, clause by clause (R25, R202). -/
theorem safelightCommits : Obligations.SafelightCommits := by
  refine ⟨fun h p s ha hmode hinst => ⟨sflCommit_takes h p s ha (badSflCommit_eq_false hmode hinst), fun hpend => ?again⟩, ?bad,
    sflCancel_withdraws, sflReload_copies, fun p s hpend hval hop => ⟨sflValidationEnd_fails p s hpend hval hop,
      sflValidationEnd_waits p s hpend hval, fun hpass hconfig => ?config⟩, sflCommitApply_applies⟩
  case again =>
    refine completes_sflCommit ha ?_
    rw [Dev.sflFetch_of_pending (badSflCommit_eq_false hmode hinst) hpend]
    exact ⟨rfl, Dev.keeps_refuse ..⟩
  case bad =>
    intro h p s ha hbad
    refine completes_sflCommit ha ?_
    rw [Dev.sflFetch_of_bad (badSflCommit_eq_true hbad)]
  case config => exact completes_sflValidationEnd hpend hval hop (Dev.sflValidated_in_config hpass hconfig) (by with_reducible rfl)

/-! ### Clearing rules, and the snapshot (R221, Table 6.15) -/

theorem completes_sflClear {h : CmdHdr} {rule : Nat} {s : State} {P : State → Prop} (ha : s.dev.Admits h 0x43 [] true legalCRD)
    (hP : P { s with dev := s.dev.clearOne h rule }) : Completes (.sflClear h rule) s P :=
  completes_cmd (body := Dev.clearOne h rule) rfl ha hP

section
variable {rule : Nat} {d : Dev} (h : CmdHdr)

theorem Dev.clearOne_of_absent (hbad : 4095 < rule) : d.clearOne h rule = d.complete h 0x43 2 [] := if_pos hbad

theorem Dev.clearOne_of_not_clearable (hrule : rule ≤ 4095) (hclear : d.clearable rule = false) :
    d.clearOne h rule = d.refuse h 0x43 6 1 0xFFFF [] :=
  (if_neg (not_lt.2 hrule)).trans (if_pos (by rw [hclear]; rfl))

theorem Dev.clearOne_of_clearable (hrule : rule ≤ 4095) (hclear : d.clearable rule = true) :
    d.clearOne h rule = (d.clearRulesOf [rule]).complete h 0x43 0 [] :=
  (if_neg (not_lt.2 hrule)).trans (if_neg (by rw [hclear]; decide))

end

/-- The bitmaps of one number are captured. -/
def Dev.capture (d : Dev) (n : Nat) : Dev :=
  (d.setReg (Reg.SFL_SNAP_ASSERT n) (d.reg (Reg.SFL_ASSERT n))).setReg (Reg.SFL_SNAP_INDET n) (d.reg (Reg.SFL_INDET n))

/-- Captures of the two bitmaps stand apart. -/
theorem snapAssert_ne_snapIndet {n : Nat} (hn : n < 128) (m : Nat) : Reg.SFL_SNAP_ASSERT n ≠ Reg.SFL_SNAP_INDET m := by
  unfold Reg.SFL_SNAP_ASSERT Reg.SFL_SNAP_INDET
  omega

section
variable (m : Nat) (d : Dev)

/-- Below the captures, where the bitmaps themselves stand, nothing is written. -/
theorem Dev.reg_capture_of_lt {off : Nat} (hoff : off < 0xB1400) : (d.capture m).reg off = d.reg off := by
  rw [Dev.capture, Dev.reg_setReg_ne (by unfold Reg.SFL_SNAP_INDET; omega), Dev.reg_setReg_ne (by unfold Reg.SFL_SNAP_ASSERT; omega)]

theorem Dev.reg_capture_assert {n : Nat} (hn : n < 128) :
    (d.capture m).reg (Reg.SFL_SNAP_ASSERT n) = if n = m then d.reg (Reg.SFL_ASSERT n) else d.reg (Reg.SFL_SNAP_ASSERT n) := by
  rw [Dev.capture, Dev.reg_setReg_ne (snapAssert_ne_snapIndet hn m)]
  split
  case isTrue h => rw [h, Dev.reg_setReg, if_pos rfl]
  case isFalse h => rw [Dev.reg_setReg_ne (by unfold Reg.SFL_SNAP_ASSERT; omega)]

theorem Dev.reg_capture_indet {n : Nat} (hm : m < 128) :
    (d.capture m).reg (Reg.SFL_SNAP_INDET n) = if n = m then d.reg (Reg.SFL_INDET n) else d.reg (Reg.SFL_SNAP_INDET n) := by
  split
  case isTrue h => rw [h, Dev.capture, Dev.reg_setReg, if_pos rfl]
  case isFalse h =>
    rw [Dev.capture, Dev.reg_setReg_ne (by unfold Reg.SFL_SNAP_INDET; omega), Dev.reg_setReg_ne (snapAssert_ne_snapIndet hm n).symm]

end

/-- The bitmaps of the numbers `ns` are captured: the captures hold them as `d` shows them, and only registers differ. -/
structure Dev.Captured (ns : List Nat) (d e : Dev) : Prop where
  frame : e = { d with regs := e.regs }
  shown (off : Nat) : off < 0xB1400 → e.reg off = d.reg off
  bitmaps (n : Nat) : n ∈ ns →
    e.reg (Reg.SFL_SNAP_ASSERT n) = d.reg (Reg.SFL_ASSERT n) ∧ e.reg (Reg.SFL_SNAP_INDET n) = d.reg (Reg.SFL_INDET n)

theorem bitmaps_lt {n : Nat} (hn : n < 128) : Reg.SFL_ASSERT n < 0xB1400 ∧ Reg.SFL_INDET n < 0xB1400 := by
  unfold Reg.SFL_ASSERT Reg.SFL_INDET
  omega

theorem Dev.captured_foldl (ns : List Nat) (hns : ∀ n ∈ ns, n < 128) (d : Dev) : d.Captured ns (ns.foldl Dev.capture d) := by
  induction ns using List.reverseRecOn with
  | nil => exact ⟨rfl, fun _ _ => rfl, fun _ h => absurd h List.not_mem_nil⟩
  | append_singleton ns m ih =>
    obtain ⟨hframe, hshown, hbitmaps⟩ := ih fun n hn => hns n (List.mem_append_left _ hn)
    have hm : m < 128 := hns m (by simp)
    rw [List.foldl_append, List.foldl_cons, List.foldl_nil]
    generalize ns.foldl Dev.capture d = e at hframe hshown hbitmaps ⊢
    refine ⟨?frame, fun off hoff => (Dev.reg_capture_of_lt m e hoff).trans (hshown off hoff), fun n hn => ?bitmaps⟩
    case frame => rw [hframe]; rfl
    case bitmaps =>
      rw [Dev.reg_capture_assert m e (hns n hn), Dev.reg_capture_indet m e hm]
      by_cases hnm : n = m
      · obtain ⟨hassert, hindet⟩ := bitmaps_lt (hns n hn)
        rw [if_pos hnm, if_pos hnm, hshown _ hassert, hshown _ hindet]
        exact ⟨rfl, rfl⟩
      · rw [if_neg hnm, if_neg hnm]
        exact hbitmaps n (by simpa [hnm] using hn)

/-- A capture of `SFL_SNAP` once the bitmaps are captured: stNum and the raw count. -/
def Dev.captureRest (d : Dev) : Dev :=
  ((d.setReg Reg.SFL_SNAP_STNUM (d.reg Reg.SFL_GOOSE_STNUM)).setReg Reg.SFL_SNAP_RAW_LO (lo32 d.raw)).setReg Reg.SFL_SNAP_RAW_HI (hi32 d.raw)

theorem Dev.sflSnapNow_eq (d : Dev) : d.sflSnapNow = ((List.range 128).foldl Dev.capture d).captureRest := rfl

theorem Dev.reg_captureRest_of_lt {off : Nat} (h : off < 0xB1800) (d : Dev) : d.captureRest.reg off = d.reg off := by
  rw [Dev.captureRest, Dev.reg_setReg_ne (by unfold Reg.SFL_SNAP_RAW_HI; omega), Dev.reg_setReg_ne (by unfold Reg.SFL_SNAP_RAW_LO; omega),
    Dev.reg_setReg_ne (by unfold Reg.SFL_SNAP_STNUM; omega)]

theorem exec_sflSnap (v : Word) (s : State) :
    exec (.sflSnap v) s = .next { s with dev := if (s.dev.writable && v.bit 0) = true then s.dev.sflSnapNow else s.dev } := rfl

/-- The snapshot is of one instant: both bitmaps, stNum and the raw count. -/
theorem sflSnap_captures (v : Word) (s : State) (hwritable : s.dev.writable = true) (hbit : v.bit 0 = true) :
    Completes (.sflSnap v) s (fun t => s.MainOnly t ∧
      (∀ n, n < 128 → t.dev.reg (Reg.SFL_SNAP_ASSERT n) = s.dev.reg (Reg.SFL_ASSERT n) ∧
        t.dev.reg (Reg.SFL_SNAP_INDET n) = s.dev.reg (Reg.SFL_INDET n)) ∧
      t.dev.reg Reg.SFL_SNAP_STNUM = s.dev.reg Reg.SFL_GOOSE_STNUM ∧ t.dev.reg Reg.SFL_SNAP_RAW_LO = lo32 s.dev.raw ∧
      t.dev.reg Reg.SFL_SNAP_RAW_HI = hi32 s.dev.raw ∧ t.dev = { s.dev with regs := t.dev.regs }) := by
  refine completes_if (exec_sflSnap v s) (by rw [hwritable, hbit]; rfl) ?_
  obtain ⟨hframe, hshown, hbitmaps⟩ := s.dev.captured_foldl (List.range 128) (fun n hn => List.mem_range.1 hn)
  rw [Dev.sflSnapNow_eq]
  generalize (List.range 128).foldl Dev.capture s.dev = e at hframe hshown hbitmaps ⊢
  have hraw : e.raw = s.dev.raw := by rw [hframe]
  refine ⟨s.mainOnly_dev _, fun n hn => ?bitmaps, ?stnum, ?low, ?high, ?frame⟩
  case bitmaps =>
    have hlt : Reg.SFL_SNAP_ASSERT n < 0xB1800 ∧ Reg.SFL_SNAP_INDET n < 0xB1800 := by
      unfold Reg.SFL_SNAP_ASSERT Reg.SFL_SNAP_INDET
      omega
    obtain ⟨hassert, hindet⟩ := hlt
    rw [Dev.reg_captureRest_of_lt hassert, Dev.reg_captureRest_of_lt hindet]
    exact hbitmaps n (List.mem_range.2 hn)
  case stnum => simp [Dev.captureRest, hshown Reg.SFL_GOOSE_STNUM (by decide)]
  case low => simp [Dev.captureRest, hraw]
  case high => simp [Dev.captureRest, hraw]
  case frame => rw [hframe]; rfl

/-! ### Alarm outputs (R215, R216, Table 6.11) -/

theorem Dev.alm_setAlm (n m : Nat) (x : AlmS) (d : Dev) : (d.setAlm n x).alm m = if m = n then x else d.alm m := by
  simp only [Dev.alm, Dev.setAlm, KMap.getD, KMap.get?_put]
  split <;> rfl

theorem Dev.alm_setAlm_self (n : Nat) (x : AlmS) (d : Dev) : (d.setAlm n x).alm n = x := by rw [Dev.alm_setAlm, if_pos rfl]

theorem Dev.alm_congr {d e : Dev} (h : e.sfl = d.sfl) (n : Nat) : e.alm n = d.alm n := by rw [Dev.alm, Dev.alm, h]

theorem Dev.alm_turnOn (n : Nat) (d : Dev) : (d.turnOn n).alm n = { d.alm n with turnOn := some d.raw, retryAt := none } :=
  Dev.alm_setAlm_self ..

theorem reportReg_almStatus {n : Nat} (hn : n < 8) : reportReg (Reg.SFL_ALM_STATUS n) = false := by
  unfold reportReg Reg.SFL_ALM_STATUS
  have h1 : ¬ 0x120000 ≤ 0xB0104 + 0x10 * n := by omega
  have h2 : ¬ 0x160000 ≤ 0xB0104 + 0x10 * n := by omega
  have h3 : (0xB0104 + 0x10 * n == Reg.ACT_DENIED) = false := beq_false_of_ne (by unfold Reg.ACT_DENIED; omega)
  rw [decide_eq_false h1, decide_eq_false h2, h3]
  rfl

/-- `SFL_ALM_STATUSn` alone. -/
def almReg (n off : Nat) : Bool := off == Reg.SFL_ALM_STATUS n

theorem almReg_self (n : Nat) : almReg n (Reg.SFL_ALM_STATUS n) = true ∨ reportReg (Reg.SFL_ALM_STATUS n) = true :=
  Or.inl (beq_self_eq_true _)

/-- `e` differs from `d` in output `n` only: in its driver, in its status register, and in what reporting moves. -/
structure Dev.OutputOnly (n : Nat) (d e : Dev) : Prop where
  frame : Dev.Keeps (almReg n) { d with sfl := e.sfl } e
  others (m : Nat) : m ≠ n → e.alm m = d.alm m

theorem Dev.Keeps.sfl_trans {own : Nat → Bool} {a b c : Dev} (h : Dev.Keeps own { a with sfl := b.sfl } b)
    (k : Dev.Keeps own { b with sfl := c.sfl } c) : Dev.Keeps own { a with sfl := c.sfl } c := by
  obtain ⟨h1, h2⟩ := h
  obtain ⟨k1, k2⟩ := k
  refine ⟨?_, fun off ho hr => (k2 off ho hr).trans (h2 off ho hr)⟩
  rw [k1, h1]

theorem Dev.Keeps.of_sfl_eq {own : Nat → Bool} {d e : Dev} (h : Dev.Keeps own d e) : Dev.Keeps own { d with sfl := e.sfl } e := by
  rw [h.sfl_eq]
  exact h

theorem Dev.OutputOnly.trans {n : Nat} {a b c : Dev} (h : a.OutputOnly n b) (k : b.OutputOnly n c) : a.OutputOnly n c :=
  ⟨h.frame.sfl_trans k.frame, fun m hm => (k.others m hm).trans (h.others m hm)⟩

theorem Dev.OutputOnly.of_keeps {n : Nat} {d e : Dev} (h : Dev.Keeps (almReg n) d e) : d.OutputOnly n e :=
  ⟨h.of_sfl_eq, fun m _ => Dev.alm_congr h.sfl_eq m⟩

theorem Dev.outputOnly_setAlm (n : Nat) (x : AlmS) (d : Dev) : d.OutputOnly n (d.setAlm n x) :=
  ⟨Dev.Keeps.refl .., fun m hm => (Dev.alm_setAlm n m x d).trans (if_neg hm)⟩

/-- What an output's logic moves: beside what `OutputOnly` says, of the driver only what drives the pad, and of the status only the
bits below 3. -/
structure Dev.Drives (n : Nat) (d e : Dev) : Prop extends Dev.OutputOnly n d e where
  driver : ∃ b t r, e.alm n = { d.alm n with drive := b, turnOn := t, retryAt := r }
  faults (lo len : Nat) : 3 ≤ lo → e.fld (Reg.SFL_ALM_STATUS n) lo len = d.fld (Reg.SFL_ALM_STATUS n) lo len

theorem Dev.Drives.trans {n : Nat} {a b c : Dev} (h : a.Drives n b) (k : b.Drives n c) : a.Drives n c := by
  refine ⟨h.toOutputOnly.trans k.toOutputOnly, ?_, fun lo len hlo => (k.faults lo len hlo).trans (h.faults lo len hlo)⟩
  obtain ⟨b₁, t₁, r₁, h₁⟩ := h.driver
  obtain ⟨b₂, t₂, r₂, h₂⟩ := k.driver
  exact ⟨b₂, t₂, r₂, by rw [h₂, h₁]⟩

section
variable (n : Nat) (d : Dev)

theorem Dev.Drives.refl : d.Drives n d := ⟨.of_keeps (Dev.Keeps.refl ..), ⟨_, _, _, rfl⟩, fun _ _ _ => rfl⟩

theorem Dev.drives_setAlm (b : Bool) (t r : Option Nat) :
    d.Drives n (d.setAlm n { d.alm n with drive := b, turnOn := t, retryAt := r }) :=
  ⟨Dev.outputOnly_setAlm .., ⟨b, t, r, Dev.alm_setAlm_self ..⟩, fun _ _ _ => rfl⟩

theorem Dev.drives_setField {lo : Nat} (hlo : lo < 3) (v : Nat) : d.Drives n (d.setField (Reg.SFL_ALM_STATUS n) lo 1 v) := by
  refine ⟨.of_keeps (Dev.keeps_setField _ _ _ _ _ (almReg_self n)), ⟨_, _, _, rfl⟩, fun lo' len hlo' => ?_⟩
  rw [Dev.fld, Dev.reg_setField_self, Word.field_setField_ne _ _ _ _ _ _ (by omega) (by omega)]
  rfl

theorem Dev.drives_emit (o : Output) : d.Drives n (d.emit o) :=
  ⟨.of_keeps (Dev.keeps_emit ..), ⟨_, _, _, rfl⟩, fun _ _ _ => rfl⟩

theorem Dev.drives_turnOn : d.Drives n (d.turnOn n) := (d.drives_setAlm n _ _ _).trans (Dev.drives_emit ..)

theorem Dev.drives_turnOff : d.Drives n (d.turnOff n) := by
  have hoff := (d.drives_setAlm n (d.alm n).drive none none).trans (Dev.drives_setField n _ (by decide : 1 < 3) 0)
  unfold Dev.turnOff
  dsimp only
  split
  · exact hoff.trans (Dev.drives_emit ..)
  · exact hoff

/-- The pad follows a change of what the logic asks for, unless the output is disabled. -/
theorem Dev.drives_pad (release disabled : Prop) [Decidable release] [Decidable disabled] :
    d.Drives n (if release then d.turnOff n else if disabled then d else d.turnOn n) := by
  split
  · exact d.drives_turnOff n
  · split
    · exact Dev.Drives.refl n d
    · exact d.drives_turnOn n

theorem Dev.drives_refreshAlm : d.Drives n (d.refreshAlm n) := by
  have hshown (v w : Nat) := (d.drives_setField n (by decide : 0 < 3) v).trans (Dev.drives_setField n _ (by decide : 2 < 3) w)
  unfold Dev.refreshAlm
  dsimp only
  split
  · exact hshown ..
  · exact ((hshown ..).trans (Dev.drives_setAlm n _ _ (d.alm n).turnOn (d.alm n).retryAt)).trans (Dev.drives_pad ..)

end

/-- An episode's record is posted. -/
theorem Dev.keeps_endEpisode {own : Nat → Bool} (n : Nat) (d : Dev) :
    Dev.Keeps own (d.setAlm n { d.alm n with episode := false, fails := 0 }) (d.endEpisode n) := by
  unfold Dev.endEpisode
  dsimp only
  split
  · exact Dev.keeps_post ..
  · exact Dev.Keeps.refl ..

theorem Dev.outputOnly_endEpisode (n : Nat) (d : Dev) : d.OutputOnly n (d.endEpisode n) :=
  (Dev.outputOnly_setAlm ..).trans (.of_keeps (Dev.keeps_endEpisode n d))

theorem Dev.alm_endEpisode (n : Nat) (d : Dev) : (d.endEpisode n).alm n = { d.alm n with episode := false, fails := 0 } :=
  (Dev.alm_congr (Dev.keeps_endEpisode (own := noReg) n d).sfl_eq n).trans (Dev.alm_setAlm_self ..)

theorem Dev.reg_endEpisode {off : Nat} (hr : reportReg off = false) (n : Nat) (d : Dev) : (d.endEpisode n).reg off = d.reg off :=
  (Dev.keeps_endEpisode (own := noReg) n d).2 off rfl hr

theorem completes_sflClearOutput {h : CmdHdr} {n : Nat} {s : State} {P : State → Prop} (ha : s.dev.Admits h 0x43 [] true legalCRD)
    (hP : P { s with dev := s.dev.clearOut h n }) : Completes (.sflClearOutput h n) s P :=
  completes_cmd (body := Dev.clearOut h n) rfl ha hP

/-- An output with its latch and its faults cleared, before its logic acts on that. -/
def Dev.unlatch (n : Nat) (d : Dev) : Dev :=
  ((d.endEpisode n).setAlm n { (d.endEpisode n).alm n with latched := false }).setField (Reg.SFL_ALM_STATUS n) 3 2 0

/-- An output that was disabled is driven again when its logic asks for it. -/
def Dev.driveAgain (n : Nat) (was : Bool) (d : Dev) : Dev :=
  if was && (d.alm n).drive && (d.alm n).turnOn.isNone then d.turnOn n else d

theorem Dev.clearOut_eq {n : Nat} (hn : n ≤ 7) (h : CmdHdr) (d : Dev) : d.clearOut h n =
    (((d.unlatch n).refreshAlm n).driveAgain n (d.rbit (Reg.SFL_ALM_STATUS n) 4)).complete h 0x43 0 [] := if_neg (not_lt.2 hn)

section
variable (n : Nat) (d : Dev)

theorem Dev.outputOnly_unlatch : d.OutputOnly n (d.unlatch n) :=
  ((d.outputOnly_endEpisode n).trans (Dev.outputOnly_setAlm ..)).trans (.of_keeps (Dev.keeps_setField _ _ _ _ _ (almReg_self n)))

theorem Dev.alm_unlatch : (d.unlatch n).alm n = { d.alm n with episode := false, fails := 0, latched := false } := by
  have h : (d.unlatch n).alm n = { (d.endEpisode n).alm n with latched := false } := Dev.alm_setAlm_self ..
  rw [h, Dev.alm_endEpisode]

theorem Dev.drives_driveAgain (was : Bool) : d.Drives n (d.driveAgain n was) := by
  unfold Dev.driveAgain
  split
  · exact d.drives_turnOn n
  · exact Dev.Drives.refl n d

end

theorem sflClearOutput_clears (h : CmdHdr) (n : Nat) (s : State) (ha : s.dev.Admits h 0x43 [] true legalCRD) (hn : n ≤ 7) :
    Completes (.sflClearOutput h n) s (fun t => s.MainOnly t ∧ (t.dev.alm n).latched = false ∧ (t.dev.alm n).fails = 0 ∧
      (t.dev.alm n).episode = false ∧ t.dev.fld (Reg.SFL_ALM_STATUS n) 3 2 = 0 ∧ (∀ m, m ≠ n → t.dev.alm m = s.dev.alm m) ∧
      Dev.Keeps (fun off => off == Reg.SFL_ALM_STATUS n) { s.dev with sfl := t.dev.sfl } t.dev) := by
  refine completes_sflClearOutput ha ?_
  rw [Dev.clearOut_eq hn]
  have hdrives := ((s.dev.unlatch n).drives_refreshAlm n).trans (Dev.drives_driveAgain n _ (s.dev.rbit (Reg.SFL_ALM_STATUS n) 4))
  generalize ((s.dev.unlatch n).refreshAlm n).driveAgain n _ = e at hdrives
  have hdone : Dev.Keeps noReg e (e.complete h 0x43 0 []) := Dev.keeps_complete ..
  obtain ⟨b, t, r, hdriver⟩ := hdrives.driver
  have halm := (Dev.alm_congr hdone.sfl_eq n).trans hdriver
  rw [Dev.alm_unlatch] at halm
  have honly := ((s.dev.outputOnly_unlatch n).trans hdrives.toOutputOnly).trans (.of_keeps (hdone.mono fun _ _ => rfl))
  refine ⟨s.mainOnly_dev _, ?latched, ?fails, ?episode, ?faults, honly.others, honly.frame⟩
  case faults =>
    rw [Dev.fld_congr (hdone.2 _ rfl (reportReg_almStatus (by omega))), hdrives.faults 3 2 (le_refl _)]
    exact Dev.fld_setField (by decide) (by decide) ..
  all_goals rw [halm]

/-! ### Times of alarm outputs (R215, R216) -/

theorem exec_almPulseEnd (n : Nat) (s : State) : exec (.almPulseEnd n) s = s.onDev (fun d => match (d.alm n).pulseEnd with
    | some t => if t ≤ d.raw then (d.setAlm n { d.alm n with pulseEnd := none }).refreshAlm n else d
    | none => d) := rfl

theorem almPulseEnd_ends (n u : Nat) (s : State) (hpulse : (s.dev.alm n).pulseEnd = some u) (hdue : u ≤ s.dev.raw) :
    Completes (.almPulseEnd n) s (fun t => s.MainOnly t ∧ (t.dev.alm n).pulseEnd = none ∧ (∀ m, m ≠ n → t.dev.alm m = s.dev.alm m) ∧
      Dev.Keeps (fun off => off == Reg.SFL_ALM_STATUS n) { s.dev with sfl := t.dev.sfl } t.dev) := by
  refine completes_onDev (exec_almPulseEnd n s) ?_
  simp only [hpulse, hdue, if_true]
  have hset := Dev.outputOnly_setAlm n { s.dev.alm n with pulseEnd := none } s.dev
  have hdrives := Dev.drives_refreshAlm n (s.dev.setAlm n { s.dev.alm n with pulseEnd := none })
  obtain ⟨b, t, r, hdriver⟩ := hdrives.driver
  have honly := hset.trans hdrives.toOutputOnly
  refine ⟨s.mainOnly_dev _, ?_, honly.others, honly.frame⟩
  rw [hdriver, Dev.alm_setAlm_self]

theorem exec_almTurnOnSuccess (n : Nat) (s : State) : exec (.almTurnOnSuccess n) s = .next { s with
    dev := if (s.dev.alm n).turnOn.isSome = true then
      ((s.dev.setAlm n { s.dev.alm n with turnOn := none }).setField (Reg.SFL_ALM_STATUS n) 1 1 1).endEpisode n else s.dev } := rfl

theorem exec_almTurnOnTimeout (n : Nat) (s : State) : exec (.almTurnOnTimeout n) s = .next { s with
    dev := if (s.dev.alm n).turnOn.isSome = true then s.dev.turnOnFails n else s.dev } := rfl

theorem exec_almRetry (n : Nat) (s : State) : exec (.almRetry n) s = s.onDev (fun d => match (d.alm n).retryAt with
    | some t => if decide (t ≤ d.raw) && (d.alm n).drive then d.turnOn n else d
    | none => d) := rfl

theorem almTurnOnSuccess_conducts (n : Nat) (s : State) (hn : n < 8) (hon : (s.dev.alm n).turnOn.isSome = true) :
    Completes (.almTurnOnSuccess n) s (fun t => s.MainOnly t ∧
      t.dev.alm n = { s.dev.alm n with turnOn := none, episode := false, fails := 0 } ∧
      t.dev.rbit (Reg.SFL_ALM_STATUS n) 1 = true ∧
      Dev.Keeps (fun off => off == Reg.SFL_ALM_STATUS n) { s.dev with sfl := t.dev.sfl } t.dev) := by
  refine completes_if (exec_almTurnOnSuccess n s) hon ?_
  have halm : ((s.dev.setAlm n { s.dev.alm n with turnOn := none }).setField (Reg.SFL_ALM_STATUS n) 1 1 1).alm n =
      { s.dev.alm n with turnOn := none } := Dev.alm_setAlm_self ..
  refine ⟨s.mainOnly_dev _, ?driver, ?conducts, ?frame⟩
  case driver => rw [Dev.alm_endEpisode, halm]
  case conducts =>
    rw [Dev.rbit_congr (Dev.reg_endEpisode (reportReg_almStatus hn) ..), Dev.rbit, Dev.reg_setField_self,
      Word.bit_setField_one _ _ _ (by decide)]
    rfl
  case frame =>
    exact (((Dev.outputOnly_setAlm ..).trans (.of_keeps (Dev.keeps_setField _ _ _ _ _ (almReg_self n)))).trans
      (Dev.outputOnly_endEpisode ..)).frame

/-- A failed turn-on releases the pad, counts, and leaves a retry 10 ms later unless it is the third. -/
def Dev.releaseFailed (n : Nat) (d : Dev) : Dev :=
  (d.setAlm n { d.alm n with turnOn := none, retryAt := if (d.alm n).fails + 1 < 3 then some (d.raw + 10000000) else none
                             fails := (d.alm n).fails + 1, episode := true }).emit (.alarmPad n false)

/-- A failed turn-on shows in the output's status with the count `v`, and in `SFL_EVT`. -/
def Dev.showFailed (n v : Nat) (d : Dev) : Dev :=
  ((d.setField (Reg.SFL_ALM_STATUS n) 3 1 1).setField (Reg.SFL_ALM_STATUS n) 8 8 v).raise Reg.SFL_EVT 4

/-- What a failed turn-on does at every failure. -/
def Dev.turnOnFailed (n : Nat) (d : Dev) : Dev := (d.releaseFailed n).showFailed n (min 255 (d.fld (Reg.SFL_ALM_STATUS n) 8 8 + 1))

/-- The status of an output after a failed turn-on. -/
def failedStatus (w : Word) : Word := (w.setField 3 1 1).setField 8 8 (min 255 (w.field 8 8 + 1))

theorem bit_failedStatus (w : Word) : (failedStatus w).bit 3 = true := by
  rw [failedStatus, Word.bit_setField_ne _ _ _ _ _ (by decide) (by decide), Word.bit_setField_one _ _ _ (by decide)]
  rfl

theorem field_failedStatus (w : Word) : (failedStatus w).field 8 8 = min 255 (w.field 8 8 + 1) := by
  rw [failedStatus, Word.field_setField _ _ _ _ (by decide)]
  exact Nat.mod_eq_of_lt (by omega)

theorem Dev.turnOnFails_early {n : Nat} {d : Dev} (h : (d.alm n).fails < 2) : d.turnOnFails n = d.turnOnFailed n := by
  have h3 : (d.alm n).fails + 1 < 3 := by omega
  exact if_pos h3

theorem Dev.turnOnFails_third {n : Nat} {d : Dev} (h : 2 ≤ (d.alm n).fails) :
    d.turnOnFails n = ((d.turnOnFailed n).setField (Reg.SFL_ALM_STATUS n) 4 1 1).endEpisode n := by
  have h3 : ¬ (d.alm n).fails + 1 < 3 := by omega
  exact if_neg h3

theorem almStatus_ne_evt (n : Nat) : Reg.SFL_ALM_STATUS n ≠ Reg.SFL_EVT := by
  unfold Reg.SFL_ALM_STATUS Reg.SFL_EVT
  omega

section
variable (n : Nat) (d : Dev)

theorem Dev.alm_turnOnFailed : (d.turnOnFailed n).alm n = { d.alm n with
    turnOn := none, retryAt := if (d.alm n).fails + 1 < 3 then some (d.raw + 10000000) else none
    fails := (d.alm n).fails + 1, episode := true } :=
  (Dev.alm_congr (Dev.raise_sfl ..) n).trans (Dev.alm_setAlm_self ..)

theorem Dev.reg_turnOnFailed : (d.turnOnFailed n).reg (Reg.SFL_ALM_STATUS n) = failedStatus (d.reg (Reg.SFL_ALM_STATUS n)) := by
  rw [Dev.turnOnFailed, Dev.showFailed, Dev.reg_raise, if_neg (almStatus_ne_evt n), Dev.reg_setField_self, Dev.reg_setField_self]
  rfl

theorem Dev.rbit_turnOnFailed : (d.turnOnFailed n).rbit Reg.SFL_EVT 4 = true := Dev.rbit_raise _ _ _ (by decide)

/-- The output's status and `SFL_EVT`. -/
def almEvtReg (n off : Nat) : Bool := off == Reg.SFL_ALM_STATUS n || off == Reg.SFL_EVT

theorem almEvtReg_status : almEvtReg n (Reg.SFL_ALM_STATUS n) = true ∨ reportReg (Reg.SFL_ALM_STATUS n) = true := by simp [almEvtReg]

theorem almReg_of_almEvtReg {off : Nat} (h : almEvtReg n off = false) : almReg n off = false := (Bool.or_eq_false_iff.1 h).1

theorem Dev.outputOnly_releaseFailed : d.OutputOnly n (d.releaseFailed n) :=
  (Dev.outputOnly_setAlm ..).trans (.of_keeps (Dev.keeps_emit ..))

theorem Dev.keeps_showFailed (v : Nat) : Dev.Keeps (almEvtReg n) d (d.showFailed n v) :=
  ((Dev.keeps_setField _ _ _ _ _ (almEvtReg_status n)).trans (Dev.keeps_setField _ _ _ _ _ (almEvtReg_status n))).trans
    (Dev.keeps_raise _ _ _ (Or.inl (by simp [almEvtReg])))

theorem Dev.keeps_turnOnFailed : Dev.Keeps (almEvtReg n) { d with sfl := (d.turnOnFailed n).sfl } (d.turnOnFailed n) :=
  ((d.outputOnly_releaseFailed n).frame.mono fun _ => almReg_of_almEvtReg n).sfl_trans (Dev.keeps_showFailed n _ _).of_sfl_eq

/-- A failed turn-on changes the output's driver, its status and `SFL_EVT`, and it reports. -/
theorem Dev.keeps_turnOnFails : Dev.Keeps (almEvtReg n) { d with sfl := (d.turnOnFails n).sfl } (d.turnOnFails n) := by
  rcases lt_or_ge (d.alm n).fails 2 with h | h
  · rw [Dev.turnOnFails_early h]
    exact d.keeps_turnOnFailed n
  · rw [Dev.turnOnFails_third h]
    have hdisabled := Dev.keeps_setField (Reg.SFL_ALM_STATUS n) 4 1 1 (d.turnOnFailed n) (almEvtReg_status n)
    exact ((d.keeps_turnOnFailed n).sfl_trans hdisabled.of_sfl_eq).sfl_trans
      ((Dev.outputOnly_endEpisode n _).frame.mono fun _ => almReg_of_almEvtReg n)

theorem Dev.alm_turnOnFails : ((d.turnOnFails n).alm n).turnOn = none ∧
    ((d.turnOnFails n).alm n).retryAt = (if (d.alm n).fails < 2 then some (d.raw + 10000000) else none) ∧
    ((d.turnOnFails n).alm n).fails = if (d.alm n).fails < 2 then (d.alm n).fails + 1 else 0 := by
  rcases lt_or_ge (d.alm n).fails 2 with h | h
  · rw [Dev.turnOnFails_early h, Dev.alm_turnOnFailed, if_pos h, if_pos h]
    exact ⟨rfl, if_pos (by omega), rfl⟩
  · have halm : ((d.turnOnFailed n).setField (Reg.SFL_ALM_STATUS n) 4 1 1).alm n = (d.turnOnFailed n).alm n := rfl
    rw [Dev.turnOnFails_third h, Dev.alm_endEpisode, halm, Dev.alm_turnOnFailed, if_neg (not_lt.2 h), if_neg (not_lt.2 h)]
    exact ⟨rfl, if_neg (by omega), rfl⟩

/-- The status and `SFL_EVT` after a failed turn-on: the third failure disables the output. -/
theorem Dev.reg_turnOnFails (hn : n < 8) : (d.turnOnFails n).rbit Reg.SFL_EVT 4 = true ∧
    (d.turnOnFails n).reg (Reg.SFL_ALM_STATUS n) = if (d.alm n).fails < 2 then failedStatus (d.reg (Reg.SFL_ALM_STATUS n))
      else (failedStatus (d.reg (Reg.SFL_ALM_STATUS n))).setField 4 1 1 := by
  rcases lt_or_ge (d.alm n).fails 2 with h | h
  · rw [Dev.turnOnFails_early h, if_pos h]
    exact ⟨d.rbit_turnOnFailed n, d.reg_turnOnFailed n⟩
  · rw [Dev.turnOnFails_third h, if_neg (not_lt.2 h), Dev.reg_endEpisode (reportReg_almStatus hn), Dev.reg_setField_self,
      Dev.reg_turnOnFailed, Dev.rbit_congr (Dev.reg_endEpisode (by decide) ..),
      Dev.rbit_congr (Dev.reg_setField_ne (almStatus_ne_evt n).symm ..)]
    exact ⟨d.rbit_turnOnFailed n, rfl⟩

end

theorem almTurnOnTimeout_fails (n : Nat) (s : State) (hn : n < 8) (hon : (s.dev.alm n).turnOn.isSome = true) :
    Completes (.almTurnOnTimeout n) s (fun t => s.MainOnly t ∧ (t.dev.alm n).turnOn = none ∧
      (t.dev.alm n).retryAt = (if (s.dev.alm n).fails < 2 then some (s.dev.raw + 10000000) else none) ∧
      (t.dev.alm n).fails = (if (s.dev.alm n).fails < 2 then (s.dev.alm n).fails + 1 else 0) ∧
      t.dev.rbit (Reg.SFL_ALM_STATUS n) 3 = true ∧
      ((s.dev.alm n).fails ≥ 2 → t.dev.rbit (Reg.SFL_ALM_STATUS n) 4 = true) ∧
      t.dev.fld (Reg.SFL_ALM_STATUS n) 8 8 = min 255 (s.dev.fld (Reg.SFL_ALM_STATUS n) 8 8 + 1) ∧ t.dev.rbit Reg.SFL_EVT 4 = true ∧
      Dev.Keeps (fun off => off == Reg.SFL_ALM_STATUS n || off == Reg.SFL_EVT) { s.dev with sfl := t.dev.sfl } t.dev) := by
  refine completes_if (exec_almTurnOnTimeout n s) hon ?_
  obtain ⟨hturnOn, hretry, hfails⟩ := s.dev.alm_turnOnFails n
  obtain ⟨hevt, hstatus⟩ := s.dev.reg_turnOnFails n hn
  refine ⟨s.mainOnly_dev _, hturnOn, hretry, hfails, ?failed, fun hthird => ?disabled, ?count, hevt, s.dev.keeps_turnOnFails n⟩
  case failed =>
    rw [Dev.rbit, hstatus]
    split
    · exact bit_failedStatus _
    · rw [Word.bit_setField_ne _ _ _ _ _ (by decide) (by decide), bit_failedStatus]
  case disabled =>
    rw [Dev.rbit, hstatus, if_neg (not_lt.2 hthird), Word.bit_setField_one _ _ _ (by decide)]
    rfl
  case count =>
    rw [Dev.fld, hstatus]
    split
    · exact field_failedStatus _
    · rw [Word.field_setField_ne _ _ _ _ _ _ (by decide) (by decide), field_failedStatus]
      rfl

theorem almRetry_turnsOn (n u : Nat) (s : State) (hretry : (s.dev.alm n).retryAt = some u) (hdue : u ≤ s.dev.raw)
    (hdrive : (s.dev.alm n).drive = true) : Completes (.almRetry n) s (fun t => t = { s with dev := s.dev.turnOn n } ∧
      (t.dev.alm n).turnOn = some s.dev.raw ∧ (t.dev.alm n).retryAt = none) := by
  refine completes_onDev (exec_almRetry n s) ?_
  simp only [hretry, hdue, hdrive, decide_true, Bool.and_self, if_true, Dev.alm_turnOn, and_self]

/-! ### Retransmission and `TEV` operands (R213, Table 6.2) -/

theorem Dev.retransmit_of_due {m : AlarmMsg} {gap : Nat} {d : Dev} (hmsg : d.sfl.msg = some m) (hdue : d.sfl.nextTx ≤ d.raw)
    (hop : d.op.alarm = true ∨ d.op = .config)
    (hgap : gap = min (2 * d.sfl.interval) (clampNat 100 60000 (d.fld Reg.SFL_GOOSE 16 16) * 1000000)) :
    d.retransmit = (Dev.setReg Reg.SFL_GOOSE_SQNUM (d.reg Reg.SFL_GOOSE_SQNUM + 1)
        { d with sfl := { d.sfl with interval := gap, nextTx := d.raw + gap } }).sendAlarm
      (d.reg Reg.SFL_GOOSE_STNUM) (d.reg Reg.SFL_GOOSE_SQNUM + 1) (2 * gap / 1000000) (d.sfl.msgAt : Nat) m := by
  subst hgap
  have hop' : (d.op.alarm || d.op == .config) = true := by simpa using hop
  simp only [Dev.retransmit, hmsg, hop', decide_eq_false (not_lt.2 hdue), Bool.not_true, Bool.or_self, Bool.false_eq_true, if_false]
  rw [Dev.reg_setReg_ne (by decide)]
  rfl

theorem exec_tevOperandExpiry (n : Nat) (s : State) : exec (.tevOperandExpiry n) s = s.onDev (fun d =>
    match KMap.get? d.sfl.tevHold n with
    | some t => if t ≤ d.raw then ({ d with sfl := { d.sfl with tevHold := KMap.del d.sfl.tevHold n } }).localChange else d
    | none => d) := rfl

/-- Settles O37, clause by clause (R213, R215, R216, R221). -/
theorem safelightClearsAndTimes : Obligations.SafelightClearsAndTimes := by
  refine ⟨⟨fun h rule s ha => ⟨fun hbad => ?absent, fun hrule hclear => ?refused, fun hrule hclear => ?cleared⟩, ?latched,
    fun h n s ha => ⟨fun hbad => ?noOutput, sflClearOutput_clears h n s ha⟩, sflSnap_captures⟩,
    fun n u s _ => almPulseEnd_ends n u s, fun n s hn hon => ⟨almTurnOnSuccess_conducts n s hn hon, almTurnOnTimeout_fails n s hn hon⟩,
    almRetry_turnsOn, ?retransmit, ?tev⟩
  case absent =>
    refine completes_sflClear ha ?_
    rw [Dev.clearOne_of_absent h hbad]
    exact ⟨rfl, Dev.keeps_complete ..⟩
  case refused =>
    refine completes_sflClear ha ?_
    rw [Dev.clearOne_of_not_clearable h hrule hclear]
    exact ⟨rfl, Dev.keeps_refuse ..⟩
  case cleared =>
    refine completes_sflClear ha ?_
    rw [Dev.clearOne_of_clearable h hrule hclear]
  case latched =>
    intro h s ha
    exact completes_cmd (body := fun d => (d.clearRulesOf (d.sfl.rules.keys.filter (fun i => d.clearable i))).complete h 0x43 0 [])
      rfl ha rfl
  case noOutput =>
    refine completes_sflClearOutput ha ?_
    rw [show s.dev.clearOut h n = s.dev.complete h 0x43 2 [] from if_pos hbad]
    exact ⟨rfl, Dev.keeps_complete ..⟩
  case retransmit =>
    intro m gap s hmsg hdue hop hgap d sq
    refine completes_onDev (f := Dev.retransmit) rfl ?_
    rw [Dev.retransmit_of_due hmsg hdue hop hgap]
  case tev =>
    intro n u s hheld hdue
    refine completes_onDev (exec_tevOperandExpiry n s) ?_
    simp only [hheld, hdue, if_true]

/-! ### The end of a local slot (R191) -/

/-- A slot whose last pass is queued does not end again. -/
theorem Dev.localSlotEnd_of_ending {rc k : Nat} {d : Dev} (h : d.localEnding rc k = true) : d.localSlotEnd rc k = d := if_pos h

/-- Slot 0 of the local rules of 10 frames/s. -/
def slotSet : SflSet := { rc := 0, k := 0, loc := true, decided := [], queued := [], raised := [], refv := none }

/-- The last pass of that slot, queued as the slot ended 0.1 s after power-up. -/
def slotPass : SflPass := { rc := 0, k := 0, loc := true, rules := [], trig := 100000000, last := true, flush := false }

/-- RUN 1 ms after the slot's end, with its last pass still queued. -/
def State.slotEnded : State :=
  { State.reset with
    dev := { State.reset.dev with
      op := .run, raw := 101000000, sfl := { State.reset.dev.sfl with sets := [slotSet], passes := [slotPass] } } }

/-- Refutes O38: when the last pass of a local slot is queued already, `LOCAL_RULE_SLOT_END` queues no other (R191), so that the only
last pass is triggered by the slot's end and not now, as the statement has it. -/
theorem not_safelightPassesAndLanes : ¬ Obligations.SafelightPassesAndLanes := by
  intro h
  obtain ⟨-, -, hslot, -⟩ := h
  obtain ⟨t, -, ht, p, hp, -, -, -, -, htrig⟩ := hslot 0 0 State.slotEnded rfl (by decide) (by decide)
  have hsame : t = State.slotEnded := by
    rw [ht, Dev.localSlotEnd_of_ending (by decide)]
  rw [hsame] at hp
  obtain rfl : p = slotPass := List.mem_singleton.1 hp
  exact absurd htrig (by decide)

end Sys2Proof.Machine

/-! # The Densitometer (chapter 7)

First what an evaluation of flags leaves; then, in the order of the statement, the analysis instant, the refresh with its
publication, forced oscillations, coherency, the checks of the cores, and the host commands. -/

namespace Sys2Proof.Machine

/-! ### What an evaluation of flags leaves (R246 to R249) -/

/-- The registers an evaluation of flags may change: the flags, `DNS_EVT`, the count of dropped records and the spill queues'. -/
def flagReg (off : Nat) : Bool :=
  off == Reg.DNS_FLAGS_LO || off == Reg.DNS_FLAGS_HI || off == Reg.DNS_EVT || off == Reg.DNS_FLAG_SPQ_DROP ||
    inBlock 0x130000 0x140000 off

/-- Of the Densitometer's own state only the flags' counters differ, and of the registers only those of flags and of reporting. -/
structure Dev.FlagsOnly (d e : Dev) : Prop where
  dns : e.dns = { d.dns with flags := e.dns.flags }
  regs : ∀ off, flagReg off = false → reportReg off = false → e.reg off = d.reg off

theorem Dev.FlagsOnly.refl (d : Dev) : d.FlagsOnly d := ⟨rfl, fun _ _ _ => rfl⟩

theorem Dev.FlagsOnly.trans {a b c : Dev} (h : a.FlagsOnly b) (k : b.FlagsOnly c) : a.FlagsOnly c :=
  ⟨by rw [k.dns, h.dns], fun off hf hr => (k.regs off hf hr).trans (h.regs off hf hr)⟩

theorem Dev.FlagsOnly.of_keeps {d e : Dev} (h : Dev.Keeps flagReg d e) : d.FlagsOnly e := ⟨by rw [h.dns_eq], h.2⟩

theorem Dev.FlagsOnly.foldl {α : Type} {f : Dev → α → Dev} (hf : ∀ (e : Dev) (x : α), e.FlagsOnly (f e x)) (l : List α)
    (d : Dev) : d.FlagsOnly (l.foldl f d) :=
  List.foldlRecOn l f (motive := d.FlagsOnly) (Dev.FlagsOnly.refl d) fun e he x _ => he.trans (hf e x)

theorem Dev.flagsOnly_setFlagS (f : Nat) (x : FlagS) (d : Dev) : d.FlagsOnly (d.setFlagS f x) := ⟨rfl, fun _ _ _ => rfl⟩

/-- A local operand that changes only queues passes of Safelight. -/
theorem Dev.flagsOnly_localChange (d : Dev) : d.FlagsOnly d.localChange := by
  unfold Dev.localChange
  split
  · exact Dev.FlagsOnly.refl d
  · refine Dev.FlagsOnly.foldl (fun e rc => ?_) _ _
    split
    · exact Dev.FlagsOnly.refl e
    · dsimp only
      split
      · exact Dev.FlagsOnly.refl e
      · exact ⟨rfl, fun _ _ _ => rfl⟩

theorem inBlock_spqDrop {q : Nat} (hq : q < 64) : inBlock 0x130000 0x140000 (Reg.SPQ_DROP q) = true := by
  simp only [inBlock, Reg.SPQ_DROP, Bool.and_eq_true, decide_eq_true_eq]
  omega

theorem Dev.flagsOnly_spqAppend {q : Nat} (hq : q < 64) (prod : Nat) (ws : List Word) (d : Dev) :
    d.FlagsOnly (d.spqAppend q prod ws).2 := by
  have hset (x : SpqQ) : d.FlagsOnly (d.setSpq q x) := ⟨rfl, fun _ _ _ => rfl⟩
  unfold Dev.spqAppend
  extract_lets x item was y e sent
  split
  · exact Dev.FlagsOnly.refl d
  split
  · exact (hset _).trans (.of_keeps (Dev.keeps_bump _ _ _ (Or.inl (by simp [flagReg, inBlock_spqDrop hq]))))
  split
  · exact hset y
  have hsent : d.FlagsOnly sent := by
    unfold sent
    split
    · exact (hset y).trans (.of_keeps (Dev.keeps_msix ..))
    · exact hset y
  split
  · exact hsent.trans ⟨rfl, fun _ _ _ => rfl⟩
  · exact hsent

theorem flagReg_bits (f : Nat) : flagReg (if f < 32 then Reg.DNS_FLAGS_LO else Reg.DNS_FLAGS_HI) = true := by
  split <;> decide

/-- A flag shows its value, raises the event, and sends its record or counts it as dropped. -/
theorem Dev.flagsOnly_flagChange (f : Nat) (v : Bool) (cause : Nat) (val : Word) (tick : Int) (d : Dev) :
    d.FlagsOnly (d.flagChange f v cause val tick) := by
  have hrecord {q : Nat} (hq : q < 64) (ws : List Word) (e : Dev) : e.FlagsOnly
      (if (e.spqAppend q 5 ws).1 then (e.spqAppend q 5 ws).2 else (e.spqAppend q 5 ws).2.bump Reg.DNS_FLAG_SPQ_DROP 1) := by
    have happend := e.flagsOnly_spqAppend hq 5 ws
    split
    · exact happend
    · exact happend.trans (.of_keeps (Dev.keeps_bump _ _ _ (Or.inl (by decide))))
  unfold Dev.flagChange
  extract_lets cond off shown
  have hshown : d.FlagsOnly shown :=
    .of_keeps ((Dev.keeps_setReg _ _ _ (Or.inl (flagReg_bits f))).trans (Dev.keeps_raise _ _ _ (Or.inl (by decide))))
  split
  · exact hshown
  split
  rename_i x e he
  have hvalue : shown.FlagsOnly e := by
    split_ifs at he
    all_goals
      obtain ⟨-, rfl⟩ := Prod.mk.inj he
      exact ⟨rfl, fun _ _ _ => rfl⟩
  exact (hshown.trans hvalue).trans (hrecord (Word.field_lt _ 8 6) _ e)

theorem Dev.flagsOnly_flagEval (p : DnsPub) (f : Nat) (d : Dev) : d.FlagsOnly (d.flagEval p f) := by
  unfold Dev.flagEval
  dsimp only
  split
  all_goals
    split
    · exact (Dev.flagsOnly_setFlagS ..).trans (Dev.flagsOnly_flagChange ..)
    · exact Dev.flagsOnly_setFlagS ..

theorem Dev.flagsOnly_evalFlags (p : DnsPub) (d : Dev) : d.FlagsOnly (d.evalFlags p) := by
  unfold Dev.evalFlags
  extract_lets before run e
  have heval : d.FlagsOnly e := Dev.FlagsOnly.foldl (fun e f => Dev.flagsOnly_flagEval p f e) ..
  split
  · exact heval
  · exact heval.trans (Dev.flagsOnly_localChange e)

/-- A change of state or level clears counters and evaluates `STALE` flags, and does nothing else. -/
theorem Dev.flagsOnly_dnsNoted (old : Nat × Nat) (d : Dev) : d.FlagsOnly (d.dnsNoted old) := by
  unfold Dev.dnsNoted
  extract_lets new e before stale
  split
  · exact Dev.FlagsOnly.refl d
  have hcounters : d.FlagsOnly e := by
    unfold e
    split
    · exact Dev.FlagsOnly.foldl (fun e f => Dev.flagsOnly_setFlagS ..) ..
    · exact Dev.FlagsOnly.refl d
  have hstale : d.FlagsOnly stale := hcounters.trans (Dev.FlagsOnly.foldl (fun e f => Dev.flagsOnly_flagEval _ f e) ..)
  split
  · exact hcounters
  split
  · exact hstale
  · exact hstale.trans (Dev.flagsOnly_localChange stale)

theorem Dev.dns_withDnsState (f : Dev → Dev) (d : Dev) :
    (d.withDnsState f).dns = { (f d).dns with flags := (d.withDnsState f).dns.flags } := (Dev.flagsOnly_dnsNoted _ (f d)).dns

/-! ### The analysis instant (R226 to R230) -/

/-- Coherency samples change the signals' angles only. -/
theorem Dev.cohSample_angles (t : Nat) (d : Dev) : ∃ x, d.cohSample t = { d with dns := { d.dns with angles := x } } := by
  unfold Dev.cohSample
  refine List.foldlRecOn _ _ (motive := fun e : Dev => ∃ x, e = { d with dns := { d.dns with angles := x } }) ⟨d.dns.angles, rfl⟩ ?_
  rintro _ ⟨x, rfl⟩ i -
  split
  · exact ⟨x, rfl⟩
  · exact ⟨_, rfl⟩

/-- Outside a pause the judgement can only begin one. -/
theorem Dev.judgePause_dns {d : Dev} (h : d.dns.paused = none) : ∃ x, d.judgePause.dns = { d.dns with paused := x } := by
  unfold Dev.judgePause
  simp only [Dev.setReg_dns, h]
  split
  · exact ⟨none, by rw [← h]; rfl⟩
  split
  · exact ⟨_, rfl⟩
  · exact ⟨none, by rw [← h]; rfl⟩

/-- The update moves on to the next instant and counts it; then the pause is judged. -/
theorem Dev.instantUpdate_of_ready {d : Dev} (hruns : d.dnsRuns = true)
    (hready : d.instantReady (d.dns.m * 1000000000 / d.aRate) = true) (hpaused : d.dns.paused = none) :
    ∃ e : Dev, d.instantUpdate = e.withDnsState Dev.judgePause ∧ e.dns.m = d.dns.m + 1 ∧ e.dns.count = d.dns.count + 1 ∧
      e.dns.paused = none := by
  unfold Dev.instantUpdate
  extract_lets a t per angs ref sigs cap brs dns e sampled
  have hgo : ¬ (!d.dnsRuns || !d.instantReady t) = true := by simp [hruns, t, a, hready]
  have hsampled : ∃ x, sampled.dns = { e.dns with angles := x } := by
    unfold sampled
    split
    · obtain ⟨x, hx⟩ := e.cohSample_angles t
      exact ⟨x, congrArg Dev.dns hx⟩
    · exact ⟨e.dns.angles, rfl⟩
  obtain ⟨x, hx⟩ := hsampled
  have hcount : e.dns.count = d.dns.count + 1 := by simp [e, hpaused]
  exact ⟨sampled, if_neg hgo, by rw [hx], by rw [hx]; exact hcount, by rw [hx]; exact hpaused⟩

theorem dnsInstantUpdate_counts (s : State) (hruns : s.dev.dnsRuns = true)
    (hready : s.dev.instantReady (s.dev.dns.m * 1000000000 / s.dev.aRate) = true) (hpaused : s.dev.dns.paused = none) :
    Completes .dnsInstantUpdate s (fun t =>
      s.MainOnly t ∧ t.dev.dns.m = s.dev.dns.m + 1 ∧ t.dev.dns.count = s.dev.dns.count + 1) := by
  refine completes_onDev (f := Dev.instantUpdate) rfl ?_
  obtain ⟨e, he, hm, hcount, hnone⟩ := Dev.instantUpdate_of_ready hruns hready hpaused
  obtain ⟨x, hx⟩ := Dev.judgePause_dns hnone
  refine ⟨s.mainOnly_dev _, ?_, ?_⟩
  all_goals
    dsimp only
    rw [he, Dev.dns_withDnsState, hx]
  · exact hm
  · exact hcount

/-! ### Refresh and publication (R231 to R235) -/

theorem length_insertBy {α : Type} (le : α → α → Bool) (x : α) (l : List α) : (insertBy le x l).length = l.length + 1 := by
  induction l with
  | nil => rfl
  | cons y l ih =>
    rw [insertBy]
    split
    · rfl
    · rw [List.length_cons, ih, List.length_cons]

theorem length_sortBy {α : Type} (le : α → α → Bool) (l : List α) : (sortBy le l).length = l.length := by
  induction l with
  | nil => rfl
  | cons x l ih => rw [sortBy, length_insertBy, ih, List.length_cons]

/-- A fold of which each step makes a list one longer. -/
theorem length_foldl_fst {α β σ : Type} {f : List β × σ → α → List β × σ} (hf : ∀ a x, (f a x).1.length = a.1.length + 1)
    (l : List α) (a : List β × σ) : (l.foldl f a).1.length = a.1.length + l.length := by
  induction l generalizing a with
  | nil => rfl
  | cons x l ih => rw [List.foldl_cons, ih, hf, List.length_cons, Nat.add_assoc, Nat.add_comm 1]

/-- Tracking gives each mode a track; it neither adds nor drops one. -/
theorem Dev.length_trackModes (e : Nat) (new old : List DnsMode) (d : Dev) : (d.trackModes e new old).1.length = new.length := by
  unfold Dev.trackModes
  dsimp only
  rw [length_foldl_fst]
  · simp
  · intro a x
    split <;> simp

/-- Candidates are drawn from the free values, five for each. -/
theorem Dev.drawModes_free (n : Nat) (d : Dev) : (Dev.drawModes n d).2 = { d with free := d.free + 5 * n } := by
  induction n generalizing d with
  | zero => rfl
  | succ n ih =>
    have hrest : (Dev.drawModes (n + 1) d).2 = (Dev.drawModes n { d with free := d.free + 5 }).2 := rfl
    have hfree : d.free + 5 + 5 * n = d.free + 5 * (n + 1) := by omega
    rw [hrest, ih, ← hfree]

/-- A refresh instant at the level in force. -/
theorem Dev.takeLevel_of_same {d : Dev} (h : d.dns.level = d.dnsTarget) (r : Nat) :
    d.takeLevel r = { d with dns := { d.dns with refresh := r } } := if_pos (Or.inl h)

section
variable {d : Dev} (hrun : d.op.running = true) (hcores : d.coresIn ≠ 0) (hshed : d.dnsTarget ≠ 4) (hlevel : d.dns.level = d.dnsTarget)
  (hdue : ((d.nextRefresh * 200000000 : Nat) : Int) ≤ d.tick)
include hrun hcores hshed hdue

/-- The instant of the next refresh has come while refreshes take place. -/
theorem Dev.dnsRefresh_due : ¬ (!d.op.running || d.coresIn == 0 || d.dnsTarget == 4 ||
    decide (d.tick < ((d.nextRefresh * 200000000 : Nat) : Int))) = true := by
  rw [decide_eq_false (not_lt.2 hdue)]
  simp [hrun, hcores, hshed]

include hlevel

/-- Without identification, or while it pauses, the instant is kept and nothing is published. -/
theorem Dev.dnsRefresh_of_idle (hidle : d.idEn = false ∨ d.dns.paused.isSome = true) :
    d.dnsRefresh = { d with dns := { d.dns with refresh := d.nextRefresh } } := by
  unfold Dev.dnsRefresh
  extract_lets r t left e
  have he : e = { d with dns := { d.dns with refresh := r } } := Dev.takeLevel_of_same hlevel r
  have hstops : (left || !e.idEn || e.dns.paused.isSome) = true := by
    have hsame : e.idEn = d.idEn ∧ e.dns.paused = d.dns.paused := by
      rw [he]
      exact ⟨rfl, rfl⟩
    rcases hidle with hid | hpaused
    · simp [hsame.1, hid]
    · simp [hsame.2, hpaused]
  rw [if_neg (Dev.dnsRefresh_due hrun hcores hshed hdue), if_pos hstops, he]

/-- A refresh leaves the modes of its instant to publish, at most 64 of them (R231). -/
theorem Dev.dnsRefresh_publishes (hid : d.idEn = true) (hpaused : d.dns.paused = none) : ∃ (p : DnsPub) (empty : Bool) (next free : Nat),
    d.dnsRefresh = { d with
      dns := { d.dns with refresh := d.nextRefresh, empty := empty, trackNext := next, pend := some p }, free := free } ∧
    p.modes.length ≤ 64 ∧ p.tick = (d.nextRefresh * 200000000 : Nat) ∧ p.epoch = d.tbu.epoch ∧ (d.dns.empty = true → p.modes = []) := by
  unfold Dev.dnsRefresh
  extract_lets r t left e excl dns since
  have he : e = { d with dns := { d.dns with refresh := r } } := Dev.takeLevel_of_same hlevel r
  have hgo : ¬ (left || !e.idEn || e.dns.paused.isSome) = true := by
    have hsame : e.idEn = true ∧ e.dns.paused = none := by
      rw [he]
      exact ⟨hid, hpaused⟩
    simp [left, hlevel, hshed, hsame]
  rw [if_neg (Dev.dnsRefresh_due hrun hcores hshed hdue), if_neg hgo]
  clear_value e excl
  subst he
  split
  case isTrue hempty => exact ⟨_, _, _, _, rfl, Nat.zero_le _, rfl, rfl, fun _ => rfl⟩
  case isFalse hempty =>
    split
    rename_i n drawn hdrawn
    obtain ⟨-, rfl⟩ := Prod.mk.inj hdrawn
    split
    rename_i all last hlast
    obtain rfl := (congrArg Prod.snd hlast).symm.trans (Dev.drawModes_free ..)
    extract_lets good top
    split
    rename_i ms next htracked
    have hlen := (congrArg (fun p => p.1.length) htracked).symm.trans (Dev.length_trackModes ..)
    refine ⟨_, _, _, _, rfl, ?_, rfl, rfl, fun h => absurd h hempty⟩
    rw [length_sortBy, hlen]
    exact List.length_take_le ..

end

theorem dnsRefresh_refreshes (s : State) (hrun : s.dev.op.running = true) (hcores : s.dev.coresIn ≠ 0) (hshed : s.dev.dnsTarget ≠ 4)
    (hlevel : s.dev.dns.level = s.dev.dnsTarget) (hdue : ((s.dev.nextRefresh * 200000000 : Nat) : Int) ≤ s.dev.tick) :
    (s.dev.idEn = false ∨ s.dev.dns.paused.isSome = true → Completes .dnsRefresh s (fun t =>
      t = { s with dev := { s.dev with dns := { s.dev.dns with refresh := s.dev.nextRefresh } } })) ∧
    (s.dev.idEn = true → s.dev.dns.paused = none → Completes .dnsRefresh s (fun t => s.MainOnly t ∧
      t.dev = { s.dev with dns := t.dev.dns, free := t.dev.free } ∧ t.dev.dns.refresh = s.dev.nextRefresh ∧
      ∃ p, t.dev.dns.pend = some p ∧ p.modes.length ≤ 64 ∧ p.tick = (s.dev.nextRefresh * 200000000 : Nat) ∧ p.epoch = s.dev.tbu.epoch ∧
        (s.dev.dns.empty = true → p.modes = []))) := by
  refine ⟨fun hidle => ?_, fun hid hpaused => ?_⟩
  · refine completes_onDev (f := Dev.dnsRefresh) rfl ?_
    rw [Dev.dnsRefresh_of_idle hrun hcores hshed hlevel hdue hidle]
  · refine completes_onDev (f := Dev.dnsRefresh) rfl ?_
    obtain ⟨p, empty, next, free, he, hp⟩ := Dev.dnsRefresh_publishes hrun hcores hshed hlevel hdue hid hpaused
    rw [he]
    exact ⟨s.mainOnly_dev _, rfl, rfl, p, rfl, hp⟩

/-- The registers and the table of a publication, before its flags are evaluated. -/
def Dev.showModes (p : DnsPub) (d : Dev) : Dev :=
  (((({ d with dns := { d.dns with pend := none, shown := p } } : Dev).wrapAdd Reg.DNS_MT_SEQ 1).setReg Reg.DNS_MT_INFO
    (BitVec.ofNat 32 (p.modes.length + p.epoch * 65536))).setReg Reg.DNS_MT_TICK_LO (lo32 (twos64 p.tick))).setReg
      Reg.DNS_MT_TICK_HI (hi32 (twos64 p.tick))

theorem Dev.dnsPublish_of_pending {p : DnsPub} {d : Dev} (hpend : d.dns.pend = some p) (hruns : d.dnsRuns = true) :
    d.dnsPublish = ((d.showModes p).raise Reg.DNS_EVT 0).evalFlags p := by
  simp only [Dev.dnsPublish, hpend, hruns, Bool.not_true, Bool.false_eq_true, if_false, Dev.showModes]

theorem dnsPublication_shows (p : DnsPub) (s : State) (hpend : s.dev.dns.pend = some p) (hruns : s.dev.dnsRuns = true) :
    Completes .dnsPublication s (fun t => s.MainOnly t ∧ t.dev.dns.shown = p ∧ t.dev.dns.pend = none ∧
      t.dev.reg Reg.DNS_MT_SEQ = s.dev.reg Reg.DNS_MT_SEQ + 1 ∧
      t.dev.reg Reg.DNS_MT_INFO = BitVec.ofNat 32 (p.modes.length + p.epoch * 65536)) := by
  refine completes_onDev (f := Dev.dnsPublish) rfl ?_
  have hflags : (s.dev.showModes p).FlagsOnly (((s.dev.showModes p).raise Reg.DNS_EVT 0).evalFlags p) :=
    (Dev.FlagsOnly.of_keeps (Dev.keeps_raise _ _ _ (Or.inl (by decide)))).trans (Dev.flagsOnly_evalFlags ..)
  rw [Dev.dnsPublish_of_pending hpend hruns]
  refine ⟨s.mainOnly_dev _, congrArg DnsS.shown hflags.dns, congrArg DnsS.pend hflags.dns, ?_, ?_⟩
  · exact (hflags.regs _ (by decide) (by decide)).trans (by
      rw [Dev.showModes, Dev.reg_setReg_ne (by decide), Dev.reg_setReg_ne (by decide), Dev.reg_setReg_ne (by decide), Dev.reg_wrapAdd,
        if_pos rfl]
      rfl)
  · exact (hflags.regs _ (by decide) (by decide)).trans (by simp [Dev.showModes])

/-! ### Forced oscillations (R236, R237, R240) -/

/-- What the steps of an evaluation of forced oscillations may move; the time of the next evaluation stays. -/
structure Dev.FoWork (d e : Dev) : Prop where
  due : e.dns.foDue = d.dns.foDue
  frame : e = { d with dns := e.dns, free := e.free, regs := e.regs, host := e.host, out := e.out }

theorem Dev.FoWork.refl (d : Dev) : d.FoWork d := ⟨rfl, rfl⟩

theorem Dev.FoWork.trans {a b c : Dev} (h : a.FoWork b) (k : b.FoWork c) : a.FoWork c :=
  ⟨k.due.trans h.due, by rw [k.frame, h.frame]⟩

theorem Dev.FoWork.foldl {α : Type} {f : Dev → α → Dev} (hf : ∀ (e : Dev) (x : α), e.FoWork (f e x)) (l : List α) (d : Dev) :
    d.FoWork (l.foldl f d) :=
  List.foldlRecOn l f (motive := d.FoWork) (Dev.FoWork.refl d) fun e he x _ => he.trans (hf e x)

theorem Dev.FoWork.foldl_fst {α : Type} {f : Dev × Bool → α → Dev × Bool} (hf : ∀ (c : Dev × Bool) (x : α), c.1.FoWork (f c x).1)
    {l : List α} {a b : Dev × Bool} (h : l.foldl f a = b) : a.1.FoWork b.1 :=
  h ▸ List.foldlRecOn l f (motive := fun c => a.1.FoWork c.1) (Dev.FoWork.refl a.1) fun c hc x _ => hc.trans (hf c x)

theorem Dev.foWork_free (n : Nat) (d : Dev) : d.FoWork { d with free := n } := ⟨rfl, rfl⟩

theorem Dev.foWork_entries (m : KMap FoEntry) (d : Dev) : d.FoWork { d with dns := { d.dns with fo := m } } := ⟨rfl, rfl⟩

theorem Dev.foWork_bump (off n : Nat) (d : Dev) : d.FoWork (d.bump off n) := ⟨rfl, rfl⟩

theorem Dev.foWork_raise (off bit : Nat) (d : Dev) : d.FoWork (d.raise off bit) := by
  unfold Dev.raise Dev.msix
  extract_lets v was e
  split_ifs <;> exact ⟨rfl, rfl⟩

/-- Candidates are drawn from the free values, five for each. -/
theorem Dev.drawCands_free (n : Nat) (d : Dev) : (Dev.drawCands n d).2 = { d with free := d.free + 5 * n } := by
  induction n generalizing d with
  | zero => rfl
  | succ n ih =>
    have hrest : (Dev.drawCands (n + 1) d).2 = (Dev.drawCands n { d with free := d.free + 5 }).2 := rfl
    have hfree : d.free + 5 + 5 * n = d.free + 5 * (n + 1) := by omega
    rw [hrest, ih, ← hfree]

/-- An entry's step takes the next identifier at most. -/
theorem Dev.foWork_foStep (x : FoEntry) (c : Option (Nat × Word × Word × Nat)) (d : Dev) : d.FoWork (d.foStep x c).2.2 := by
  unfold Dev.foStep
  extract_lets age
  split
  · extract_lets y
    split_ifs <;> exact ⟨rfl, rfl⟩
  · split_ifs <;> exact Dev.FoWork.refl d

theorem Dev.foWork_locate (x : FoEntry) (d : Dev) : d.FoWork (d.locate x).2 := by
  unfold Dev.locate
  split_ifs
  · exact Dev.FoWork.refl d
  · exact Dev.foWork_free _ d

/-- The time of the next evaluation: 1 s later, or 2 s at level 3. -/
def Dev.foDeferred (d : Dev) : Dev :=
  { d with dns := { d.dns with foDue := d.dns.foDue + (if d.dnsLevel = 3 then 2000000000 else 1000000000 : Nat) } }

/-- An evaluation that is due sets the time of the next; its other steps leave that time. -/
theorem Dev.foWork_foEvaluate {d : Dev} (hruns : d.dnsRuns = true) (hid : d.idEn = true) (hfo : d.rbit Reg.DNS_CTRL 3 = true)
    (hdue : d.dns.foDue ≤ d.tick) : d.foDeferred.FoWork d.foEvaluate := by
  have hgo : ¬ (!d.dnsRuns || !d.idEn || !d.rbit Reg.DNS_CTRL 3 || decide (d.tick < d.dns.foDue)) = true := by
    rw [decide_eq_false (not_lt.2 hdue)]
    simp [hruns, hid, hfo]
  unfold Dev.foEvaluate
  rw [if_neg hgo]
  extract_lets dns step e near
  split
  rename_i n drawn hdrawn
  obtain ⟨-, rfl⟩ := Prod.mk.inj hdrawn
  split
  rename_i cs last hlast
  obtain rfl := (congrArg Prod.snd hlast).symm.trans (Dev.drawCands_free ..)
  extract_lets taken
  split
  rename_i tracked chg htracked
  have hdrawn : d.foDeferred.FoWork { e with free := e.free + 1 + 5 * (n % (e.foWinS * min 400 (4 * e.aRate) / 10 + 1)) } :=
    Dev.foWork_free _ _
  have htrack := Dev.FoWork.foldl_fst ?step htracked
  case step =>
    intro a p
    split
    rename_i y ch e' hy
    have hy' := a.1.foWork_foStep p.2 (cs.find? (fun c => near p.2 c))
    rw [hy] at hy'
    exact hy'.trans (Dev.foWork_entries _ _)
  extract_lets entered located
  have hentered : tracked.FoWork entered := by
    refine Dev.FoWork.foldl (fun e' c => ?_) _ _
    split
    · exact Dev.foWork_entries _ _
    · exact Dev.foWork_bump _ _ _
  have hlocated : entered.FoWork located := by
    refine Dev.FoWork.foldl (fun e' p => ?_) _ _
    have hx := e'.foWork_locate p.2
    split
    rename_i y e'' hy
    rw [hy] at hx
    exact hx.trans (Dev.foWork_entries _ _)
  have hall := ((hdrawn.trans htrack).trans hentered).trans hlocated
  split
  · exact hall.trans (Dev.foWork_raise _ _ _)
  · exact hall

theorem dnsFoEvaluation_defers (s : State) (hruns : s.dev.dnsRuns = true) (hid : s.dev.idEn = true)
    (hfo : s.dev.rbit Reg.DNS_CTRL 3 = true) (hdue : s.dev.dns.foDue ≤ s.dev.tick) :
    Completes .dnsFoEvaluation s (fun t => s.MainOnly t ∧
      t.dev.dns.foDue = s.dev.dns.foDue + (if s.dev.dnsLevel = 3 then 2000000000 else 1000000000) ∧
      t.dev = { s.dev with dns := t.dev.dns, free := t.dev.free, regs := t.dev.regs, host := t.dev.host, out := t.dev.out }) := by
  refine completes_onDev (f := Dev.foEvaluate) rfl ?_
  have hwork := Dev.foWork_foEvaluate hruns hid hfo hdue
  refine ⟨s.mainOnly_dev _, hwork.due.trans ?_, hwork.frame⟩
  rw [Dev.foDeferred, Nat.cast_ite]
  rfl

/-! ### Coherency (R241 to R245) -/

/-- The start of the window of the second `k`. -/
def Dev.cohWindow (k : Nat) (d : Dev) : Int := ((k : Int) - (clampNat 2 60 (d.fld Reg.DNS_COH 0 6) : Int)) * 1000000000

/-- The second `k` is taken, whatever its result. -/
def Dev.cohTaken (k : Nat) (d : Dev) : Dev := { d with dns := { d.dns with cohSec := k } }

section
variable {k : Nat} {d : Dev} (hruns : d.dnsRuns = true) (hcoh : d.rbit Reg.DNS_CTRL 4 = true) (hk : k = d.dns.cohSec + 1)
  (hdue : ((k * 1000000000 : Nat) : Int) ≤ d.tick)
include hruns hcoh hdue

/-- A result is judged once its instants are analysed, or once it is late. -/
theorem Dev.coherency_due {late : Bool} (h : late = true ∨ k * d.aRate < d.dns.m) :
    ¬ (!d.dnsRuns || !d.rbit Reg.DNS_CTRL 4 || decide (d.tick < ((k * 1000000000 : Nat) : Int)) ||
      (!late && decide (d.dns.m ≤ k * d.aRate))) = true := by
  rw [decide_eq_false (not_lt.2 hdue)]
  rcases h with h | h
  · simp [hruns, hcoh, h]
  · simp [hruns, hcoh, h]

include hk

/-- Without a full window since the last restart there is no result. -/
theorem Dev.coherency_of_short (hshort : d.cohWindow k < d.dns.cohAt) (hm : k * d.aRate < d.dns.m) : d.coherency = d.cohTaken k := by
  subst hk
  exact (if_neg (Dev.coherency_due hruns hcoh hdue (Or.inr hm))).trans (if_pos hshort)

/-- A late result is discarded and counted. -/
theorem Dev.coherency_of_late (hfull : d.dns.cohAt ≤ d.cohWindow k) (hlate : ((k * 1000000000 + 900000000 : Nat) : Int) < d.tick) :
    d.coherency = (d.cohTaken k).bump Reg.DNS_COH_LATE 1 := by
  subst hk
  exact (if_neg (Dev.coherency_due hruns hcoh hdue (Or.inl (decide_eq_true hlate)))).trans
    ((if_neg (not_lt.2 hfull)).trans (if_pos (decide_eq_true hlate)))

/-- A result in time is counted, raises its event and goes to Safelight. -/
theorem Dev.coherency_of_full (hfull : d.dns.cohAt ≤ d.cohWindow k) (htime : d.tick ≤ ((k * 1000000000 + 900000000 : Nat) : Int))
    (hm : k * d.aRate < d.dns.m) : ∃ (excess : Nat) (labels : KMap Nat) (entries : List (Nat × Option Nat)) (info : Word),
      d.coherency = (((Dev.wrapAdd Reg.DNS_COH_SEQ 1 { (d.cohTaken k).bump Reg.DNS_COH_OVER excess with
        dns := { (d.cohTaken k).dns with labels := labels, vec := some { sec := k, entries := entries } } }).setReg
          Reg.DNS_COH_INFO info).raise Reg.DNS_EVT 3) := by
  subst hk
  have hlate : ¬ decide (((((d.dns.cohSec + 1) * 1000000000 + 900000000 : Nat) : Int)) < d.tick) = true := by simpa using htime
  unfold Dev.coherency
  extract_lets second win late dns taken
  have hwindow : ¬ ((second : Int) - (win : Int)) * 1000000000 < taken.dns.cohAt := not_lt.2 hfull
  rw [if_neg (Dev.coherency_due hruns hcoh hdue (Or.inr hm)), if_neg hwindow, if_neg hlate]
  exact ⟨_, _, _, _, rfl⟩

end

theorem dnsCoherency_counts (k : Nat) (s : State) (hruns : s.dev.dnsRuns = true) (hcoh : s.dev.rbit Reg.DNS_CTRL 4 = true)
    (hk : k = s.dev.dns.cohSec + 1) (hdue : ((k * 1000000000 : Nat) : Int) ≤ s.dev.tick) :
    (¬ s.dev.dns.cohAt ≤ s.dev.cohWindow k → k * s.dev.aRate < s.dev.dns.m →
      Completes .dnsCoherency s (fun t => t = { s with dev := s.dev.cohTaken k })) ∧
    (s.dev.dns.cohAt ≤ s.dev.cohWindow k → ((k * 1000000000 + 900000000 : Nat) : Int) < s.dev.tick →
      Completes .dnsCoherency s (fun t => s.MainOnly t ∧ t.dev.dns = { s.dev.dns with cohSec := k } ∧
        t.dev.reg Reg.DNS_COH_LATE = (s.dev.reg Reg.DNS_COH_LATE).satAdd 1 ∧
        t.dev = { s.dev with dns := t.dev.dns, regs := t.dev.regs })) ∧
    (s.dev.dns.cohAt ≤ s.dev.cohWindow k → s.dev.tick ≤ ((k * 1000000000 + 900000000 : Nat) : Int) → k * s.dev.aRate < s.dev.dns.m →
      Completes .dnsCoherency s (fun t => s.MainOnly t ∧ t.dev.dns.cohSec = k ∧
        t.dev.reg Reg.DNS_COH_SEQ = s.dev.reg Reg.DNS_COH_SEQ + 1 ∧ t.dev.rbit Reg.DNS_EVT 3 = true ∧
        ∃ v, t.dev.dns.vec = some v ∧ v.sec = k)) := by
  refine ⟨fun hshort hm => ?short, fun hfull hlate => ?late, fun hfull htime hm => ?full⟩
  all_goals refine completes_onDev (f := Dev.coherency) rfl ?_
  case short => rw [Dev.coherency_of_short hruns hcoh hk hdue (not_le.1 hshort) hm]
  case late =>
    rw [Dev.coherency_of_late hruns hcoh hk hdue hfull hlate]
    exact ⟨s.mainOnly_dev _, rfl, (Dev.reg_bump ..).trans (if_pos rfl), rfl⟩
  case full =>
    obtain ⟨excess, labels, entries, info, he⟩ := Dev.coherency_of_full hruns hcoh hk hdue hfull htime hm
    rw [he]
    refine ⟨s.mainOnly_dev _, ?_, ?_, Dev.rbit_raise _ _ _ (by decide), ⟨k, entries⟩, ?_, rfl⟩
    · dsimp only
      rw [Dev.raise_dns]
      rfl
    · dsimp only
      rw [Dev.reg_raise, if_neg (by decide), Dev.reg_setReg_ne (by decide), Dev.reg_wrapAdd, if_pos rfl]
      exact congrArg (· + 1) (Dev.reg_setReg_ne (by decide) _ (s.dev.cohTaken k))
    · dsimp only
      rw [Dev.raise_dns]
      rfl

/-! ### The checks of the cores and the end of the warm-up (R251, R253) -/

theorem completes_dnsCoreCheck {core : Nat} {pass ue : Bool} {s : State} {P : State → Prop} (hcore : core < 16)
    (hlive : s.dev.dns.failed.contains core = false) (hop : s.dev.op.running = true ∨ s.dev.op = .config)
    (h : P { s with dev := s.dev.coreCheck core pass ue }) : Completes (.dnsCoreCheck core pass ue) s P := by
  have hchecks : (s.dev.op.running || s.dev.op == .config) = true := by simpa using hop
  exact completes_if (p := (decide (core < 16) && !s.dev.dns.failed.contains core && (s.dev.op.running || s.dev.op == .config)) = true) rfl
    (by rw [hchecks, hlive, decide_eq_true hcore]; rfl) h

section
variable {core : Nat} {d : Dev}

theorem Dev.coreCheck_uncorrectable (pass : Bool) : d.coreCheck core pass true = d.coreFault core 2 := rfl

theorem Dev.coreCheck_passed :
    d.coreCheck core true false = { d with dns := { d.dns with kat := KMap.del d.dns.kat core } } := rfl

theorem Dev.coreCheck_first (h : KMap.getD d.dns.kat core 0 = 0) :
    d.coreCheck core false false = { d with dns := { d.dns with kat := KMap.put d.dns.kat core 1 } } := by
  simp [Dev.coreCheck, h]

theorem Dev.coreCheck_second (h : 1 ≤ KMap.getD d.dns.kat core 0) : d.coreCheck core false false = d.coreFault core 1 := by
  have hsecond : ¬ KMap.getD d.dns.kat core 0 + 1 < 2 := by omega
  simp only [Dev.coreCheck, hsecond, Bool.false_eq_true, if_false]

end

theorem dnsCoreCheck_fails (core : Nat) (s : State) (hcore : core < 16) (hlive : s.dev.dns.failed.contains core = false)
    (hop : s.dev.op.running = true ∨ s.dev.op = .config) :
    (∀ pass : Bool, Completes (.dnsCoreCheck core pass true) s (fun t => t = { s with dev := s.dev.coreFault core 2 })) ∧
    Completes (.dnsCoreCheck core true false) s (fun t =>
      t = { s with dev := { s.dev with dns := { s.dev.dns with kat := KMap.del s.dev.dns.kat core } } }) ∧
    (KMap.getD s.dev.dns.kat core 0 = 0 → Completes (.dnsCoreCheck core false false) s (fun t =>
      t = { s with dev := { s.dev with dns := { s.dev.dns with kat := KMap.put s.dev.dns.kat core 1 } } })) ∧
    (1 ≤ KMap.getD s.dev.dns.kat core 0 → Completes (.dnsCoreCheck core false false) s (fun t =>
      t = { s with dev := s.dev.coreFault core 1 })) := by
  refine ⟨fun pass => ?_, ?_, fun hfirst => ?_, fun hsecond => ?_⟩
  all_goals refine completes_dnsCoreCheck hcore hlive hop ?_
  · rw [Dev.coreCheck_uncorrectable]
  · rw [Dev.coreCheck_passed]
  · rw [Dev.coreCheck_first hfirst]
  · rw [Dev.coreCheck_second hsecond]

theorem dnsWarmupEnd_ends (s : State) (hwarming : s.dev.dns.warming = true)
    (hdue : s.dev.dns.idAt + (s.dev.warmupS * 1000000000 : Nat) ≤ s.dev.tick) :
    Completes .dnsWarmupEnd s (fun t => s.MainOnly t ∧ t.dev.dns.warming = false) := by
  refine completes_if (p := (s.dev.dns.warming && decide (s.dev.dns.idAt + (s.dev.warmupS * 1000000000 : Nat) ≤ s.dev.tick)) = true) rfl
    (by rw [hwarming, decide_eq_true hdue]; rfl) ⟨s.mainOnly_dev _, ?_⟩
  exact congrArg DnsS.warming (Dev.dns_withDnsState ..)

/-! ### `DNS_RESTART` and `DNS_FAIL` (R250, R255, R256) -/

theorem completes_dnsRestart {h : CmdHdr} {mask : Nat} {s : State} {P : State → Prop}
    (ha : s.dev.Admits h 0x50 [] true [.run, .degraded]) (hP : P { s with dev := s.dev.restartCmd h mask }) :
    Completes (.dnsRestart h mask) s P := completes_cmd (body := Dev.restartCmd h mask) rfl ha hP

theorem completes_dnsFail {h : CmdHdr} {core : Nat} {s : State} {P : State → Prop} (ha : s.dev.Admits h 0x51 [] true legalCRD)
    (hP : P { s with dev := s.dev.dnsFailCmd h core }) : Completes (.dnsFail h core) s P :=
  completes_cmd (body := Dev.dnsFailCmd h core) rfl ha hP

theorem Dev.restartCmd_of_none {mask : Nat} (hmask : mask % 8 = 0) (h : CmdHdr) (d : Dev) :
    d.restartCmd h mask = d.complete h 0x50 2 [] := if_pos hmask

theorem Dev.restartCmd_of_some {mask : Nat} (hmask : mask % 8 ≠ 0) (h : CmdHdr) (d : Dev) : d.restartCmd h mask =
    (d.dnsRestartNoted (mask.testBit 0) (mask.testBit 1) (mask.testBit 2)).complete h 0x50 0 [] := if_neg hmask

/-- A restart of identification warms up again from now, with nothing waiting to be published (R250). -/
theorem Dev.dnsRestart_warms (fo coh : Bool) (d : Dev) : (d.dnsRestart true fo coh).dns.warming = true ∧
    (d.dnsRestart true fo coh).dns.pend = none ∧ (d.dnsRestart true fo coh).dns.idAt = d.tick ∧
    (d.dnsRestart true fo coh).dns.paused = none := by
  unfold Dev.dnsRestart
  rw [Dev.raise_dns]
  cases fo <;> cases coh <;> exact ⟨rfl, rfl, rfl, rfl⟩

theorem Dev.dnsRestartNoted_warms (fo coh : Bool) (d : Dev) : (d.dnsRestartNoted true fo coh).dns.warming = true ∧
    (d.dnsRestartNoted true fo coh).dns.pend = none ∧ (d.dnsRestartNoted true fo coh).dns.idAt = d.tick ∧
    (d.dnsRestartNoted true fo coh).dns.paused = none := by
  rw [Dev.dnsRestartNoted, Dev.dns_withDnsState]
  exact d.dnsRestart_warms fo coh

theorem dnsRestart_restarts (h : CmdHdr) (mask : Nat) (s : State) (ha : s.dev.Admits h 0x50 [] true [.run, .degraded]) :
    (mask % 8 = 0 → Completes (.dnsRestart h mask) s (fun t =>
      t = { s with dev := s.dev.complete h 0x50 2 [] } ∧ Dev.Keeps noReg s.dev t.dev)) ∧
    (mask.testBit 0 = true → Completes (.dnsRestart h mask) s (fun t => s.MainOnly t ∧ t.dev.dns.warming = true ∧
      t.dev.dns.pend = none ∧ t.dev.dns.idAt = s.dev.tick ∧ t.dev.dns.paused = none)) ∧
    (mask % 8 ≠ 0 → Completes (.dnsRestart h mask) s (fun t => t = { s with dev :=
      ((s.dev.dnsRestartNoted (mask.testBit 0) (mask.testBit 1) (mask.testBit 2)).complete h 0x50 0 []) })) := by
  refine ⟨fun hnone => ?none, fun hid => ?id, fun hsome => ?some⟩
  all_goals refine completes_dnsRestart ha ?_
  case none =>
    rw [Dev.restartCmd_of_none hnone]
    exact ⟨rfl, Dev.keeps_complete ..⟩
  case id =>
    have hsome : mask % 8 ≠ 0 := by
      have hodd : mask % 2 = 1 := by simpa using hid
      omega
    rw [Dev.restartCmd_of_some hsome, hid]
    refine ⟨s.mainOnly_dev _, ?_⟩
    dsimp only
    rw [Dev.complete_dns]
    exact s.dev.dnsRestartNoted_warms _ _
  case some => rw [Dev.restartCmd_of_some hsome]

theorem Dev.dnsFailCmd_of_absent {core : Nat} (hcore : 15 < core) (h : CmdHdr) (d : Dev) :
    d.dnsFailCmd h core = d.complete h 0x51 2 [] := if_pos hcore

theorem Dev.dnsFailCmd_of_failed {core : Nat} {d : Dev} (hcore : core ≤ 15) (hfailed : d.dns.failed.contains core = true) (h : CmdHdr) :
    d.dnsFailCmd h core = d.refuse h 0x51 6 1 0xFFFF [] := (if_neg (not_lt.2 hcore)).trans (if_pos hfailed)

theorem Dev.dnsFailCmd_of_live {core : Nat} {d : Dev} (hcore : core ≤ 15) (hlive : d.dns.failed.contains core = false) (h : CmdHdr) :
    d.dnsFailCmd h core = (d.coreFault core 3).complete h 0x51 0 [] :=
  (if_neg (not_lt.2 hcore)).trans (if_neg (Bool.eq_false_iff.1 hlive))

theorem dnsFail_fails (h : CmdHdr) (core : Nat) (s : State) (ha : s.dev.Admits h 0x51 [] true legalCRD) :
    (15 < core → Completes (.dnsFail h core) s (fun t =>
      t = { s with dev := s.dev.complete h 0x51 2 [] } ∧ Dev.Keeps noReg s.dev t.dev)) ∧
    (core ≤ 15 → s.dev.dns.failed.contains core = true → Completes (.dnsFail h core) s (fun t =>
      t = { s with dev := s.dev.refuse h 0x51 6 1 0xFFFF [] } ∧ Dev.Keeps noReg s.dev t.dev)) ∧
    (core ≤ 15 → s.dev.dns.failed.contains core = false → Completes (.dnsFail h core) s (fun t =>
      t = { s with dev := (s.dev.coreFault core 3).complete h 0x51 0 [] })) := by
  refine ⟨fun hcore => ?absent, fun hcore hfailed => ?failed, fun hcore hlive => ?live⟩
  all_goals refine completes_dnsFail ha ?_
  case absent =>
    rw [Dev.dnsFailCmd_of_absent hcore]
    exact ⟨rfl, Dev.keeps_complete ..⟩
  case failed =>
    rw [Dev.dnsFailCmd_of_failed hcore hfailed]
    exact ⟨rfl, Dev.keeps_refuse ..⟩
  case live => rw [Dev.dnsFailCmd_of_live hcore hlive]

/-- Settles O40, clause by clause (R228, R231, R235, R236, R241, R250, R251, R253, R255, R256). That nothing is refreshed in a pause
and when a coherency result is judged are log entry 57. -/
theorem densitometer : Obligations.Densitometer :=
  ⟨⟨dnsInstantUpdate_counts, dnsRefresh_refreshes, dnsPublication_shows, dnsFoEvaluation_defers, dnsCoherency_counts,
    dnsCoreCheck_fails, dnsWarmupEnd_ends⟩, dnsRestart_restarts, dnsFail_fails⟩

end Sys2Proof.Machine

/-! # Shutter (chapter 8)

The start of a capture: what it leaves, what the mark of a mask violation then changes, and the state in which that mark reaches
another capture than the one begun. -/

namespace Sys2Proof.Machine

theorem Dev.grp_setGrp (g n : Nat) (x : ShtGroup) (d : Dev) : (d.setGrp g x).grp n = if n = g then x else d.grp n := by
  rw [Dev.grp, Dev.setGrp, KMap.getD, KMap.get?_put]
  split <;> rfl

/-! ### A capture begins (R270, R273) -/

/-- What a trigger gives the capture it starts. -/
structure Capture.Begun (e : ShtEv) (slot id : Nat) (c : Capture) : Prop where
  id : c.id = id
  g : c.g = e.g
  slot : c.slot = slot
  st : c.st = 1
  t0 : c.t0 = e.inst
  primary : c.primary = e.src
  released : c.released = false

theorem Dev.foldl_queueTrig {α : Type} (f : α → ShtEv) (l : List α) (d : Dev) :
    l.foldl (fun d x => d.queueTrig (f x)) d = { d with sht := { d.sht with evs := d.sht.evs ++ l.map f } } := by
  induction l generalizing d with
  | nil => simp
  | cons x l ih =>
    rw [List.foldl_cons, ih, List.map_cons, ← List.singleton_append, ← List.append_assoc]
    rfl

/-- The new capture is the last, its group records, the identifier is taken, and the groups that follow it are told. -/
theorem Dev.startCapture_begins (e : ShtEv) (slot : Nat) (d : Dev) : ∃ (c : Capture) (told : List ShtEv),
    c.Begun e slot (d.reg Reg.SHT_NEXT_ID).toNat ∧
    d.startCapture e slot = { (d.wrapAdd Reg.SHT_NEXT_ID 1).setReg (Reg.SHT_GRP_LAST_ID e.g) (d.reg Reg.SHT_NEXT_ID) with
      sht := { d.sht with
        groups := KMap.put d.sht.groups e.g { d.grp e.g with st := 2 }, caps := d.sht.caps ++ [c], evs := d.sht.evs ++ told } } := by
  unfold Dev.startCapture
  extract_lets g x t rg chans start id flags fnom c taken shown sht begun
  have hc : c.Begun e slot id := ⟨rfl, rfl, rfl, rfl, rfl, rfl, rfl⟩
  have hid : BitVec.ofNat 32 id = d.reg Reg.SHT_NEXT_ID := by simp [id]
  have hbegun : begun = { (d.wrapAdd Reg.SHT_NEXT_ID 1).setReg (Reg.SHT_GRP_LAST_ID e.g) (d.reg Reg.SHT_NEXT_ID) with
      sht := { d.sht with groups := KMap.put d.sht.groups e.g { d.grp e.g with st := 2 }, caps := d.sht.caps ++ [c] } } := by
    rw [← hid]
    rfl
  split
  · exact ⟨c, [], hc, by rw [hbegun, List.append_nil]⟩
  · exact ⟨c, _, hc, by rw [Dev.foldl_queueTrig, hbegun]⟩

/-- The group records the capture begun, unless it still records an earlier one. -/
theorem Dev.recording_startCapture (e : ShtEv) (slot : Nat) (d : Dev) : ∃ c : Capture,
    c.Begun e slot (d.reg Reg.SHT_NEXT_ID).toNat ∧ c ∈ (d.startCapture e slot).sht.caps ∧
    (d.startCapture e slot).recording e.g = (d.recording e.g).or (some c) := by
  obtain ⟨c, told, hc, heq⟩ := d.startCapture_begins e slot
  refine ⟨c, hc, by simp [heq], ?_⟩
  simp [Dev.recording, heq, List.find?_append, hc.g, hc.st]

/-- `t` is `d` with a capture begun in a record slot for a trigger. -/
structure Dev.Started (e : ShtEv) (slot : Nat) (d t : Dev) : Prop where
  next : t.reg Reg.SHT_NEXT_ID = d.reg Reg.SHT_NEXT_ID + 1
  last : t.reg (Reg.SHT_GRP_LAST_ID e.g) = d.reg Reg.SHT_NEXT_ID
  st : (t.grp e.g).st = 2
  cap : ∃ c ∈ t.sht.caps, c.Begun e slot (d.reg Reg.SHT_NEXT_ID).toNat
  frame : t = { d with regs := t.regs, sht := t.sht }

theorem Dev.started_startCapture (e : ShtEv) (slot : Nat) (d : Dev) : d.Started e slot (d.startCapture e slot) := by
  obtain ⟨c, told, hc, heq⟩ := d.startCapture_begins e slot
  have hne : Reg.SHT_NEXT_ID ≠ Reg.SHT_GRP_LAST_ID e.g := by
    show 0xD0014 ≠ 0xD010C + 0x40 * e.g
    omega
  rw [heq]
  refine ⟨?next, ?last, ?st, ⟨c, by simp, hc⟩, rfl⟩
  case next => exact (Dev.reg_setReg_ne hne ..).trans ((Dev.reg_wrapAdd ..).trans (if_pos rfl))
  case last => exact (Dev.reg_setReg ..).trans (if_pos rfl)
  case st => exact congrArg ShtGroup.st ((Dev.grp_setGrp e.g e.g { d.grp e.g with st := 2 } d).trans (if_pos rfl))

/-! ### The mark of a mask violation (R276) -/

theorem Capture.mark_frame (c : Capture) (m : CapMark) : ∃ marks flags, c.mark m = { c with marks := marks, flags := flags } := by
  unfold Capture.mark
  dsimp only
  split
  · exact ⟨_, _, rfl⟩
  split
  · split
    · exact ⟨_, _, rfl⟩
    · exact ⟨_, _, rfl⟩
  · exact ⟨_, _, rfl⟩

/-- The mark goes to the capture that the group records, and changes its marks and flags. -/
theorem Dev.markViolation_of_held {g : Nat} {c : Capture} {first : Int} {d : Dev} (hc : d.recording g = some c)
    (hheld : c.start ≤ first ∧ first < c.endT) (val : Nat) :
    ∃ marks flags, d.markViolation g val first = d.putCap { c with marks := marks, flags := flags } := by
  simp only [Dev.markViolation, hc, if_pos hheld]
  obtain ⟨marks, flags, hm⟩ := c.mark_frame { typ := 4, chan := (gW (d.grp g).tab g 7).field 8 11, idx := c.index first, val := val }
  exact ⟨marks, flags ||| 64, by rw [hm]⟩

/-- A sample outside the capture is not marked. -/
theorem Dev.markViolation_of_outside {g : Nat} {c : Capture} {first : Int} {d : Dev} (hc : d.recording g = some c)
    (hout : ¬ (c.start ≤ first ∧ first < c.endT)) (val : Nat) : d.markViolation g val first = d := by
  simp only [Dev.markViolation, hc, if_neg hout]

/-- Storing a capture stores it under its identifier and group, and leaves no other there. -/
theorem Dev.eq_of_mem_putCap {c x : Capture} {d : Dev} (hx : x ∈ (d.putCap c).sht.caps) (hid : x.id = c.id) (hg : x.g = c.g) :
    x = c := by
  obtain ⟨y, -, rfl⟩ := List.mem_map.1 hx
  split at hid
  case isTrue hsame => exact if_pos hsame
  case isFalse hother =>
    rw [if_neg hother] at hg
    exact absurd ⟨hid, hg⟩ hother

theorem Dev.mem_putCap {c x : Capture} {d : Dev} (hx : x ∈ d.sht.caps) (hid : x.id = c.id) (hg : x.g = c.g) :
    c ∈ (d.putCap c).sht.caps := List.mem_map.2 ⟨x, hx, if_pos ⟨hid, hg⟩⟩

/-- Storing a begun capture again leaves it begun. -/
theorem Dev.Started.putCap {e : ShtEv} {slot : Nat} {d t : Dev} {c x : Capture} (h : d.Started e slot t) (hx : x ∈ t.sht.caps)
    (hid : x.id = c.id) (hg : x.g = c.g) (hc : c.Begun e slot (d.reg Reg.SHT_NEXT_ID).toNat) : d.Started e slot (t.putCap c) :=
  ⟨h.next, h.last, h.st, ⟨c, Dev.mem_putCap hx hid hg, hc⟩, by rw [Dev.putCap, h.frame]⟩

/-! ### A trigger of an armed group (R270, Table 8.7) -/

section
variable {e : ShtEv} {slot : Nat} {d : Dev} (hst : (d.grp e.g).st = 1) (hfree : d.freeSlot e.g = some slot)
include hst hfree

theorem Dev.triggerGroup_of_free : d.triggerGroup e = (0, d.startCapture e slot) := by
  simp [Dev.triggerGroup, hst, hfree]

theorem Dev.trigger_of_unmarked (hmark : e.mark = none) : (d.trigger e).2 = d.startCapture e slot := by
  simp only [Dev.trigger, Dev.triggerGroup_of_free hst hfree, hmark]

theorem Dev.trigger_of_marked {v : Nat} (hmark : e.mark = some v) :
    (d.trigger e).2 = (d.startCapture e slot).markViolation e.g v e.inst := by
  simp [Dev.trigger, Dev.triggerGroup_of_free hst hfree, hmark]

/-- Where the group records nothing before, the mark reaches the capture begun, and that is the capture the trigger starts. -/
theorem Dev.started_trigger (hnone : d.recording e.g = none) : d.Started e slot (d.trigger e).2 := by
  have hstarted := d.started_startCapture e slot
  cases hmark : e.mark with
  | none => rwa [Dev.trigger_of_unmarked hst hfree hmark]
  | some v =>
    rw [Dev.trigger_of_marked hst hfree hmark]
    obtain ⟨c, hc, hmem, hrec⟩ := d.recording_startCapture e slot
    rw [hnone, Option.none_or] at hrec
    by_cases hheld : c.start ≤ e.inst ∧ e.inst < c.endT
    · obtain ⟨marks, flags, hmarked⟩ := Dev.markViolation_of_held hrec hheld v
      rw [hmarked]
      obtain ⟨hid, hg, hslot, hrecs, ht0, hprimary, hreleased⟩ := hc
      exact hstarted.putCap hmem rfl rfl ⟨hid, hg, hslot, hrecs, ht0, hprimary, hreleased⟩
    · rwa [Dev.markViolation_of_outside hrec hheld]

end

theorem exec_captureTrigger_of_running {e : ShtEv} {rest : List ShtEv} {s : State} (hevs : s.dev.sht.evs = e :: rest)
    (hrun : s.dev.op.running = true) : exec .captureTrigger s =
      .next { s with dev := (Dev.trigger e { s.dev with sht := { s.dev.sht with evs := rest } }).2 } := by
  show execCaptureTrigger s = _
  simp [execCaptureTrigger, State.onDev, hevs, hrun]

/-- O41's clause on the start of a capture, where the armed group records nothing. -/
theorem captureTrigger_starts {e : ShtEv} {rest : List ShtEv} {k : Nat} {s : State} (hevs : s.dev.sht.evs = e :: rest)
    (hrun : s.dev.op.running = true) (hst : (s.dev.grp e.g).st = 1) (hfree : s.dev.freeSlot e.g = some k)
    (hnone : s.dev.recording e.g = none) :
    Completes .captureTrigger s (fun t => s.MainOnly t ∧ s.dev.Started e k t.dev) := by
  obtain ⟨hnext, hlast, hgrp, hcap, hframe⟩ :=
    Dev.started_trigger (d := { s.dev with sht := { s.dev.sht with evs := rest } }) hst hfree hnone
  exact ⟨_, exec_captureTrigger_of_running hevs hrun, s.mainOnly_dev _, hnext, hlast, hgrp, hcap, hframe⟩

/-! ### A group that is armed while it records -/

/-- A capture of group 0 that has not closed, in record slot 0, under the identifier of the next capture. -/
def unclosedCapture : Capture :=
  { id := 0, g := 0, slot := 0, st := 1, reason := 0, flags := 0, srcs := [], primary := 0, details := [], t0 := 0, i0 := 0, rg := 0,
    epoch := 0, tq := 0, utc := 0, raw0 := 0, fnom := 0, endT := 65536000000, start := 0, exts := 0, marks := [], chans := [], code := 0,
    off := none, rawLen := 0, data := [], released := false, gen := 0 }

/-- A mask violation of group 0 that holds its mark with it. -/
def markedViolation : ShtEv := { g := 0, src := 77, inst := 0, detail := 0xFFFF, mark := some 0 }

/-- RUN with group 0 armed, its capture unclosed, and triggers on their way. -/
def Dev.armedUnclosed (evs : List ShtEv) : Dev :=
  { State.reset.dev with
    op := .run
    sht := { State.reset.dev.sht with groups := [(0, { ShtGroup.new with st := 1 })], caps := [unclosedCapture], evs := evs } }

/-- That device, with the violation alone on its way. -/
def State.armedUnclosed : State := { State.reset with dev := Dev.armedUnclosed [markedViolation] }

/-- Refutes O41: the statement does not ask that an armed group records nothing, nor that identifiers differ. Here the mark of a mask
violation (R276) goes to the capture not yet closed, and storing that one under its identifier overwrites the capture just begun in
slot 1. `captureTrigger_starts` proves the clause where the group records nothing, as Table 8.7 has it of an ARMED one. -/
theorem not_shutter : ¬ Obligations.Shutter := by
  intro h
  obtain ⟨⟨htrigger, -⟩, -⟩ := h
  obtain ⟨-, hstart, -⟩ := htrigger markedViolation [] State.armedUnclosed rfl
  obtain ⟨t, ht, -, -, -, -, ⟨c, hc, hid, hg, hslot, -⟩, -⟩ := hstart 1 rfl (by decide) rfl (by decide)
  have hmark : t.dev = ((Dev.armedUnclosed []).startCapture markedViolation 1).markViolation 0 0 0 := by
    obtain rfl := Host.Outcome.next.inj ((exec_captureTrigger_of_running rfl rfl).symm.trans ht)
    exact Dev.trigger_of_marked (d := Dev.armedUnclosed []) rfl (by decide) rfl
  have hrec : ((Dev.armedUnclosed []).startCapture markedViolation 1).recording 0 = some unclosedCapture := by
    obtain ⟨_, -, -, hrec⟩ := (Dev.armedUnclosed []).recording_startCapture markedViolation 1
    exact hrec
  obtain ⟨marks, flags, hmarked⟩ := Dev.markViolation_of_held (first := 0) hrec (by decide) 0
  rw [hmark, hmarked] at hc
  obtain rfl : c = { unclosedCapture with marks := marks, flags := flags } := Dev.eq_of_mem_putCap hc hid hg
  have hzero : unclosedCapture.slot = 1 := hslot
  exact absurd hzero (by decide)

end Sys2Proof.Machine

/-! # Swage (chapter 9)

The state of a host job context under the operations of Swage; a command that comes to a context with none in progress; the client
served last. -/

namespace Sys2Proof.Machine

/-! ### A context after a store -/

theorem KMap.put_put {α : Type} (m : KMap α) (a : Nat) (v w : α) : KMap.put (KMap.put m a v) a w = KMap.put m a w := by
  induction m with
  | nil => simp [KMap.put]
  | cons p t ih =>
    obtain ⟨k, u⟩ := p
    rcases Nat.lt_trichotomy a k with hlt | rfl | hgt
    · simp [KMap.put, hlt]
    · simp [KMap.put]
    · simp [KMap.put, hgt.not_gt, hgt.ne', ih]

theorem Dev.swgCtx_putSwgCtx (n m : Nat) (x : SwgCtx) (d : Dev) : (d.putSwgCtx n x).swgCtx m = if m = n then x else d.swgCtx m := by
  rw [Dev.swgCtx, Dev.putSwgCtx, KMap.getD, KMap.get?_put]
  split <;> rfl

@[simp] theorem Dev.swgCtx_putSwgCtx_same (n : Nat) (x : SwgCtx) (d : Dev) : (d.putSwgCtx n x).swgCtx n = x := by
  rw [Dev.swgCtx_putSwgCtx, if_pos rfl]

/-- Of two stores to a context the later one stands. -/
@[simp] theorem Dev.putSwgCtx_putSwgCtx (n : Nat) (x y : SwgCtx) (d : Dev) : (d.putSwgCtx n x).putSwgCtx n y = d.putSwgCtx n y := by
  simp only [Dev.putSwgCtx, KMap.put_put]

theorem Dev.swgCtx_congr {d e : Dev} (h : e.swg = d.swg) (n : Nat) : e.swgCtx n = d.swgCtx n := by rw [Dev.swgCtx, Dev.swgCtx, h]

/-! ### What leaves every context -/

theorem Dev.Keeps.foldl {α : Type} {own : Nat → Bool} {f : Dev → α → Dev} (hf : ∀ (e : Dev) (x : α), Dev.Keeps own e (f e x))
    (l : List α) (d : Dev) : Dev.Keeps own d (l.foldl f d) := by
  induction l generalizing d with
  | nil => exact Dev.Keeps.refl own d
  | cons x l ih => exact (hf d x).trans (ih _)

theorem Dev.keeps_swgEndErr {own : Nat → Bool} (status : Nat) (memErr : Bool) (c : SwgCmd) (d : Dev) :
    Dev.Keeps own d (d.swgEndErr status memErr c) := Dev.keeps_completeErr ..

theorem Dev.keeps_swgEnd {own : Nat → Bool} (status : Nat) (c : SwgCmd) (d : Dev) : Dev.Keeps own d (d.swgEnd status c) :=
  Dev.keeps_swgEndErr ..

theorem Dev.keeps_retireAll {own : Nat → Bool} (status : Nat) (l : List SwgBuf) (d : Dev) :
    Dev.Keeps own d (l.foldl (fun (e : Dev) b => e.swgRetire status b) d) :=
  .foldl (fun _ _ => Dev.keeps_complete ..) l d

/-- A context stored on both sides. -/
theorem Dev.Keeps.putSwgCtx {own : Nat → Bool} {d e : Dev} (h : Dev.Keeps own d e) (n : Nat) (x : SwgCtx) :
    Dev.Keeps own (d.putSwgCtx n x) (e.putSwgCtx n x) := by
  have hput : e.putSwgCtx n x = { e with swg := (d.putSwgCtx n x).swg } := by rw [Dev.putSwgCtx, h.swg_eq]; rfl
  rw [hput]
  exact ⟨congrArg (fun z : Dev => { z with swg := (d.putSwgCtx n x).swg }) h.1, h.2⟩

/-- What a device that reports after a context is stored shows: that context as stored, and every other one as before. -/
theorem Dev.Keeps.of_putSwgCtx {own : Nat → Bool} {d e : Dev} {n : Nat} {x : SwgCtx} (h : Dev.Keeps own (d.putSwgCtx n x) e) :
    e.swgCtx n = x ∧ (∀ m, m ≠ n → e.swgCtx m = d.swgCtx m) ∧ Dev.Keeps own { d with swg := e.swg } e := by
  refine ⟨?_, fun m hm => ?_, ?_⟩
  · rw [Dev.swgCtx_congr h.swg_eq, Dev.swgCtx_putSwgCtx_same]
  · rw [Dev.swgCtx_congr h.swg_eq, Dev.swgCtx_putSwgCtx, if_neg hm]
  · rw [h.swg_eq]
    exact h

/-! ### A context closes -/

theorem Dev.keeps_swgShut {own : Nat → Bool} (n : Nat) (d : Dev) :
    Dev.Keeps own (d.putSwgCtx n { SwgCtx.new with wait := (d.swgCtx n).wait }) (d.swgShut n) :=
  (Dev.keeps_retireAll 0 _ d).putSwgCtx n _

/-- The abort discards what the context held; all that is left is to report it (R301). -/
theorem Dev.keeps_swgAbort {own : Nat → Bool} (status n : Nat) (d : Dev) :
    Dev.Keeps own (d.putSwgCtx n SwgCtx.new) (d.swgAbort status n) :=
  (Dev.Keeps.foldl (fun _ _ => Dev.keeps_swgEnd ..) _ _).trans (Dev.keeps_retireAll ..)

/-! ### A command of a context with none in progress (R299) -/

/-- A context with no command in progress, none that waits, and no block on its way. -/
structure SwgCtx.Idle (x : SwgCtx) : Prop where
  cur : x.cur = none
  wait : x.wait = []
  ready : x.ready = none
  coded : x.coded = none

theorem SwgCtx.Idle.new : SwgCtx.new.Idle := ⟨rfl, rfl, rfl, rfl⟩

section
variable {n : Nat} {own : Nat → Bool} {d : Dev} {x y : SwgCtx}

theorem Dev.swgGo_of_no_cur (hcur : (d.swgCtx n).cur = none) : d.swgGo n = d := by
  simp [Dev.swgGo, hcur]

theorem Dev.swgRun_of_no_wait (hwait : (d.swgCtx n).wait = []) (k : Nat) : d.swgRun n k = d := by
  cases k with
  | zero => rfl
  | succ k => simp [Dev.swgRun, hwait]

theorem Dev.swgRun_of_wait {c : SwgCmd} {t : List SwgCmd} (hcur : (d.swgCtx n).cur = none) (hwait : (d.swgCtx n).wait = c :: t) (k : Nat) :
    d.swgRun n (k + 1) = ((d.putSwgCtx n { d.swgCtx n with wait := t }).swgStart n c).swgRun n k := by
  rw [Dev.swgRun]
  split
  next heq => rw [hwait, List.cons.injEq] at heq; rw [heq.1, heq.2]
  next hno => exact absurd hwait (hno c t hcur)

/-- A command that comes to an idle context starts at once; where it leaves the context idle nothing follows. -/
theorem Dev.keeps_swgQueue {c : SwgCmd} (hx : d.swgCtx n = x) (hidle : x.Idle)
    (hstart : Dev.Keeps own (d.putSwgCtx n y) ((d.putSwgCtx n x).swgStart n c)) (hy : y.Idle) :
    Dev.Keeps own (d.putSwgCtx n y) (d.swgQueue n c) := by
  obtain ⟨hctx, -, -⟩ := hstart.of_putSwgCtx
  have hwaits : (d.putSwgCtx n { x with wait := x.wait ++ [c] }).swgRun n ((x.wait ++ [c]).length + 1) =
      (d.putSwgCtx n x).swgStart n c := by
    rw [Dev.swgRun_of_wait (c := c) (t := []) (by simp [hidle.cur]) (by simp [hidle.wait]), Dev.swgCtx_putSwgCtx_same,
      Dev.putSwgCtx_putSwgCtx, ← hidle.wait]
    exact Dev.swgRun_of_no_wait (by rw [hctx, hy.wait]) _
  rw [Dev.swgQueue, Dev.swgOn, hx, Dev.swgGo_of_no_cur (by simp [hidle.cur]), Dev.swgCtx_putSwgCtx_same, hwaits]
  exact hstart

/-- Samples that leave the partial block below 256 all join it (R296). -/
theorem SwgCtx.feed_of_room {xs : List (List Word)} (hroom : x.partial_.length + xs.length < 256) :
    x.feed xs = ({ x with partial_ := x.partial_ ++ xs, index := (x.index + xs.length) % 4294967296 }, []) := by
  have hall : xs.length ≤ 256 - x.partial_.length := by omega
  simp [SwgCtx.feed, List.take_of_length_le hall, hall, hroom.ne]

/-- Samples that do not fill the block end their `SWG_FEED` at once. -/
theorem Dev.swgGo_feed {h : CmdHdr} {xs : List (List Word)} {total written : Nat} {memErr : Bool} (hx : d.swgCtx n = x)
    (hcur : x.cur = some (.feed h xs total written memErr)) (hready : x.ready = none) (hcoded : x.coded = none)
    (hroom : x.partial_.length + xs.length < 256) :
    d.swgGo n =
      let e := d.putSwgCtx n { x with partial_ := x.partial_ ++ xs, index := (x.index + xs.length) % 4294967296, cur := none }
      if memErr then (e.raise Reg.HST_EVT 2).swgEndErr 7 true (.feed h [] total written memErr)
      else e.swgEnd 0 (.feed h [] total written memErr) := by
  simp [Dev.swgGo, hx, hcur, hready, hcoded, SwgCtx.feed_of_room hroom]

/-- `SWG_FLUSH` once its block is written. -/
theorem Dev.swgGo_flush {h : CmdHdr} (hx : d.swgCtx n = x) (hcur : x.cur = some (.flush h)) (hready : x.ready = none)
    (hcoded : x.coded = none) : d.swgGo n = (d.putSwgCtx n { x with cur := none }).swgEnd 0 (.flush h) := by
  simp [Dev.swgGo, hx, hcur, hready, hcoded]

/-- `SWG_CLOSE` once its block is written. -/
theorem Dev.swgGo_close {h : CmdHdr} (hx : d.swgCtx n = x) (hcur : x.cur = some (.close h)) (hready : x.ready = none)
    (hcoded : x.coded = none) : d.swgGo n = ((d.putSwgCtx n { x with cur := none }).swgShut n).complete h 0x74 0 [] := by
  simp [Dev.swgGo, hx, hcur, hready, hcoded]

/-! ### A command that starts in an idle context (Table 9.4) -/

/-- `SWG_OPEN` of a CLOSED context. -/
theorem Dev.keeps_swgStart_open (h : CmdHdr) (kind code label : Nat) :
    Dev.Keeps own (d.putSwgCtx n { SwgCtx.new with st := 1, kind := kind, code := code, label := label })
      ((d.putSwgCtx n SwgCtx.new).swgStart n (.openCtx h kind code label)) := by
  simp only [Dev.swgStart, Dev.swgCtx_putSwgCtx_same, Dev.putSwgCtx_putSwgCtx]
  exact Dev.keeps_complete ..

theorem Dev.swgStart_feed (hst : x.st = 1) (h : CmdHdr) (xs : List (List Word)) (total written : Nat) (memErr : Bool) :
    (d.putSwgCtx n x).swgStart n (.feed h xs total written memErr) =
      (d.putSwgCtx n { x with cur := some (.feed h xs total written memErr) }).swgGo n := by
  simp [Dev.swgStart, hst]

/-- A flush, or a close, that has no partial block to hand on. -/
theorem Dev.swgStart_of_empty {c : SwgCmd} {h : CmdHdr} (hc : c = .flush h ∨ c = .close h) (hst : x.st = 1) (hready : x.ready = none)
    (hempty : x.partial_ = []) : (d.putSwgCtx n x).swgStart n c = (d.putSwgCtx n { x with cur := some c }).swgGo n := by
  rcases hc with rfl | rfl <;> simp [Dev.swgStart, hst, hready, hempty]

theorem SwgCtx.Idle.done (hidle : x.Idle) : ({ x with cur := none } : SwgCtx) = x := by rw [← hidle.cur]

theorem Dev.keeps_swgStart_feed {h : CmdHdr} {xs : List (List Word)} {total written : Nat} {memErr : Bool} (hst : x.st = 1)
    (hidle : x.Idle) (hroom : x.partial_.length + xs.length < 256) :
    Dev.Keeps (fun o => memErr && o == Reg.HST_EVT)
      (d.putSwgCtx n { x with partial_ := x.partial_ ++ xs, index := (x.index + xs.length) % 4294967296 })
      ((d.putSwgCtx n x).swgStart n (.feed h xs total written memErr)) := by
  rw [Dev.swgStart_feed hst,
    Dev.swgGo_feed (x := { x with cur := some _ }) (Dev.swgCtx_putSwgCtx_same ..) rfl hidle.ready hidle.coded hroom,
    ← hidle.cur, Dev.putSwgCtx_putSwgCtx]
  cases memErr with
  | false => exact Dev.keeps_swgEnd ..
  | true => exact (Dev.keeps_raise _ _ _ (Or.inl rfl)).trans (Dev.keeps_swgEndErr ..)

/-- `SWG_FLUSH` with no sample in the partial block writes nothing (R298). -/
theorem Dev.keeps_swgStart_flush (h : CmdHdr) (hst : x.st = 1) (hidle : x.Idle) (hempty : x.partial_ = []) :
    Dev.Keeps own (d.putSwgCtx n x) ((d.putSwgCtx n x).swgStart n (.flush h)) := by
  rw [Dev.swgStart_of_empty (.inl rfl) hst hidle.ready hempty,
    Dev.swgGo_flush (x := { x with cur := some _ }) (Dev.swgCtx_putSwgCtx_same ..) rfl hidle.ready hidle.coded,
    Dev.putSwgCtx_putSwgCtx, hidle.done]
  exact Dev.keeps_swgEnd ..

/-- `SWG_CLOSE` with no sample in the partial block closes the context at once. -/
theorem Dev.keeps_swgStart_close (h : CmdHdr) (hst : x.st = 1) (hidle : x.Idle) (hempty : x.partial_ = []) :
    Dev.Keeps own (d.putSwgCtx n SwgCtx.new) ((d.putSwgCtx n x).swgStart n (.close h)) := by
  have hshut := Dev.keeps_swgShut (own := own) n (d.putSwgCtx n x)
  rw [Dev.swgCtx_putSwgCtx_same, hidle.wait, Dev.putSwgCtx_putSwgCtx] at hshut
  rw [Dev.swgStart_of_empty (.inr rfl) hst hidle.ready hempty,
    Dev.swgGo_close (x := { x with cur := some _ }) (Dev.swgCtx_putSwgCtx_same ..) rfl hidle.ready hidle.coded,
    Dev.putSwgCtx_putSwgCtx, hidle.done]
  exact hshut.trans (Dev.keeps_complete ..)

end

/-! ### The commands of a context (R297 to R301) -/

theorem swgOpen_completes (h : CmdHdr) (ctx kind code label : Nat) (s : State) (ha : s.dev.Admits h 0x70 [] s.fuse.part.hasSwg legalCRD) :
    (3 < ctx ∨ 1 < kind ∨ code < 1 ∨ 6 < code → Completes (.swgOpen h ctx kind code label) s (fun t =>
      t = { s with dev := s.dev.complete h 0x70 2 [] } ∧ Dev.Keeps noReg s.dev t.dev)) ∧
    (ctx ≤ 3 → kind ≤ 1 → 1 ≤ code → code ≤ 6 → s.dev.swgCtx ctx = SwgCtx.new → Completes (.swgOpen h ctx kind code label) s (fun t =>
      s.MainOnly t ∧ t.dev.swgCtx ctx = { SwgCtx.new with st := 1, kind := kind, code := code, label := label % 65536 } ∧
      (∀ n, n ≠ ctx → t.dev.swgCtx n = s.dev.swgCtx n) ∧ Dev.Keeps noReg { s.dev with swg := t.dev.swg } t.dev)) := by
  refine ⟨fun hbad => ?bad, fun hctx hkind hlo hhi hnew => ?opens⟩
  all_goals refine completes_cmd rfl ha ?_
  case bad =>
    dsimp only
    rw [if_pos hbad]
    exact ⟨rfl, Dev.keeps_complete ..⟩
  case opens =>
    have hok : ¬ (3 < ctx ∨ 1 < kind ∨ code < 1 ∨ 6 < code) := by omega
    simp only [if_neg hok]
    exact ⟨s.mainOnly_dev _, (Dev.keeps_swgQueue hnew .new (Dev.keeps_swgStart_open ..) ⟨rfl, rfl, rfl, rfl⟩).of_putSwgCtx⟩

theorem swgBuf_completes (h : CmdHdr) (ctx addr len : Nat) (e : Bool) (s : State) (ha : s.dev.Admits h 0x71 [] s.fuse.part.hasSwg legalCRD)
    (hctx : ctx ≤ 3) (haddr : addr % 4 = 0) (hlen : len % 4 = 0) (hlo : (if (s.dev.swgCtx ctx).kind = 0 then 1056 else 5152) ≤ len)
    (hhi : len ≤ 16777216) :
    ((s.dev.swgCtx ctx).st = 0 → Completes (.swgBuf h ctx addr len e) s (fun t =>
      t = { s with dev := s.dev.refuse h 0x71 6 1 0xFFFF [] } ∧ Dev.Keeps noReg s.dev t.dev)) ∧
    ((s.dev.swgCtx ctx).st ≠ 0 → 8 ≤ (s.dev.swgCtx ctx).bufs.length → Completes (.swgBuf h ctx addr len e) s (fun t =>
      t = { s with dev := s.dev.complete h 0x71 3 [] } ∧ Dev.Keeps noReg s.dev t.dev)) ∧
    ((s.dev.swgCtx ctx).st ≠ 0 → (s.dev.swgCtx ctx).bufs.length < 8 → (s.dev.swgCtx ctx).coded = none → Completes (.swgBuf h ctx addr len e) s
      (fun t => t = { s with dev := s.dev.putSwgCtx ctx { s.dev.swgCtx ctx with bufs := (s.dev.swgCtx ctx).bufs ++
        [{ hdr := h, addr := addr, len := len, used := 0, blocks := 0 }] } })) := by
  have hok : ¬ (3 < ctx ∨ addr % 4 ≠ 0 ∨ len % 4 ≠ 0 ∨ len < (if (s.dev.swgCtx ctx).kind = 0 then 1056 else 5152) ∨ 16777216 < len) := by
    simp only [not_or, not_lt, not_not]
    exact ⟨hctx, haddr, hlen, hlo, hhi⟩
  refine ⟨fun hst => ?closed, fun hst hfull => ?full, fun hst hroom hcoded => ?queued⟩
  all_goals
    refine completes_cmd rfl ha ?_
    rw [Dev.swgBufCmd, if_neg hok]
  case closed =>
    rw [if_pos hst]
    exact ⟨rfl, Dev.keeps_refuse ..⟩
  case full =>
    rw [if_neg hst, if_pos hfull]
    exact ⟨rfl, Dev.keeps_complete ..⟩
  case queued =>
    rw [if_neg hst, if_neg (not_le.2 hroom)]
    simp only [hcoded]

theorem swgFeed_joins (h : CmdHdr) (ctx addr count : Nat) (xs : List (List Word)) (e : Bool) (s : State)
    (ha : s.dev.Admits h 0x72 [] s.fuse.part.hasSwg legalCRD) (hctx : ctx ≤ 3) (haddr : addr % 4 = 0) (hlo : 1 ≤ count)
    (hhi : count ≤ 1048576) (hxs : xs.length ≤ count) (hst : (s.dev.swgCtx ctx).st = 1) (hidle : (s.dev.swgCtx ctx).Idle)
    (hroom : (s.dev.swgCtx ctx).partial_.length + xs.length < 256) :
    Completes (.swgFeed h ctx addr count xs e) s (fun t => s.MainOnly t ∧
      t.dev.swgCtx ctx = { s.dev.swgCtx ctx with
        partial_ := (s.dev.swgCtx ctx).partial_ ++ xs, index := ((s.dev.swgCtx ctx).index + xs.length) % 4294967296 } ∧
      Dev.Keeps (fun o => e && o == Reg.HST_EVT) { s.dev with swg := t.dev.swg } t.dev) := by
  have hok : ¬ (3 < ctx ∨ addr % 4 ≠ 0 ∨ count < 1 ∨ 1048576 < count) := by omega
  have hopen : ¬ ((s.dev.swgCtx ctx).st ≠ 1 ∧ (s.dev.swgCtx ctx).cur.isNone = true) := fun hno => hno.1 hst
  refine completes_cmd rfl ha ?_
  simp only [if_neg hok, if_neg hopen, List.take_of_length_le hxs]
  obtain ⟨hjoined, -, hkeeps⟩ := (Dev.keeps_swgQueue rfl hidle (Dev.keeps_swgStart_feed hst hidle hroom)
    ⟨hidle.cur, hidle.wait, hidle.ready, hidle.coded⟩).of_putSwgCtx
  exact ⟨s.mainOnly_dev _, hjoined, hkeeps⟩

theorem swgFlush_of_empty (h : CmdHdr) (ctx : Nat) (s : State) (hctx : ctx ≤ 3) (hst : (s.dev.swgCtx ctx).st = 1)
    (hidle : (s.dev.swgCtx ctx).Idle) (hempty : (s.dev.swgCtx ctx).partial_ = []) (ha : s.dev.Admits h 0x73 [] s.fuse.part.hasSwg legalCRD) :
    Completes (.swgFlush h ctx) s (fun t => s.MainOnly t ∧ t.dev.swgCtx ctx = s.dev.swgCtx ctx ∧
      Dev.Keeps noReg { s.dev with swg := t.dev.swg } t.dev) := by
  refine completes_cmd rfl ha ?_
  simp only [if_neg (not_lt.2 hctx)]
  obtain ⟨hsame, -, hkeeps⟩ := (Dev.keeps_swgQueue rfl hidle (Dev.keeps_swgStart_flush h hst hidle hempty) hidle).of_putSwgCtx
  exact ⟨s.mainOnly_dev _, hsame, hkeeps⟩

theorem swgClose_of_empty (h : CmdHdr) (ctx : Nat) (s : State) (hctx : ctx ≤ 3) (hst : (s.dev.swgCtx ctx).st = 1)
    (hidle : (s.dev.swgCtx ctx).Idle) (hempty : (s.dev.swgCtx ctx).partial_ = []) (ha : s.dev.Admits h 0x74 [] s.fuse.part.hasSwg legalCRD) :
    Completes (.swgClose h ctx) s (fun t => s.MainOnly t ∧ t.dev.swgCtx ctx = SwgCtx.new ∧
      Dev.Keeps noReg { s.dev with swg := t.dev.swg } t.dev) := by
  refine completes_cmd rfl ha ?_
  simp only [if_neg (not_lt.2 hctx)]
  obtain ⟨hnew, -, hkeeps⟩ := (Dev.keeps_swgQueue rfl hidle (Dev.keeps_swgStart_close h hst hidle hempty) .new).of_putSwgCtx
  exact ⟨s.mainOnly_dev _, hnew, hkeeps⟩

theorem swgCloseAbort_completes (h : CmdHdr) (ctx : Nat) (s : State) (ha : s.dev.Admits h 0x74 [] s.fuse.part.hasSwg legalCRD)
    (hctx : ctx ≤ 3) :
    ((s.dev.swgCtx ctx).st = 0 → Completes (.swgCloseAbort h ctx) s (fun t =>
      t = { s with dev := s.dev.refuse h 0x74 6 1 0xFFFF [] } ∧ Dev.Keeps noReg s.dev t.dev)) ∧
    ((s.dev.swgCtx ctx).st ≠ 0 → Completes (.swgCloseAbort h ctx) s (fun t => s.MainOnly t ∧ t.dev.swgCtx ctx = SwgCtx.new ∧
      Dev.Keeps noReg { s.dev with swg := t.dev.swg } t.dev)) := by
  refine ⟨fun hst => ?closed, fun hst => ?aborts⟩
  all_goals
    refine completes_cmd rfl ha ?_
    simp only [if_neg (not_lt.2 hctx)]
  case closed =>
    rw [if_pos hst]
    exact ⟨rfl, Dev.keeps_refuse ..⟩
  case aborts =>
    rw [if_neg hst]
    obtain ⟨hnew, -, hkeeps⟩ := ((Dev.keeps_swgAbort 0 ctx s.dev).trans (Dev.keeps_complete h 0x74 0 [] _)).of_putSwgCtx
    exact ⟨s.mainOnly_dev _, hnew, hkeeps⟩

/-! ### The client served last (R302) -/

@[simp] theorem Dev.last_putSwgCtx (n : Nat) (x : SwgCtx) (d : Dev) : (d.putSwgCtx n x).swg.last = d.swg.last := rfl

@[simp] theorem Dev.swgEndErr_swg (status : Nat) (memErr : Bool) (c : SwgCmd) (d : Dev) : (d.swgEndErr status memErr c).swg = d.swg :=
  (Dev.keeps_swgEndErr (own := noReg) ..).swg_eq

@[simp] theorem Dev.swgEnd_swg (status : Nat) (c : SwgCmd) (d : Dev) : (d.swgEnd status c).swg = d.swg :=
  (Dev.keeps_swgEnd (own := noReg) ..).swg_eq

@[simp] theorem Dev.retireAll_swg (status : Nat) (l : List SwgBuf) (d : Dev) :
    (l.foldl (fun (e : Dev) b => e.swgRetire status b) d).swg = d.swg :=
  (Dev.keeps_retireAll (own := noReg) ..).swg_eq

@[simp] theorem Dev.last_swgShut (n : Nat) (d : Dev) : (d.swgShut n).swg.last = d.swg.last := by simp [Dev.swgShut]

@[simp] theorem Dev.last_swgGo (n : Nat) (d : Dev) : (d.swgGo n).swg.last = d.swg.last := by
  unfold Dev.swgGo
  dsimp only
  split
  case isTrue => rfl
  case isFalse =>
    split
    next => rfl
    next => split_ifs <;> simp
    next => simp
    next => simp

/-- Each command is refused or goes on, and neither serves a client. -/
@[simp] theorem Dev.last_swgStart (n : Nat) (c : SwgCmd) (d : Dev) : (d.swgStart n c).swg.last = d.swg.last := by
  unfold Dev.swgStart
  cases c
  all_goals
    dsimp only
    split <;> simp

@[simp] theorem Dev.last_swgRun (n k : Nat) (d : Dev) : (d.swgRun n k).swg.last = d.swg.last := by
  induction k generalizing d with
  | zero => rfl
  | succ k ih =>
    rw [Dev.swgRun]
    split
    · rw [ih, Dev.last_swgStart, Dev.last_putSwgCtx]
    · rfl

@[simp] theorem Dev.last_swgOn (n : Nat) (d : Dev) : (d.swgOn n).swg.last = d.swg.last := by simp [Dev.swgOn]

@[simp] theorem Dev.last_swgWriteFail (n len : Nat) (d : Dev) : (d.swgWriteFail n len).swg.last = d.swg.last := by
  unfold Dev.swgWriteFail
  dsimp only
  split
  · rfl
  · simp [Dev.memFail]

@[simp] theorem Dev.last_swgWrite (n : Nat) (bs : List Byte) (d : Dev) : (d.swgWrite n bs).2.swg.last = d.swg.last := by
  unfold Dev.swgWrite
  dsimp only
  split <;> simp

theorem Dev.last_swgWrite_swgOn (n : Nat) (bs : List Byte) (d : Dev) :
    (if (d.swgWrite n bs).1 = true then (d.swgWrite n bs).2.swgOn n else (d.swgWrite n bs).2).swg.last = d.swg.last := by
  split <;> simp

/-- A context's block that is coded in its turn makes the context the client served last, whether or not the block is written. -/
theorem Dev.last_swgServe {n : Nat} {d : Dev} (hready : (d.swgCtx n).ready.isSome = true) (hshed : d.sht.p4shed = false)
    (hlegal : legalCRD.contains d.op = true) (hturn : d.clientTurn (n + 1) = true) (fails : Nat) (memErr : Bool) :
    (d.swgServe n fails memErr).swg.last = n + 1 := by
  obtain ⟨⟨first, samples⟩, hsome⟩ := Option.isSome_iff_exists.1 hready
  have hserves : ¬ (d.sht.p4shed || !legalCRD.contains d.op || !d.clientTurn (n + 1)) = true := by
    rw [hshed, hlegal, hturn]
    decide
  simp only [Dev.swgServe, hsome, if_neg hserves]
  cases memErr with
  | false => exact Dev.last_swgWrite_swgOn ..
  | true => exact (Dev.last_swgWrite_swgOn ..).trans (Dev.last_swgWriteFail ..)

theorem swgBlockCode_serves (n fails : Nat) (e : Bool) (s : State) (hn : n < 4) :
    ((s.dev.swgCtx n).ready = none → Completes (.swgBlockCode (n + 1) fails e) s (fun t => t = s)) ∧
    ((s.dev.swgCtx n).ready.isSome = true → s.dev.sht.p4shed = false → legalCRD.contains s.dev.op = true → s.dev.clientTurn (n + 1) = true →
      Completes (.swgBlockCode (n + 1) fails e) s (fun t => s.MainOnly t ∧ t.dev.swg.last = n + 1)) := by
  have hserve : exec (.swgBlockCode (n + 1) fails e) s = .next { s with dev := s.dev.swgServe n fails e } := by
    show execSwgBlockCode (n + 1) fails e s = _
    simp only [execSwgBlockCode, State.onDev, if_neg (show ¬ 4 < n + 1 by omega), if_neg n.succ_ne_zero, Nat.add_sub_cancel]
  refine ⟨fun hnone => ⟨_, hserve, ?_⟩, fun hready hshed hlegal hturn => ⟨_, hserve, s.mainOnly_dev _, ?_⟩⟩
  · simp only [Dev.swgServe, hnone]
  · exact Dev.last_swgServe hready hshed hlegal hturn fails e

/-- Settles O42, clause by clause (R296 to R302). When a feed ends, how a CLOSED context judges a buffer's length and what an abort does
to commands that wait are log entry 63. -/
theorem swageContexts : Obligations.SwageContexts := by
  refine ⟨swgOpen_completes, swgBuf_completes, ?feed, ?empty, swgCloseAbort_completes, swgBlockCode_serves⟩
  case feed =>
    intro h ctx addr count xs e s ha hctx haddr hlo hhi hxs x hst hcur hwait hready hcoded hroom
    exact swgFeed_joins h ctx addr count xs e s ha hctx haddr hlo hhi hxs hst ⟨hcur, hwait, hready, hcoded⟩ hroom
  case empty =>
    intro h ctx s hctx x hst hcur hwait hready hcoded hempty
    have hidle : x.Idle := ⟨hcur, hwait, hready, hcoded⟩
    exact ⟨swgFlush_of_empty h ctx s hctx hst hidle hempty, swgClose_of_empty h ctx s hctx hst hidle hempty⟩

end Sys2Proof.Machine

/-! # The Publisher and Braze (chapter 10)

What sending on a Braze link leaves, and what queueing a published frame leaves; then reception, what is sent by the clock, and the
roles of a twin pair. -/

namespace Sys2Proof.Machine

/-! ### What sending on a Braze link leaves (R319) -/

/-- Only sending has taken place: of Braze's own state only the sequence numbers differ, and beside it only registers and the record
of outputs. -/
def Dev.Sent (d e : Dev) : Prop := e = { d with regs := e.regs, out := e.out, brz := { d.brz with tx := e.brz.tx } }

theorem Dev.Sent.refl (d : Dev) : d.Sent d := rfl

theorem Dev.Sent.trans {a b c : Dev} (h : a.Sent b) (k : b.Sent c) : a.Sent c := by
  rw [Dev.Sent] at h k ⊢
  rw [k, h]

theorem Dev.Sent.foldl {α : Type} {f : Dev → α → Dev} (hf : ∀ (e : Dev) (x : α), e.Sent (f e x)) (l : List α) (d : Dev) :
    d.Sent (l.foldl f d) :=
  List.foldlRecOn l f (motive := d.Sent) (Dev.Sent.refl d) fun e he x _ => he.trans (hf e x)

section
variable {d e : Dev} (h : d.Sent e)
include h

theorem Dev.Sent.eq : e = { d with regs := e.regs, out := e.out, brz := { d.brz with tx := e.brz.tx } } := h

theorem Dev.Sent.role : e.brz.role = d.brz.role := by rw [h.eq]
theorem Dev.Sent.since : e.brz.since = d.brz.since := by rw [h.eq]
theorem Dev.Sent.swap : e.brz.swap = d.brz.swap := by rw [h.eq]
theorem Dev.Sent.giveUp : e.brz.giveUp = d.brz.giveUp := by rw [h.eq]
theorem Dev.Sent.nextTwin : e.brz.nextTwin = d.brz.nextTwin := by rw [h.eq]
theorem Dev.Sent.wasLock : e.brz.wasLock = d.brz.wasLock := by rw [h.eq]

end

/-- What sending leaves after a change of Braze's own state. -/
theorem Dev.Sent.brz_eq {d e : Dev} {x : BrzS} (h : Dev.Sent { d with brz := x } e) : e.brz = { x with tx := e.brz.tx } :=
  congrArg Dev.brz h

/-- Only Braze's own state, registers and the record of outputs differ. -/
def Dev.BrazeOnly (d e : Dev) : Prop := e = { d with regs := e.regs, brz := e.brz, out := e.out }

theorem Dev.BrazeOnly.trans {a b c : Dev} (h : a.BrazeOnly b) (k : b.BrazeOnly c) : a.BrazeOnly c := by
  rw [Dev.BrazeOnly] at h k ⊢
  rw [k, h]

theorem Dev.Sent.brazeOnly {d e : Dev} {x : BrzS} (h : Dev.Sent { d with brz := x } e) : d.BrazeOnly e := by
  have hbrz := h.brz_eq
  calc e = { d with regs := e.regs, out := e.out, brz := { x with tx := e.brz.tx } } := h
    _ = { d with regs := e.regs, brz := e.brz, out := e.out } := by rw [← hbrz]

theorem Dev.sent_brzSend (port src dst slot : Nat) (p : BrzPayload) (d : Dev) : d.Sent (d.brzSend port src dst slot p) := by
  unfold Dev.brzSend
  split
  · exact Dev.Sent.refl d
  · rfl

theorem Dev.sent_brzResend (port src dst slot : Nat) (x : Word × Word) (p : BrzPayload) (d : Dev) :
    d.Sent (d.brzResend port src dst slot x p) := by
  unfold Dev.brzResend
  split
  · exact Dev.Sent.refl d
  · rfl

theorem Dev.sent_brzUp (p : BrzPayload) (d : Dev) : d.Sent (d.brzUp p) := d.sent_brzSend ..

theorem Dev.sent_brzTwin (p : BrzPayload) (d : Dev) : d.Sent (d.brzTwin p) := (d.sent_brzSend ..).trans (Dev.sent_brzSend ..)

theorem Dev.sent_heartbeats (d : Dev) : d.Sent d.heartbeats := by
  unfold Dev.heartbeats
  extract_lets up down
  have hup : d.Sent up := by
    unfold up
    split
    · exact d.sent_brzUp _
    · exact Dev.Sent.refl d
  have hdown : up.Sent down := by
    unfold down
    split
    · exact .foldl (fun _ _ => Dev.sent_brzSend ..) _ _
    · exact Dev.Sent.refl up
  split
  · exact (hup.trans hdown).trans (down.sent_brzTwin _)
  · exact hup.trans hdown

/-! ### Peers (R319, R320) -/

theorem Dev.peer_setPeer (port dev : Nat) (x : BrzPeer) (d : Dev) : (d.setPeer port dev x).peer port dev = x := by
  rw [Dev.peer, Dev.setPeer, KMap.getD, KMap.get?_put, if_pos rfl]
  rfl

theorem Dev.peer_congr {d e : Dev} (h : e.brz.peers = d.brz.peers) (port dev : Nat) : e.peer port dev = d.peer port dev := by
  rw [Dev.peer, Dev.peer, h]

/-! ### What queueing a published frame leaves (R95, R101, R307) -/

/-- The ports have taken frames: the Publisher's own state is as it was, and of the registers at most the count of late starts differs. -/
structure Dev.Queued (d e : Dev) : Prop where
  pub : e.pub = d.pub
  regs : ∀ off, off ≠ Reg.PUB_LAT_OVER → e.reg off = d.reg off

theorem Dev.Queued.refl (d : Dev) : d.Queued d := ⟨rfl, fun _ _ => rfl⟩

theorem Dev.Queued.trans {a b c : Dev} (h : a.Queued b) (k : b.Queued c) : a.Queued c :=
  ⟨k.pub.trans h.pub, fun off ho => (k.regs off ho).trans (h.regs off ho)⟩

theorem Dev.Queued.foldl {α : Type} {f : Dev → α → Dev} (hf : ∀ (e : Dev) (x : α), e.Queued (f e x)) (l : List α) (d : Dev) :
    d.Queued (l.foldl f d) :=
  List.foldlRecOn l f (motive := d.Queued) (Dev.Queued.refl d) fun e he x _ => he.trans (hf e x)

theorem Dev.queued_setPort (n : Nat) (x : PortS) (d : Dev) : d.Queued (d.setPort n x) := ⟨rfl, fun _ _ => rfl⟩

theorem Dev.queued_emit (o : Output) (d : Dev) : d.Queued (d.emit o) := ⟨rfl, fun _ _ => rfl⟩

theorem Dev.queued_ptpStamp (n : Nat) (f : TxFrame) (d : Dev) : d.Queued (d.ptpStamp n f).2 := by
  unfold Dev.ptpStamp
  split <;> exact ⟨rfl, fun _ _ => rfl⟩

theorem Dev.queued_txLatest (f : TxFrame) (d : Dev) : d.Queued (d.txLatest f) := by
  unfold Dev.txLatest
  split
  · split
    · exact ⟨rfl, fun off ho => by rw [Dev.reg_bump, if_neg ho]⟩
    · exact Dev.Queued.refl d
  · exact Dev.Queued.refl d

theorem Dev.queued_startNext (n : Nat) (d : Dev) : d.Queued (d.startNext n) := by
  unfold Dev.startNext
  dsimp only
  split
  · exact Dev.Queued.refl d
  split
  case h_1 f rest _ =>
    split
    · exact ((d.queued_ptpStamp n f).trans (Dev.queued_setPort ..)).trans (Dev.queued_emit ..)
    · exact Dev.Queued.refl d
  case h_2 =>
    split
    · exact Dev.Queued.refl d
    split
    · exact d.queued_setPort ..
    split
    · exact ((d.queued_setPort ..).trans (Dev.queued_emit ..)).trans (Dev.queued_txLatest ..)
    · exact Dev.Queued.refl d

theorem Dev.queued_enqueue (n : Nat) (f : TxFrame) (d : Dev) : d.Queued (d.enqueue n .preempt f) := by
  unfold Dev.enqueue
  split
  · exact (d.queued_setPort ..).trans (Dev.queued_startNext ..)
  · exact Dev.Queued.refl d

theorem Dev.queued_sendBoth (pair cls len : Nat) (host latest : Option Nat) (body : TxBody) (d : Dev) :
    d.Queued (d.sendBoth pair .preempt cls len host latest body) := by
  unfold Dev.sendBoth
  extract_lets seq nx net numbered f
  have hnumbered : d.Queued numbered := ⟨rfl, fun _ _ => rfl⟩
  exact (hnumbered.trans (Dev.queued_enqueue ..)).trans (Dev.queued_enqueue ..)

theorem Dev.queued_sendPair (pair cls len : Nat) (host : Option Nat) (body : TxBody) (d : Dev) :
    d.Queued (d.sendPair pair .preempt cls len host body) := d.queued_sendBoth ..

/-! ### Delayed sets and seals (R307, R308, R317) -/

theorem Dev.delayed_chainFrame (s dig : Nat) (d : Dev) : (d.chainFrame s dig).pub.delayed = d.pub.delayed := rfl

theorem Dev.delayed_sendSet (x : Delayed) (d : Dev) : (d.sendSet x).pub.delayed = d.pub.delayed := by
  unfold Dev.sendSet
  extract_lets sent counted
  have hsent : d.Queued sent := .foldl (fun _ _ => Dev.queued_sendBoth ..) _ _
  have hcounted : counted.pub = d.pub := (Dev.wrapAdd_pub ..).trans hsent.pub
  split
  · rw [Dev.delayed_chainFrame, hcounted]
  · rw [hcounted]

theorem standbyDelayedSend_sends (x : Delayed) (rest : List Delayed) (s : State) (hx : s.dev.pub.delayed = x :: rest)
    (hdue : x.due ≤ s.dev.raw) (hop : s.dev.op.running = true ∨ s.dev.op = .config) (hp1 : s.dev.pub.withdrawn = false) :
    Completes .standbyDelayedSend s (fun t => s.MainOnly t ∧ t.dev.pub.delayed = rest) := by
  have hop' : (s.dev.op.running || s.dev.op == .config) = true := by simpa using hop
  refine ⟨_, rfl, s.mainOnly_dev _, ?_⟩
  simp only [hx, hop', hp1, decide_eq_false (Nat.not_lt.2 hdue), Bool.not_true, Bool.or_self, Bool.false_eq_true, if_false]
  exact Dev.delayed_sendSet ..

/-- The chain of a set once its second is sealed (R317). -/
def SealS.chained (c : SealS) (epoch : Nat) : SealS :=
  { h := Config.sha256 (beBytes 32 c.h ++ c.frames.flatMap (fun x => beBytes 32 x)), sec := c.sec + 1, epoch := epoch, frames := c.next,
    next := [] }

/-- The chain of set `n` goes on. -/
def Dev.chainOn (n : Nat) (c : SealS) (d : Dev) : Dev :=
  { d with pub := { d.pub with chains := KMap.put d.pub.chains n (c.chained d.tbu.epoch) } }

theorem Dev.chain_chainOn (n : Nat) (c : SealS) (d : Dev) : KMap.get? (d.chainOn n c).pub.chains n = some (c.chained d.tbu.epoch) := by
  rw [Dev.chainOn, KMap.get?_put, if_pos rfl]

section
variable {n : Nat} {c : SealS} {d : Dev} (hc : KMap.get? d.pub.chains n = some c)
  (hsec : (((c.sec + 1) * 1000000000 : Nat) : Int) ≤ d.tick)
include hc hsec

theorem Dev.sealSecond_unsigned (hkey : d.keyFor 3 (oSealSlot d.act n) = none) :
    d.sealSecond n = ((d.chainOn n c).bump Reg.PUB_SEAL_FAIL 1).raise Reg.PUB_EVT 0 := by
  have hkey' : (d.chainOn n c).keyFor 3 (oSealSlot d.act n) = none := hkey
  simp only [Dev.sealSecond, hc, if_neg (not_lt.2 hsec)]
  rw [← SealS.chained, ← Dev.chainOn, hkey']

theorem Dev.sealSecond_signed (hkey : (d.keyFor 3 (oSealSlot d.act n)).isSome = true) :
    ∃ (len : Nat) (body : TxBody), d.sealSecond n =
      ((d.chainOn n c).sendPair (oPair d.act n) .preempt 0 len none body).wrapAdd Reg.PUB_SEALS 1 := by
  obtain ⟨r, hr⟩ := Option.isSome_iff_exists.1 hkey
  have hkey' : (d.chainOn n c).keyFor 3 (oSealSlot d.act n) = some r := hr
  simp only [Dev.sealSecond, hc, if_neg (not_lt.2 hsec)]
  rw [← SealS.chained, ← Dev.chainOn, hkey']
  exact ⟨_, _, rfl⟩

end

theorem sealDatagram_seals (n : Nat) (c : SealS) (s : State) (hdue : s.dev.sealDue n = true)
    (hc : KMap.get? s.dev.pub.chains n = some c) (hsec : (((c.sec + 1) * 1000000000 : Nat) : Int) ≤ s.dev.tick) :
    Completes (.sealDatagram n) s (fun t => s.MainOnly t ∧
      KMap.get? t.dev.pub.chains n = some (c.chained s.dev.tbu.epoch) ∧
      (s.dev.keyFor 3 (oSealSlot s.dev.act n) = none → t.dev.reg Reg.PUB_SEAL_FAIL = (s.dev.reg Reg.PUB_SEAL_FAIL).satAdd 1 ∧
        t.dev.net = s.dev.net ∧ t.dev.rbit Reg.PUB_EVT 0 = true) ∧
      ((s.dev.keyFor 3 (oSealSlot s.dev.act n)).isSome = true → t.dev.reg Reg.PUB_SEALS = s.dev.reg Reg.PUB_SEALS + 1)) := by
  refine completes_if rfl hdue ⟨s.mainOnly_dev _, ?_⟩
  dsimp only
  cases hkey : s.dev.keyFor 3 (oSealSlot s.dev.act n) with
  | none =>
    rw [Dev.sealSecond_unsigned hc hsec hkey]
    refine ⟨?_, fun _ => ⟨?_, ?_, Dev.rbit_raise _ _ _ (by decide)⟩, nofun⟩
    · rw [Dev.raise_pub, Dev.bump_pub, Dev.chain_chainOn]
    · rw [Dev.reg_raise, if_neg (by decide), Dev.reg_bump, if_pos rfl]
      rfl
    · rw [Dev.raise_net, Dev.bump_net]
      rfl
  | some r =>
    obtain ⟨len, body, hseal⟩ := Dev.sealSecond_signed hc hsec (Option.isSome_iff_exists.2 ⟨r, hkey⟩)
    have hq := (s.dev.chainOn n c).queued_sendPair (oPair s.dev.act n) 0 len none body
    rw [hseal]
    refine ⟨?_, nofun, fun _ => ?_⟩
    · rw [Dev.wrapAdd_pub, hq.pub, Dev.chain_chainOn]
    · rw [Dev.reg_wrapAdd, if_pos rfl, hq.regs _ (by decide)]
      rfl

/-! ### Reception (R318, R319) -/

/-- A frame is for this device, or for its pair. -/
def Dev.brzMine (f : BrzFrame) (d : Dev) : Prop := f.dst = d.brzOwn ∨ (d.isTwin = true ∧ f.dst = d.brzPair)

/-- A frame is counted and becomes the last accepted from its peer (R319, R320). -/
def Dev.accepted (f : BrzFrame) (d : Dev) : Dev :=
  (d.wrapAdd (Reg.BRZ_PORT_RXFRAMES f.port) 1).setPeer f.port f.src
    { d.peer f.port f.src with session := f.session, seq := f.seq, lastRx := d.raw }

section
variable {f : BrzFrame} {d : Dev} (hrun : d.brzRun = true) (hport : d.brzPortOn f.port = true)
include hrun hport

theorem Dev.brzReceive_of_stranger (hdst : ¬ d.brzMine f) : d.brzReceive f = d.bump (Reg.BRZ_PORT_NOPEER f.port) 1 := by
  have hother : f.dst ≠ d.brzOwn ∧ ¬ (d.isTwin = true ∧ f.dst = d.brzPair) := not_or.1 hdst
  simp only [Dev.brzReceive, hrun, hport, if_pos hother, Bool.not_true, Bool.or_self, Bool.false_eq_true, if_false]

variable (hdst : d.brzMine f)
include hdst

theorem Dev.brzReceive_of_untagged (hauth : d.brzAuth f = false) : d.brzReceive f = d.bump (Reg.BRZ_PORT_AUTH f.port) 1 := by
  have hmine : ¬ (f.dst ≠ d.brzOwn ∧ ¬ (d.isTwin = true ∧ f.dst = d.brzPair)) := fun h => not_or.2 h hdst
  simp only [Dev.brzReceive, hrun, hport, if_neg hmine, hauth, Bool.not_true, Bool.not_false, Bool.or_self, Bool.false_eq_true, if_false,
    if_true]

/-- A frame with a good tag is judged by its (session, sequence) against the last accepted from its peer. -/
theorem Dev.brzReceive_of_tagged (hauth : d.brzAuth f = true) : d.brzReceive f =
    if seqNum f.session f.seq < seqNum (d.peer f.port f.src).session (d.peer f.port f.src).seq then d.bump (Reg.BRZ_PORT_REPLAY f.port) 1
    else if seqNum f.session f.seq = seqNum (d.peer f.port f.src).session (d.peer f.port f.src).seq then
      (d.bump (Reg.BRZ_PORT_REPEAT f.port) 1).brzRepeat f
    else (if (d.peer f.port f.src).up then d.accepted f else (d.accepted f).linkChange f.port f.src true).brzDeliver f := by
  have hmine : ¬ (f.dst ≠ d.brzOwn ∧ ¬ (d.isTwin = true ∧ f.dst = d.brzPair)) := fun h => not_or.2 h hdst
  simp only [Dev.brzReceive, hrun, hport, if_neg hmine, hauth, Bool.not_true, Bool.or_self, Bool.false_eq_true, if_false]
  rfl

end

theorem Dev.brzDeliver_of_heartbeat {f : BrzFrame} (hf : f.payload = .heartbeat) (d : Dev) : d.brzDeliver f = d := by
  simp only [Dev.brzDeliver, hf]

theorem Dev.accepted_frame (f : BrzFrame) (d : Dev) :
    d.accepted f = { d with regs := (d.accepted f).regs, brz := (d.accepted f).brz } := rfl

theorem Dev.reg_accepted (f : BrzFrame) (off : Nat) (d : Dev) : (d.accepted f).reg off =
    if off = Reg.BRZ_PORT_RXFRAMES f.port then d.reg (Reg.BRZ_PORT_RXFRAMES f.port) + 1 else d.reg off :=
  Dev.reg_wrapAdd (Reg.BRZ_PORT_RXFRAMES f.port) 1 off d

theorem brazeFrameReceived_judges (f : BrzFrame) (s : State) (hrun : s.dev.brzRun = true) (hport : s.dev.brzPortOn f.port = true) :
    let x := s.dev.peer f.port f.src
    (¬ s.dev.brzMine f → Completes (.brazeFrameReceived f) s (fun t =>
      t = { s with dev := s.dev.bump (Reg.BRZ_PORT_NOPEER f.port) 1 })) ∧
    (s.dev.brzMine f → s.dev.brzAuth f = false → Completes (.brazeFrameReceived f) s (fun t =>
      t = { s with dev := s.dev.bump (Reg.BRZ_PORT_AUTH f.port) 1 })) ∧
    (s.dev.brzMine f → s.dev.brzAuth f = true → seqNum f.session f.seq < seqNum x.session x.seq →
      Completes (.brazeFrameReceived f) s (fun t => t = { s with dev := s.dev.bump (Reg.BRZ_PORT_REPLAY f.port) 1 })) ∧
    (s.dev.brzMine f → s.dev.brzAuth f = true → seqNum f.session f.seq = seqNum x.session x.seq →
      Completes (.brazeFrameReceived f) s (fun t => t = { s with dev := (s.dev.bump (Reg.BRZ_PORT_REPEAT f.port) 1).brzRepeat f })) ∧
    (s.dev.brzMine f → s.dev.brzAuth f = true → seqNum x.session x.seq < seqNum f.session f.seq → x.up = true → f.payload = .heartbeat →
      Completes (.brazeFrameReceived f) s (fun t => s.MainOnly t ∧
        t.dev.peer f.port f.src = { x with session := f.session, seq := f.seq, lastRx := s.dev.raw } ∧
        t.dev.reg (Reg.BRZ_PORT_RXFRAMES f.port) = s.dev.reg (Reg.BRZ_PORT_RXFRAMES f.port) + 1 ∧
        (∀ off, off ≠ Reg.BRZ_PORT_RXFRAMES f.port → t.dev.reg off = s.dev.reg off) ∧
        t.dev = { s.dev with regs := t.dev.regs, brz := t.dev.brz })) := by
  have hdo {P : State → Prop} {e : Dev} (he : s.dev.brzReceive f = e) (h : P { s with dev := e }) :
      Completes (.brazeFrameReceived f) s P := completes_onDev (f := Dev.brzReceive f) rfl (by rwa [he])
  refine ⟨fun hdst => ?_, fun hdst hauth => ?_, fun hdst hauth hold => ?_, fun hdst hauth hsame => ?_,
    fun hdst hauth hnew hup hbeat => ?_⟩
  · exact hdo (Dev.brzReceive_of_stranger hrun hport hdst) rfl
  · exact hdo (Dev.brzReceive_of_untagged hrun hport hdst hauth) rfl
  · exact hdo ((Dev.brzReceive_of_tagged hrun hport hdst hauth).trans (if_pos hold)) rfl
  · refine hdo ((Dev.brzReceive_of_tagged hrun hport hdst hauth).trans ?_) rfl
    rw [if_neg hsame.not_lt, if_pos hsame]
  · have haccept : s.dev.brzReceive f = s.dev.accepted f := by
      rw [Dev.brzReceive_of_tagged hrun hport hdst hauth, if_neg hnew.not_gt, if_neg hnew.ne', if_pos hup, Dev.brzDeliver_of_heartbeat hbeat]
    refine hdo haccept ⟨rfl, Dev.peer_setPeer .., ?_, fun off ho => ?_, s.dev.accepted_frame f⟩
    · exact (s.dev.reg_accepted f _).trans (if_pos rfl)
    · exact (s.dev.reg_accepted f _).trans (if_neg ho)

/-! ### What Braze sends by the clock (R320, R323, R324, R327, R328) -/

theorem brzHeartbeatTx_sends (s : State) (hrun : s.dev.brzRun = true) (hdue : s.dev.brz.nextHb ≤ s.dev.raw) :
    Completes .brzHeartbeatTx s (fun t => s.MainOnly t ∧
      t.dev.brz = { s.dev.brz with nextHb := s.dev.raw + s.dev.hbNs, tx := t.dev.brz.tx } ∧
      s.dev.BrazeOnly t.dev) := by
  refine completes_if rfl (by simp [hrun, hdue]) ⟨rfl, ?_⟩
  have hsent := Dev.sent_heartbeats { s.dev with brz := { s.dev.brz with nextHb := s.dev.raw + s.dev.hbNs } }
  exact ⟨hsent.brz_eq, hsent.brazeOnly⟩

/-- A local operand that changes queues passes of Safelight. -/
theorem Dev.localChange_eq (d : Dev) : d.localChange = { d with sfl := d.localChange.sfl } := by
  unfold Dev.localChange
  split
  · rfl
  · refine List.foldlRecOn (motive := fun e : Dev => e = { d with sfl := e.sfl }) _ _ rfl fun e he rc _ => ?_
    split
    · exact he
    · dsimp only
      split
      · exact he
      · rw [he]
        rfl

theorem Dev.linkChange_shows (port dev : Nat) (up : Bool) (d : Dev) :
    (d.linkChange port dev up).peer port dev = { d.peer port dev with up := up } ∧
      (d.linkChange port dev up).rbit Reg.BRZ_EVT 0 = true := by
  unfold Dev.linkChange
  extract_lets held twin x raised told judged
  have hraised : raised.brz = (d.setPeer port dev { d.peer port dev with up := up }).brz := Dev.raise_brz ..
  have hbit : raised.rbit Reg.BRZ_EVT 0 = true := Dev.rbit_raise _ _ _ (by decide)
  obtain ⟨htold, htoldBit⟩ : told.brz = raised.brz ∧ told.rbit Reg.BRZ_EVT 0 = raised.rbit Reg.BRZ_EVT 0 := by
    unfold told
    split
    · refine ⟨Dev.raise_brz .., ?_⟩
      rw [Dev.rbit, Dev.reg_raise, if_pos rfl, Word.bit_setBit_ne _ _ _ _ (by decide) (by decide), Dev.rbit]
    · exact ⟨rfl, rfl⟩
  obtain ⟨hjudged, hjudgedBit⟩ : judged.brz = told.brz ∧ judged.rbit Reg.BRZ_EVT 0 = told.rbit Reg.BRZ_EVT 0 := by
    unfold judged
    split
    · rw [Dev.localChange_eq]
      exact ⟨rfl, rfl⟩
    · exact ⟨rfl, rfl⟩
  have hbrz := hjudged.trans (htold.trans hraised)
  refine ⟨?_, hjudgedBit.trans (htoldBit.trans hbit)⟩
  calc judged.twinWatch.peer port dev = judged.peer port dev := Dev.peer_congr rfl ..
    _ = (d.setPeer port dev { d.peer port dev with up := up }).peer port dev := Dev.peer_congr (by rw [hbrz]) ..
    _ = { d.peer port dev with up := up } := Dev.peer_setPeer ..

theorem brzLinkDown_drops (port dev : Nat) (s : State) (hup : (s.dev.peer port dev).up = true)
    (hsilent : (s.dev.peer port dev).lastRx + 3 * s.dev.hbNs ≤ s.dev.raw) :
    Completes (.brzLinkDown port dev) s (fun t => s.MainOnly t ∧ t.dev.peer port dev = { s.dev.peer port dev with up := false } ∧
      t.dev.rbit Reg.BRZ_EVT 0 = true) :=
  completes_if rfl (by simp [hup, hsilent]) ⟨rfl, s.dev.linkChange_shows port dev false⟩

/-- An alarm that goes out again is sent under its own sequence number, or takes the next (R324). -/
theorem Dev.alarmAgain_sends {p : BrzPayload} {d : Dev} (hp : d.brz.pending = some p) (hup : d.uplink = true) (hrun : d.brzRun = true)
    (hdue : d.brz.nextRto ≤ d.raw) : ∃ (seq : Word × Word) (tx : KMap (Word × Word)),
      Dev.Sent { d with brz := { d.brz with nextRto := d.raw + d.rtoNs, alarmSeq := seq, tx := tx } } d.alarmAgain := by
  simp only [Dev.alarmAgain, hp, hup, hrun, decide_eq_false (Nat.not_lt.2 hdue), Bool.not_true, Bool.or_self, Bool.false_eq_true, if_false]
  split
  · exact ⟨_, _, Dev.sent_brzResend ..⟩
  · exact ⟨_, _, Dev.sent_brzResend ..⟩

theorem brzAlarmRetransmit_sends (p : BrzPayload) (s : State) (hp : s.dev.brz.pending = some p) (hup : s.dev.uplink = true)
    (hrun : s.dev.brzRun = true) (hdue : s.dev.brz.nextRto ≤ s.dev.raw) :
    Completes .brzAlarmRetransmit s (fun t => s.MainOnly t ∧ t.dev.brz.nextRto = s.dev.raw + s.dev.rtoNs ∧ t.dev.brz.pending = some p ∧
      s.dev.BrazeOnly t.dev) := by
  obtain ⟨seq, tx, hsent⟩ := Dev.alarmAgain_sends hp hup hrun hdue
  exact completes_onDev (f := Dev.alarmAgain) rfl
    ⟨rfl, congrArg BrzS.nextRto hsent.brz_eq, (congrArg BrzS.pending hsent.brz_eq).trans hp, hsent.brazeOnly⟩

/-- The next TIME_SYNC of a child is due 125 ms on (R327). -/
theorem exec_brzTimeSyncTx {dev : Nat} {c : Nat × Nat} {s : State} (hc : s.dev.children.find? (fun x => x.2 == dev) = some c)
    (hrun : s.dev.brzRun = true) (hactive : s.dev.brzActive = true) (hdue : KMap.getD s.dev.brz.syncAt dev 0 ≤ s.dev.raw) :
    ∃ (src slot : Nat) (p : BrzPayload), exec (.brzTimeSyncTx dev) s = .next { s with dev :=
      (Dev.brzSend 1 src dev slot p
        { s.dev with brz := { s.dev.brz with syncAt := KMap.put s.dev.brz.syncAt dev (s.dev.raw + 125000000) } }) } := by
  simp only [exec, execBrzTimeSyncTx, State.onDev, hc, hrun, hactive, decide_eq_false (Nat.not_lt.2 hdue), Bool.not_true, Bool.or_self,
    Bool.false_eq_true, if_false]
  exact ⟨_, _, _, rfl⟩

theorem brzTimeSyncTx_sends (dev : Nat) (c : Nat × Nat) (s : State) (hc : s.dev.children.find? (fun x => x.2 == dev) = some c)
    (hrun : s.dev.brzRun = true) (hactive : s.dev.brzActive = true) (hdue : KMap.getD s.dev.brz.syncAt dev 0 ≤ s.dev.raw) :
    Completes (.brzTimeSyncTx dev) s (fun t => s.MainOnly t ∧ KMap.get? t.dev.brz.syncAt dev = some (s.dev.raw + 125000000) ∧
      s.dev.BrazeOnly t.dev) := by
  obtain ⟨src, slot, p, hexec⟩ := exec_brzTimeSyncTx hc hrun hactive hdue
  have hsent := Dev.sent_brzSend 1 src dev slot p
    { s.dev with brz := { s.dev.brz with syncAt := KMap.put s.dev.brz.syncAt dev (s.dev.raw + 125000000) } }
  refine ⟨_, hexec, rfl, ?_, hsent.brazeOnly⟩
  calc KMap.get? (Dev.brzSend ..).brz.syncAt dev = KMap.get? (KMap.put s.dev.brz.syncAt dev (s.dev.raw + 125000000)) dev :=
        congrArg (fun x : BrzS => KMap.get? x.syncAt dev) hsent.brz_eq
    _ = some (s.dev.raw + 125000000) := (KMap.get?_put ..).trans (if_pos rfl)

theorem brzTimeReqTx_sends (s : State) (hrun : s.dev.brzRun = true) (hup : s.dev.uplink = true)
    (hdue : s.dev.brz.reqAt + 1000000000 ≤ s.dev.raw) :
    Completes .brzTimeReqTx s (fun t => s.MainOnly t ∧ t.dev.brz.reqAt = s.dev.raw ∧ t.dev.brz.t1 = some s.dev.t16 ∧
      s.dev.BrazeOnly t.dev) := by
  refine completes_if_not rfl (by simp [hrun, hup, hdue]) ⟨rfl, ?_⟩
  have hsent := Dev.sent_brzUp .timeReq { s.dev with brz := { s.dev.brz with reqAt := s.dev.raw, t1 := some s.dev.t16 } }
  exact ⟨congrArg BrzS.reqAt hsent.brz_eq, congrArg BrzS.t1 hsent.brz_eq, hsent.brazeOnly⟩

/-- An offer of the role moves the causes of the offer, that it stands, and what sending moves (R332). -/
theorem Dev.offerRole_sent (cause : Nat) (d : Dev) : ∃ (causes : List Nat) (giveUp : Bool),
    Dev.Sent { d with brz := { d.brz with causes := causes, giveUp := giveUp } } (d.offerRole cause) := by
  unfold Dev.offerRole
  split
  · exact ⟨_, _, Dev.Sent.refl d⟩
  · dsimp only
    split
    · exact ⟨_, _, Dev.Sent.refl d⟩
    · exact ⟨_, _, Dev.sent_brzTwin ..⟩

theorem twinStateTx_sends (s : State) (htwin : s.dev.isTwin = true) (hrun : s.dev.brzRun = true) (hdue : s.dev.brz.nextTwin ≤ s.dev.raw) :
    Completes .twinStateTx s (fun t => s.MainOnly t ∧ t.dev.brz.nextTwin = s.dev.raw + 1000000 ∧
      t.dev.brz.wasLock = decide (s.dev.tbu.sync = 2) ∧ t.dev.brz.role = s.dev.brz.role ∧
      s.dev.BrazeOnly t.dev) := by
  refine completes_if_not rfl (by simp [htwin, hrun, hdue]) ⟨rfl, ?_⟩
  extract_lets lost x noted told
  have hsent : noted.Sent told := noted.sent_brzTwin _
  obtain ⟨causes, giveUp, hoffer⟩ : ∃ (causes : List Nat) (giveUp : Bool),
      Dev.Sent { told with brz := { told.brz with causes := causes, giveUp := giveUp } } (if lost then told.offerRole 2 else told) := by
    split
    · exact told.offerRole_sent 2
    · exact ⟨_, _, Dev.Sent.refl told⟩
  exact ⟨hoffer.nextTwin.trans hsent.nextTwin, hoffer.wasLock.trans hsent.wasLock, hoffer.role.trans hsent.role,
    (Dev.Sent.brazeOnly (x := noted.brz) hsent).trans hoffer.brazeOnly⟩

/-- Settles O43, clause by clause (R308, R317 to R320, R324, R327, R328). That the address is judged before the tag is log entry 66, that
delayed sets leave in CONFIG as well is log entry 64. -/
theorem braze : Obligations.Braze :=
  ⟨brazeFrameReceived_judges, standbyDelayedSend_sends, sealDatagram_seals, brzHeartbeatTx_sends, brzLinkDown_drops,
    brzAlarmRetransmit_sends, brzTimeSyncTx_sends, brzTimeReqTx_sends, twinStateTx_sends⟩

/-! ### Roles of a twin pair (R330 to R334) -/

@[simp] theorem Dev.setRole_brz (role cause : Nat) (d : Dev) : (d.setRole role cause).brz = { d.brz with role := role, cause := cause } := by
  simp [Dev.setRole]

theorem Dev.role_sendAlarmUp (p : BrzPayload) (d : Dev) : (d.sendAlarmUp p).brz.role = d.brz.role := (d.sent_brzUp p).role

theorem Dev.since_sendAlarmUp (p : BrzPayload) (d : Dev) : (d.sendAlarmUp p).brz.since = d.brz.since := (d.sent_brzUp p).since

/-- A takeover makes the device ACTIVE, and the condition that led to it is forgotten. -/
theorem Dev.takeover_active (cause : Nat) (d : Dev) : (d.takeover cause).brz.role = 1 ∧ (d.takeover cause).brz.since = none := by
  unfold Dev.takeover
  extract_lets was changed x active
  have hactive : active.brz.role = 1 ∧ active.brz.since = none := by
    refine ⟨?_, rfl⟩
    show changed.brz.role = 1
    unfold changed
    split
    · assumption
    · rw [Dev.setRole_brz]
  split
  case h_1 => exact hactive
  case h_2 =>
    extract_lets
    split
    · rw [Dev.role_sendAlarmUp, Dev.since_sendAlarmUp]
      exact hactive
    · exact hactive

theorem twinTakeover_takes (c u : Nat) (s : State) (hsince : s.dev.twinWatch.brz.since = some (c, u)) :
    (u + zeroActs 1 (s.dev.fld Reg.BRZ_TWIN_TIMING 16 8) * 1000000 ≤ s.dev.raw → Completes .twinTakeover s (fun t => s.MainOnly t ∧
      t.dev = s.dev.twinWatch.takeover c ∧ t.dev.brz.role = 1 ∧ t.dev.brz.since = none)) ∧
    (s.dev.raw < u + zeroActs 1 (s.dev.fld Reg.BRZ_TWIN_TIMING 16 8) * 1000000 → Completes .twinTakeover s (fun t =>
      t = { s with dev := s.dev.twinWatch })) := by
  have hexec : exec .twinTakeover s = .next { s with dev :=
      (if u + zeroActs 1 (s.dev.fld Reg.BRZ_TWIN_TIMING 16 8) * 1000000 ≤ s.dev.raw then s.dev.twinWatch.takeover c
        else s.dev.twinWatch) } := by
    simp only [exec, execTwinTakeover, State.onDev, hsince]
    rfl
  exact ⟨fun hdue => completes_if hexec hdue ⟨rfl, rfl, Dev.takeover_active c _⟩,
    fun hearly => completes_if_not hexec (Nat.not_le.2 hearly) rfl⟩

theorem Dev.twinChecked_of_well {r : TwinCheckResult} (htiles : r.selfTilesBad = []) (hpub : r.selfPubOk = true) (fz : Fuse) (set : Nat)
    (d : Dev) :
    (d.twinChecked fz set r).brz = { d.brz with checkDue := none, trans := if r.partnerOk then d.raw :: d.brz.trans.filter (fun u =>
      decide (d.raw < u + 60000000000)) else d.brz.trans } ∧
    Dev.Keeps noReg { d with brz := (d.twinChecked fz set r).brz } (d.twinChecked fz set r) := by
  simp only [Dev.twinChecked, htiles, hpub, List.contains_nil, Bool.false_and, List.filter_false, List.isEmpty_nil, Bool.and_self, if_true]
  cases r.partnerOk with
  | false => exact ⟨rfl, Dev.Keeps.refl ..⟩
  | true =>
    simp only [Bool.not_true, Bool.false_eq_true, if_false, if_true]
    split
    · rw [Dev.post_brz]
      exact ⟨rfl, Dev.keeps_post ..⟩
    · exact ⟨rfl, Dev.Keeps.refl ..⟩

theorem twinChecks_counts (x : Nat × Nat) (r : TwinCheckResult) (s : State) (hdue : s.dev.brz.checkDue = some x)
    (hrun : s.dev.op.running = true) (htiles : r.selfTilesBad = []) (hpub : r.selfPubOk = true) :
    Completes (.twinChecks r) s (fun t => s.MainOnly t ∧
      t.dev.brz = { s.dev.brz with checkDue := none, trans := if r.partnerOk then s.dev.raw :: s.dev.brz.trans.filter (fun u =>
        decide (s.dev.raw < u + 60000000000)) else s.dev.brz.trans } ∧
      Dev.Keeps noReg { s.dev with brz := t.dev.brz } t.dev) := by
  obtain ⟨set, at_⟩ := x
  refine ⟨_, rfl, rfl, ?_⟩
  simp only [hdue, hrun, if_true]
  exact Dev.twinChecked_of_well htiles hpub s.fuse set s.dev

theorem completes_brzSwap {h : CmdHdr} {s : State} {P : State → Prop} (ha : s.dev.Admits h 0x80 [] true [.run, .degraded])
    (hP : P { s with dev := if s.dev.brz.role ≠ 1 ∨ s.dev.partnerReady = false then s.dev.refuse h 0x80 6 1 0xFFFF []
      else Dev.offerRole 5 { s.dev with brz := { s.dev.brz with swap := s.dev.brz.swap ++ [h] } } }) : Completes (.brzSwap h) s P :=
  completes_cmd rfl ha hP

/-- An ACTIVE twin offers its role to a partner that is ready. -/
theorem Dev.offerRole_of_ready {d : Dev} (htwin : d.isTwin = true) (hrole : d.brz.role = 1) (hready : d.partnerReady = true) (cause : Nat) :
    ∃ causes : List Nat, Dev.Sent { d with brz := { d.brz with causes := causes, giveUp := true } } (d.offerRole cause) := by
  simp only [Dev.offerRole, htwin, hrole, hready, Bool.not_true, bne_self_eq_false, Bool.or_self, Bool.false_eq_true, if_false]
  exact ⟨_, Dev.sent_brzTwin ..⟩

theorem brzSwap_offers (h : CmdHdr) (s : State) (ha : s.dev.Admits h 0x80 [] true [.run, .degraded]) :
    (s.dev.brz.role ≠ 1 ∨ s.dev.partnerReady = false → Completes (.brzSwap h) s (fun t =>
      t = { s with dev := s.dev.refuse h 0x80 6 1 0xFFFF [] } ∧ Dev.Keeps noReg s.dev t.dev)) ∧
    (s.dev.brz.role = 1 → s.dev.partnerReady = true → s.dev.isTwin = true → Completes (.brzSwap h) s (fun t => s.MainOnly t ∧
      t.dev.brz.swap = s.dev.brz.swap ++ [h] ∧ t.dev.brz.giveUp = true ∧ t.dev.brz.role = 1 ∧
      s.dev.BrazeOnly t.dev)) := by
  refine ⟨fun hbad => completes_brzSwap ha ?_, fun hrole hready htwin => completes_brzSwap ha ?_⟩
  · rw [if_pos hbad]
    exact ⟨rfl, Dev.keeps_refuse ..⟩
  · obtain ⟨causes, hoffer⟩ := Dev.offerRole_of_ready (d := { s.dev with brz := { s.dev.brz with swap := s.dev.brz.swap ++ [h] } })
      htwin hrole hready 5
    rw [if_neg (by simp [hrole, hready])]
    exact ⟨rfl, hoffer.swap, hoffer.giveUp, hoffer.role.trans hrole, Dev.Sent.brazeOnly hoffer⟩

/-- Settles O44, clause by clause (R330 to R334). That several swaps may wait for one acknowledgement, and that each cause of a takeover
is timed by itself, is log entry 67. -/
theorem twinRoles : Obligations.TwinRoles := ⟨twinTakeover_takes, twinChecks_counts, brzSwap_offers⟩

end Sys2Proof.Machine

/-! # What every step keeps

A step is the command at the front of the queue or a tick; a command goes onward (`exec_onward`) and a tick leaves non-volatile
memory, so that a run keeps the proof log whole and takes no counter back. -/

namespace Sys2Proof.Machine

theorem step_of_pending {s : State} {c : Instr} {rest : List Instr} (h : s.pending = c :: rest) :
    step s = exec c { s with pending := rest } := by
  simp only [step, h]

/-- Settles O1 (log entry 4 says that the queue's front is what a step takes). -/
theorem stepTakesTheFront : Obligations.StepTakesTheFront := fun _ _ _ h => step_of_pending h

/-- A step takes non-volatile memory onward. -/
theorem step_onward {s t : State} (h : step s = .next t) : s.nv.Onward t.nv := by
  cases hp : s.pending with
  | nil =>
    obtain rfl : s.tick = t := by simpa [step_of_idle hp] using h
    exact Nv.Onward.refl _
  | cons c rest =>
    obtain ⟨u, hu, -, -, hnv⟩ := exec_onward c { s with pending := rest }
    obtain rfl : u = t := by simpa [step_of_pending hp, hu] using h
    exact hnv

/-- Settles O5: at reset both partitions are empty (the model's choice, log entry 2). -/
theorem logWholeAtReset : Obligations.LogWholeAtReset :=
  ⟨(Partition.wf_iff _).2 ⟨rfl, rfl⟩, (Partition.wf_iff _).2 ⟨rfl, rfl⟩⟩

/-- Settles O6 (R473, R474, R476, R484). -/
theorem stepKeepsLogWhole : Obligations.StepKeepsLogWhole := fun _ _ hs h => (step_onward h).1 hs

/-- Settles O7 (R426, R441, R467, R474). -/
theorem stepNeverGoesBack : Obligations.StepNeverGoesBack := fun _ _ hs h => (step_onward h).2 hs

end Sys2Proof.Machine

/-! # Spill queues and rings (chapter 12)

First how a queue's state reads after it is stored; then, in the order of the statements, the words of an item, the commands of the
spill queues, and the rings. -/

namespace Sys2Proof.Machine

@[simp] theorem Dev.spqQ_setSpq (q k : Nat) (x : SpqQ) (d : Dev) : (d.setSpq q x).spqQ k = if k = q then x else d.spqQ k := by
  simp only [Dev.spqQ, Dev.setSpq, KMap.get?_put]
  split <;> rfl

theorem Dev.spqQ_congr {d e : Dev} (h : e.spq = d.spq) (q : Nat) : e.spqQ q = d.spqQ q := by rw [Dev.spqQ, Dev.spqQ, h]

@[simp] theorem Dev.spqQ_emit (o : Output) (q : Nat) (d : Dev) : (d.emit o).spqQ q = d.spqQ q := rfl
@[simp] theorem Dev.spqQ_setReg (off : Nat) (w : Word) (q : Nat) (d : Dev) : (d.setReg off w).spqQ q = d.spqQ q := rfl
@[simp] theorem Dev.spqQ_wrapAdd (off n q : Nat) (d : Dev) : (d.wrapAdd off n).spqQ q = d.spqQ q := rfl
@[simp] theorem Dev.spqQ_doorbell (off : Nat) (w : Word) (q : Nat) (d : Dev) : (d.doorbell off w).spqQ q = d.spqQ q :=
  Dev.spqQ_congr (Dev.doorbell_spq ..) q
@[simp] theorem Dev.spqQ_msix (v q : Nat) (d : Dev) : (d.msix v).spqQ q = d.spqQ q := Dev.spqQ_congr (Dev.msix_spq ..) q

theorem Dev.doorbell_reg (off : Nat) (w : Word) (o : Nat) (d : Dev) : (d.doorbell off w).reg o = d.reg o := by
  unfold Dev.doorbell
  split <;> rfl

/-! ### The words of an item (R390) -/

section
variable {q n : Nat} {w : Word} {d : Dev}

theorem Dev.popData_last (h : (d.spqQ q).inside = some (n, [w])) : d.popData q =
    ((d.setSpq q { d.spqQ q with inside := none }).wrapAdd (Reg.SPQ_ITEMS q) 1).emit (.readData (Reg.SPQ_POP_DATA q) w) := by
  simp [Dev.popData, h]

theorem Dev.popData_more {v : Word} {ws : List Word} (h : (d.spqQ q).inside = some (n, w :: v :: ws)) : d.popData q =
    (d.setSpq q { d.spqQ q with inside := some (n, v :: ws) }).emit (.readData (Reg.SPQ_POP_DATA q) w) := by
  simp [Dev.popData, h]

/-- What is left of the main domain when the words `ws` of an item have been read to its end. -/
structure Dev.ItemRead (q : Nat) (ws : List Word) (d e : Dev) : Prop where
  out : e.out = ws.reverse.map (fun x => .readData (Reg.SPQ_POP_DATA q) x) ++ d.out
  inside : (e.spqQ q).inside = none
  items : (e.spqQ q).items = (d.spqQ q).items
  counted : e.reg (Reg.SPQ_ITEMS q) = d.reg (Reg.SPQ_ITEMS q) + 1

/-- Reading the data register once for each word that is left, by induction on these words. -/
theorem Dev.itemRead_foldl_popData (ws : List Word) (h : (d.spqQ q).inside = some (n, w :: ws)) :
    d.ItemRead q (w :: ws) ((w :: ws).foldl (fun (e : Dev) _ => e.popData q) d) := by
  induction ws generalizing w d with
  | nil =>
    rw [List.foldl_cons, List.foldl_nil, Dev.popData_last h]
    exact { out := rfl
            inside := by simp
            items := by simp
            counted := by simp }
  | cons v ws ih =>
    rw [List.foldl_cons, Dev.popData_more h]
    set e : Dev := (d.setSpq q { d.spqQ q with inside := some (n, v :: ws) }).emit (.readData (Reg.SPQ_POP_DATA q) w) with he
    have hq : e.spqQ q = { d.spqQ q with inside := some (n, v :: ws) } := by simp [he]
    have hread := ih (d := e) (w := v) (by rw [hq])
    exact { out := by rw [hread.out, he]; simp
            inside := hread.inside
            items := by rw [hread.items, hq]
            counted := hread.counted }

end

/-- Settles O50 (R390). -/
theorem spillWordsComeOutInOrder : Obligations.SpillWordsComeOutInOrder := by
  intro q n w ws d h
  have hread := Dev.itemRead_foldl_popData ws h
  exact ⟨hread.out, hread.inside, hread.items, hread.counted⟩

/-! ### Draining (R388, R389) -/

/-- Bytes of the host buffer that an item takes. -/
def SpqItem.bytes (i : SpqItem) : Nat := ceilDiv (8 + 4 * i.words.length) 8 * 8

/-- Bytes left unused at the end of the host buffer when an item does not fit there. -/
def Dev.hbufSkip (q : Nat) (i : SpqItem) (d : Dev) : Nat :=
  if d.hbufSize q < (d.reg (Reg.SPQ_WR q)).toNat % d.hbufSize q + i.bytes then d.hbufSize q - (d.reg (Reg.SPQ_WR q)).toNat % d.hbufSize q else 0

/-- Bytes of the host buffer that the host has not read. -/
def Dev.hbufHeld (q : Nat) (d : Dev) : Nat := (d.reg (Reg.SPQ_WR q) - (d.spqQ q).hostRead).toNat

/-- An item goes to the host buffer: a mark where the buffer's end is left unused, then its header and its words. -/
def Dev.hbufWrite (q : Nat) (i : SpqItem) (d : Dev) : Dev :=
  let base := (d.reg (Reg.SPQ_HBUF_LO q)).toNat / 4096 * 4096 + (d.reg (Reg.SPQ_HBUF_HI q)).toNat * 4294967296
  let at_ := (d.reg (Reg.SPQ_WR q)).toNat % d.hbufSize q
  let e := if d.hbufSkip q i = 0 then d else d.emit (.hostWrite (base + at_) (.words [Word.ones, 0]))
  e.emit (.hostWrite (base + (at_ + d.hbufSkip q i) % d.hbufSize q) (.item i.header (d.spqQ q).drops i.words))

/-- An item has gone to the host buffer: its queue is `x` now, and the buffer's write index `wr`. -/
def Dev.itemGone (q : Nat) (x : SpqQ) (wr : Word) (d : Dev) : Dev :=
  (((d.setReg (Reg.SPQ_WR q) wr).wrapAdd (Reg.SPQ_ITEMS q) 1).setSpq q x).doorbell (0xA00 + 4 * q) wr

/-- The move of an item that fits whole. -/
def Dev.spqMoved (q : Nat) (i : SpqItem) (rest : List SpqItem) (d : Dev) : Dev :=
  let e := (d.hbufWrite q i).itemGone q { d.spqQ q with items := rest, drops := 0, sent := true }
    (d.reg (Reg.SPQ_WR q) + BitVec.ofNat 32 (d.hbufSkip q i + i.bytes))
  if (d.spqQ q).sent then e else e.msix (80 + q)

@[simp] theorem Dev.spqQ_hbufWrite (q k : Nat) (i : SpqItem) (d : Dev) : (d.hbufWrite q i).spqQ k = d.spqQ k := by
  unfold Dev.hbufWrite
  dsimp only
  split <;> rfl

@[simp] theorem Dev.reg_hbufWrite (q off : Nat) (i : SpqItem) (d : Dev) : (d.hbufWrite q i).reg off = d.reg off := by
  unfold Dev.hbufWrite
  dsimp only
  split <;> rfl

theorem Dev.reg_itemGone (q off : Nat) (x : SpqQ) (wr : Word) (d : Dev) : (d.itemGone q x wr).reg off =
    if off = Reg.SPQ_ITEMS q then d.reg (Reg.SPQ_ITEMS q) + 1 else if off = Reg.SPQ_WR q then wr else d.reg off := by
  simp [Dev.itemGone, Dev.doorbell_reg]

/-- An item that fits whole leaves the queue; no other queue moves. -/
theorem Dev.spqQ_spqMoved (q k : Nat) (i : SpqItem) (rest : List SpqItem) (d : Dev) : (d.spqMoved q i rest).spqQ k =
    if k = q then { d.spqQ q with items := rest, drops := 0, sent := true } else d.spqQ k := by
  unfold Dev.spqMoved
  dsimp only
  split <;> simp [Dev.itemGone]

theorem Dev.reg_spqMoved (q off : Nat) (i : SpqItem) (rest : List SpqItem) (d : Dev) : (d.spqMoved q i rest).reg off =
    if off = Reg.SPQ_ITEMS q then d.reg (Reg.SPQ_ITEMS q) + 1
    else if off = Reg.SPQ_WR q then d.reg (Reg.SPQ_WR q) + BitVec.ofNat 32 (d.hbufSkip q i + i.bytes) else d.reg off := by
  unfold Dev.spqMoved
  dsimp only
  split <;> simp [Dev.reg_itemGone]

theorem completes_spqDrain {q : Nat} {s : State} {P : State → Prop} (hq : q < 64) (hserved : s.dev.spqServed = true)
    (hen : s.dev.rbit (Reg.SPQ_Q_CTRL q) 0 = true) (hmode : s.dev.rbit (Reg.SPQ_Q_CTRL q) 1 = false)
    (hP : P { s with dev := s.dev.spqMove q }) : Completes (.spqDrain q .clean) s P :=
  completes_if_not (p := 63 < q ∨ _) rfl (by simp [hserved, hen, hmode]; omega) hP

section
variable {q : Nat} {i : SpqItem} {rest : List SpqItem} {d : Dev} (hitems : (d.spqQ q).items = i :: rest)
include hitems

theorem Dev.spqMove_eq : d.spqMove q = if d.hbufSize q < d.hbufHeld q + d.hbufSkip q i + i.bytes then d else d.spqMoved q i rest := by
  simp only [Dev.spqMove, Dev.spqMoved, Dev.hbufWrite, Dev.itemGone, Dev.hbufHeld, Dev.hbufSkip, SpqItem.bytes, hitems]
  rfl

theorem Dev.spqMove_of_full (h : d.hbufSize q < d.hbufHeld q + d.hbufSkip q i + i.bytes) : d.spqMove q = d :=
  (Dev.spqMove_eq hitems).trans (if_pos h)

theorem Dev.spqMove_of_fits (h : d.hbufHeld q + d.hbufSkip q i + i.bytes ≤ d.hbufSize q) : d.spqMove q = d.spqMoved q i rest :=
  (Dev.spqMove_eq hitems).trans (if_neg (not_lt.2 h))

end

/-! ### Reading the pop registers (R390) -/

section
variable {q : Nat} {s : State} {P : State → Prop} (hq : q < 64) (hon : s.dev.op.mainOn = true) (hlink : s.dev.host.link = true)
  (hstall : (s.dev.spqQ q).stall = none) (hserved : s.dev.popServed q = true)
include hq hon hlink hstall hserved

theorem completes_spqPopHdr (hP : P { s with dev := s.dev.popHdr q }) : Completes (.spqPopHdr q .clean) s P := by
  refine completes_if_not (p := 63 < q ∨ _) rfl (by simp [hon, hlink, hstall]; omega) ?_
  rw [if_pos hserved]
  exact hP

theorem completes_spqPopData (hP : P { s with dev := s.dev.popData q }) : Completes (.spqPopData q .clean) s P := by
  refine completes_if_not (p := 63 < q ∨ _) rfl (by simp [hon, hlink, hstall]; omega) ?_
  rw [if_pos hserved]
  exact hP

end

section
variable {q : Nat} {d : Dev} (hout : (d.spqQ q).inside = none)
include hout

theorem Dev.popHdr_begins {i : SpqItem} {rest : List SpqItem} (hitems : (d.spqQ q).items = i :: rest) : d.popHdr q =
    (d.setSpq q { d.spqQ q with items := rest, inside := some (i.words.length, i.words) }).emit
      (.readData (Reg.SPQ_POP_HDR q) i.header) := by
  simp [Dev.popHdr, hout, hitems]

theorem Dev.popHdr_waits (hitems : (d.spqQ q).items = []) (hstall : d.stallNs ≠ 0) : d.popHdr q =
    d.setSpq q { d.spqQ q with stall := some (d.raw + d.stallNs) } := by
  simp [Dev.popHdr, hout, hitems, hstall]

theorem Dev.popData_outside : d.popData q = d.badPop q (Reg.SPQ_POP_DATA q) := by
  simp [Dev.popData, hout]

end

theorem exec_spqPopStallEnd (q : Nat) (s : State) : exec (.spqPopStallEnd q) s = s.onDev (fun d => match (d.spqQ q).stall with
    | some t => if t ≤ d.raw then (d.setSpq q { d.spqQ q with stall := none }).emit (.readData (Reg.SPQ_POP_HDR q) 0) else d
    | none => d) := rfl

theorem spqPopStallEnd_completes (q u : Nat) (s : State) (hstall : (s.dev.spqQ q).stall = some u) (hdue : u ≤ s.dev.raw) :
    Completes (.spqPopStallEnd q) s (fun t => s.MainOnly t ∧ t.dev.spqQ q = { s.dev.spqQ q with stall := none } ∧
      t.dev.out = .readData (Reg.SPQ_POP_HDR q) 0 :: s.dev.out) := by
  refine completes_onDev (exec_spqPopStallEnd q s) ?_
  simp only [hstall, if_pos hdue]
  exact ⟨rfl, by simp, rfl⟩

/-! ### `SPQ_FLUSH` and `SPQ_DROP_REM` (R391, R392) -/

theorem completes_spqFlush {h : CmdHdr} {q : Nat} {s : State} {P : State → Prop} (ha : s.dev.Admits h 0x09 [] true legalCRD)
    (hP : P { s with dev := s.dev.spqFlushCmd h q }) : Completes (.spqFlush h q) s P :=
  completes_cmd (body := Dev.spqFlushCmd h q) rfl ha hP

theorem completes_spqDropRem {h : CmdHdr} {q : Nat} {s : State} {P : State → Prop} (ha : s.dev.Admits h 0x0A [] true legalCRD)
    (hP : P { s with dev := s.dev.spqDropCmd h q }) : Completes (.spqDropRem h q) s P :=
  completes_cmd (body := Dev.spqDropCmd h q) rfl ha hP

section
variable (h : CmdHdr) {q : Nat} {d : Dev}

theorem Dev.spqFlushCmd_of_absent (hq : 63 < q) : d.spqFlushCmd h q = d.complete h 0x09 2 [] := if_pos hq

theorem Dev.spqFlushCmd_refused (hq : q ≤ 63) (hbusy : d.rbit (Reg.SPQ_Q_CTRL q) 0 = false ∨ (d.spqQ q).flush.isSome = true) :
    d.spqFlushCmd h q = d.refuse h 0x09 6 1 0xFFFF [] := (if_neg (not_lt.2 hq)).trans (if_pos hbusy)

theorem Dev.spqFlushCmd_flushes (hq : q ≤ 63) (hen : d.rbit (Reg.SPQ_Q_CTRL q) 0 = true) (hidle : (d.spqQ q).flush = none) :
    d.spqFlushCmd h q = d.setSpq q { d.spqQ q with
      items := [], inside := none, flush := some (h, (d.spqQ q).held, (d.spqQ q).unread) } :=
  (if_neg (not_lt.2 hq)).trans (if_neg (by simp [hen, hidle]))

theorem Dev.spqDropCmd_of_absent (hq : 63 < q) : d.spqDropCmd h q = d.complete h 0x0A 2 [] := if_pos hq

theorem Dev.spqDropCmd_refused (hq : q ≤ 63) (hnone : (d.spqQ q).inside = none ∨ d.rbit (Reg.SPQ_Q_CTRL q) 1 = false) :
    d.spqDropCmd h q = d.refuse h 0x0A 6 1 0xFFFF [] := by
  rw [Dev.spqDropCmd, if_neg (not_lt.2 hq)]
  rcases hnone with hout | hmode
  · simp [hout]
  · simp only [hmode, Bool.false_eq_true, if_false]
    split <;> rfl

theorem Dev.spqDropCmd_drops (hq : q ≤ 63) (hin : (d.spqQ q).inside.isSome = true) (hmode : d.rbit (Reg.SPQ_Q_CTRL q) 1 = true) :
    ∃ n, d.spqDropCmd h q = (d.setSpq q { d.spqQ q with inside := none }).complete h 0x0A 0 [BitVec.ofNat 32 n] := by
  obtain ⟨⟨n, ws⟩, hin⟩ := Option.isSome_iff_exists.1 hin
  exact ⟨ws.length, by simp only [Dev.spqDropCmd, if_neg (not_lt.2 hq), hin, hmode, if_true]⟩

end

/-- A queue stored, and its command completed. -/
theorem Dev.keeps_setSpq_complete (q : Nat) (x : SpqQ) (h : CmdHdr) (code status : Nat) (p : List Word) (d : Dev) :
    Dev.Keeps noReg { d with spq := ((d.setSpq q x).complete h code status p).spq } ((d.setSpq q x).complete h code status p) := by
  rw [Dev.complete_spq]
  exact Dev.keeps_complete h code status p (d.setSpq q x)

@[simp] theorem Dev.spqQ_complete (h : CmdHdr) (code status : Nat) (p : List Word) (q : Nat) (d : Dev) :
    (d.complete h code status p).spqQ q = d.spqQ q := Dev.spqQ_congr (Dev.complete_spq ..) q

theorem exec_spqFlushDone (q : Nat) (s : State) : exec (.spqFlushDone q) s = s.onDev (fun d => match (d.spqQ q).flush with
    | some (h, items, bytes) =>
      (d.setSpq q { d.spqQ q with flush := none }).complete h 0x09 0 [BitVec.ofNat 32 items, BitVec.ofNat 32 bytes]
    | none => d) := rfl

theorem spqFlushDone_completes (h : CmdHdr) (q items bytes : Nat) (s : State) (hflush : (s.dev.spqQ q).flush = some (h, items, bytes)) :
    Completes (.spqFlushDone q) s (fun t => s.MainOnly t ∧ t.dev.spqQ q = { s.dev.spqQ q with flush := none } ∧
      Dev.Keeps noReg { s.dev with spq := t.dev.spq } t.dev) := by
  refine completes_onDev (exec_spqFlushDone q s) ?_
  simp only [hflush]
  exact ⟨rfl, by simp, Dev.keeps_setSpq_complete ..⟩

/-! ### Enabling and disabling (R385, R393) -/

theorem Dev.hostSet_regs (off : Nat) (v : Word) (d : Dev) : ∃ r, d.hostSet off v = { d with regs := r } := by
  unfold Dev.hostSet
  split
  · exact ⟨_, rfl⟩
  · exact ⟨d.regs, rfl⟩

theorem Dev.reg_hostSet_ne {off o : Nat} (h : o ≠ off) (v : Word) (d : Dev) : (d.hostSet off v).reg o = d.reg o := by
  unfold Dev.hostSet
  split
  · exact Dev.reg_setReg_ne h _ d
  · rfl

/-- A queue enabled with a configuration that holds together. -/
def Dev.spqEnabled (q : Nat) (v : Word) (idx : Nat) (d : Dev) : Dev :=
  ((d.hostSet (Reg.SPQ_Q_CTRL q) v).setReg (Reg.SPQ_WR q) (BitVec.ofNat 32 idx)).setSpq q
    { d.spqQ q with items := [], inside := none, sent := false, cfgErr := false, hostRead := BitVec.ofNat 32 idx }

theorem completes_spqEnable {q idx : Nat} {v : Word} {s : State} {P : State → Prop} (hq : q < 64) (hw : s.dev.hstWritable = true)
    (hoff : s.dev.rbit (Reg.SPQ_Q_CTRL q) 0 = false) (hv : v.bit 0 = true)
    (hP : P { s with dev := if s.dev.middleBad s.fuse q v = true then s.dev.setSpq q { s.dev.spqQ q with cfgErr := true }
      else s.dev.spqEnabled q v idx }) : Completes (.spqEnable q v idx) s P :=
  completes_if_not (p := 63 < q ∨ _) rfl (by simp [hw, hoff, hv]; omega) hP

theorem spqEnable_enables (q idx : Nat) (v : Word) (s : State) (hq : q < 64) (hw : s.dev.hstWritable = true)
    (hoff : s.dev.rbit (Reg.SPQ_Q_CTRL q) 0 = false) (hv : v.bit 0 = true) (hok : s.dev.middleBad s.fuse q v = false) :
    Completes (.spqEnable q v idx) s (fun t => s.MainOnly t ∧
      t.dev.spqQ q = { s.dev.spqQ q with items := [], inside := none, sent := false, cfgErr := false, hostRead := BitVec.ofNat 32 idx } ∧
      t.dev.reg (Reg.SPQ_WR q) = BitVec.ofNat 32 idx ∧
      (∀ off, off ≠ Reg.SPQ_WR q → off ≠ Reg.SPQ_Q_CTRL q → t.dev.reg off = s.dev.reg off) ∧
      t.dev = { s.dev with regs := t.dev.regs, spq := t.dev.spq }) := by
  refine completes_spqEnable hq hw hoff hv ?_
  rw [hok, if_neg Bool.false_ne_true, Dev.spqEnabled]
  obtain ⟨r, hr⟩ := s.dev.hostSet_regs (Reg.SPQ_Q_CTRL q) v
  refine ⟨rfl, by simp, by simp, fun off hwr hctrl => ?_, by rw [hr]; rfl⟩
  rw [Dev.reg_setSpq, Dev.reg_setReg_ne hwr, Dev.reg_hostSet_ne hctrl]

theorem spqDisable_disables (q : Nat) (s : State) (hq : q < 64) (hw : s.dev.hstWritable = true)
    (hen : s.dev.rbit (Reg.SPQ_Q_CTRL q) 0 = true) : Completes (.spqDisable q) s (fun t => s.MainOnly t ∧
      t.dev.rbit (Reg.SPQ_Q_CTRL q) 0 = false ∧ t.dev.spqQ q = { s.dev.spqQ q with items := [], inside := none } ∧
      (∀ off, off ≠ Reg.SPQ_Q_CTRL q → t.dev.reg off = s.dev.reg off) ∧ t.dev = { s.dev with regs := t.dev.regs, spq := t.dev.spq }) := by
  refine completes_if_not (p := 63 < q ∨ _) rfl (by simp [hw, hen]; omega) ⟨rfl, ?_, by simp [SpqQ.emptied], fun off ho => ?_, rfl⟩
  · rw [Dev.rbit, Dev.reg_setSpq, Dev.reg_setField_self]
    exact Word.bit_setBit _ 0 false (by decide)
  · rw [Dev.reg_setSpq, Dev.reg_setField_ne ho]

/-- Settles O49, clause by clause (R385, R388 to R393). That a disable leaves a flush outstanding is log entry 75. -/
theorem spillQueues : Obligations.SpillQueues := by
  refine ⟨?drain, ?pop, spqPopStallEnd_completes, ?flush, spqFlushDone_completes, ?drop, ?enable, spqDisable_disables⟩
  case drain =>
    intro q i rest s hq hserved hen hmode hitems
    refine ⟨fun hfull => completes_spqDrain hq hserved hen hmode ?_, fun hfits => completes_spqDrain hq hserved hen hmode ?_⟩
    · rw [Dev.spqMove_of_full hitems hfull]
    · rw [Dev.spqMove_of_fits hitems hfits]
      refine ⟨rfl, (Dev.spqQ_spqMoved ..).trans (if_pos rfl), ?_, (Dev.reg_spqMoved ..).trans (if_pos rfl),
        fun k hk => (Dev.spqQ_spqMoved ..).trans (if_neg hk)⟩
      exact (Dev.reg_spqMoved ..).trans ((if_neg (by simp)).trans (if_pos rfl))
  case pop =>
    intro q s hq hon hlink hstall hserved
    refine ⟨fun i rest hout hitems => completes_spqPopHdr hq hon hlink hstall hserved ?_,
      fun hout hitems hns => completes_spqPopHdr hq hon hlink hstall hserved ?_,
      fun hout => completes_spqPopData hq hon hlink hstall hserved ?_⟩
    · rw [Dev.popHdr_begins hout hitems]
      exact ⟨rfl, rfl, by simp, rfl⟩
    · rw [Dev.popHdr_waits hout hitems hns]
    · rw [Dev.popData_outside hout]
      exact ⟨rfl, by simp [Dev.badPop], rfl⟩
  case flush =>
    intro h q s ha
    refine ⟨fun hq => completes_spqFlush ha ?_, fun hq hbusy => completes_spqFlush ha ?_, fun hq hen hidle => completes_spqFlush ha ?_⟩
    · rw [Dev.spqFlushCmd_of_absent h hq]
      exact ⟨rfl, Dev.keeps_complete ..⟩
    · rw [Dev.spqFlushCmd_refused h hq hbusy]
      exact ⟨rfl, Dev.keeps_refuse ..⟩
    · rw [Dev.spqFlushCmd_flushes h hq hen hidle]
      exact ⟨rfl, by simp, rfl⟩
  case drop =>
    intro h q s ha
    refine ⟨fun hq => completes_spqDropRem ha ?_, fun hq hnone => completes_spqDropRem ha ?_, fun hq hin hmode => completes_spqDropRem ha ?_⟩
    · rw [Dev.spqDropCmd_of_absent h hq]
      exact ⟨rfl, Dev.keeps_complete ..⟩
    · rw [Dev.spqDropCmd_refused h hq hnone]
      exact ⟨rfl, Dev.keeps_refuse ..⟩
    · obtain ⟨n, hn⟩ := Dev.spqDropCmd_drops h hq hin hmode
      rw [hn]
      exact ⟨rfl, by simp, Dev.keeps_setSpq_complete ..⟩
  case enable =>
    intro q idx v s hq hw hoff hv
    refine ⟨fun hbad => completes_spqEnable hq hw hoff hv ?_, spqEnable_enables q idx v s hq hw hoff hv⟩
    rw [if_pos hbad]

end Sys2Proof.Machine

/-! # Host frames behind a late one (R378, R307) -/

namespace Sys2Proof.Machine

/-- An idle port in front of which a published frame has waited too long. -/
def latePort : PortS := { PortS.new with link := true, preempt := [lateFrame] }

/-- RUN with that port, where the host may issue its commands. -/
def State.lateHost : State :=
  { State.runWithPort latePort with dev := (State.runWithPort latePort).dev.setReg (Reg.ACT_PERM 0) Word.ones }

/-- A command of ring 0. -/
def hostFrame : CmdHdr := { ring := 0, tag := 0, fence := false }

theorem admits_lateHost : State.lateHost.dev.Admits hostFrame 0x08 [] true legalCRD := by
  unfold Dev.Admits
  decide

theorem State.lateOver_lateHost : State.lateHost.dev.reg Reg.PUB_LAT_OVER = 0 := by decide

/-- The host's frame joins the queue, and the late one in front of it goes out. -/
theorem txFrame_counts_late : (State.lateHost.dev.txFrameCmd hostFrame 0 0 60 [] false).reg Reg.PUB_LAT_OVER = 1 := by decide

/-- Refutes O48: the `HST_TX_FRAME` that finds an idle port with a published frame past its latest start sends that frame on, which counts
in `PUB_LAT_OVER` (R307), where the statement has every register as before. -/
theorem not_pollingRingsAndFrames : ¬ Obligations.PollingRingsAndFrames := by
  intro h
  obtain ⟨-, -, -, -, -, -, hframes⟩ := h
  obtain ⟨-, haccepted⟩ := hframes hostFrame 0 0 60 [] State.lateHost admits_lateHost
  obtain ⟨-, hwaits⟩ := haccepted (by decide) (by decide) (by decide) (by decide)
  obtain ⟨t, ht, -, -, -, hframe⟩ := hwaits (.inl (by decide))
  have hdev : State.lateHost.dev.txFrameCmd hostFrame 0 0 60 [] false = t.dev :=
    (Dev.cmd_of_admits admits_lateHost).symm.trans (congrArg State.dev (Host.Outcome.next.inj ht))
  have hsame : t.dev.reg Reg.PUB_LAT_OVER = State.lateHost.dev.reg Reg.PUB_LAT_OVER := by rw [hframe]; rfl
  rw [← hdev, txFrame_counts_late, State.lateOver_lateHost] at hsame
  exact absurd hsame (by decide)

end Sys2Proof.Machine

/-! # The proof log (chapter 15) -/

namespace Sys2Proof.Machine

/-! ### Partitions (R474, R475, R477) -/

theorem getLast?_dropOver_append {cap : Nat} (hcap : 0 < cap) (rs : List Committed) (c : Committed) :
    (dropOver cap (rs ++ [c])).getLast? = some c := by
  rw [dropOver, List.getLast?_drop, if_neg (by simp; omega), List.getLast?_concat]

/-- A record appended to a partition with a good slot is its newest. -/
theorem Partition.getLast?_append {sec : Bool} {p : Partition} (hgood : p.bad.length < partSize sec) (r : LogRec) :
    (p.append sec r).recs.getLast? = some { num := p.next, recd := r, damaged := false } :=
  getLast?_dropOver_append (by rw [Partition.cap]; omega) ..

theorem Partition.markBads_next (sec : Bool) (n : Nat) (p : Partition) : (p.markBads sec n).next = p.next :=
  (p.markBads_recs sec n).2.1

/-- Fewer than three failed attempts mark no slot. -/
theorem Partition.markBads_of_lt {sec : Bool} {fails : Nat} (h : fails < 3) (p : Partition) : p.markBads sec (fails / 3) = p := by
  rw [Nat.div_eq_of_lt h]
  rfl

/-- A security record takes the next number of its partition and enters the digest. -/
theorem Nv.commit_sec {r : LogRec} (hsec : secCode r.code = true) (fails : Nat) (nv : Nv) : ∃ w, nv.commit fails r =
    { nv with sec := (nv.sec.markBads true (fails / 3)).append true r, wrapped := w,
              digest := Config.sha256 (beBytes 32 nv.digest ++ recBytes nv.sec.next r) % 2 ^ 256 } := by
  refine ⟨nv.wrapped || (nv.sec.markBads true (fails / 3)).full true, ?_⟩
  rw [Nv.commit, if_pos hsec]
  dsimp only
  rw [Partition.markBads_next]

theorem Nv.commit_gen {r : LogRec} (hgen : secCode r.code = false) (fails : Nat) (nv : Nv) :
    nv.commit fails r = { nv with gen := (nv.gen.markBads false (fails / 3)).append false r } := by
  rw [Nv.commit, hgen, if_neg Bool.false_ne_true]

/-! ### Staging (R478, R480) -/

/-- What frees an entry of staging moves the log's state only. -/
theorem Dev.stageFreed_eq (d : Dev) : ∃ p, d.stageFreed = { d with plg := p } := by
  unfold Dev.stageFreed
  split
  split
  · exact ⟨_, rfl⟩
  · split <;> exact ⟨_, rfl⟩

theorem insertBy_eq {α : Type} (le : α → α → Bool) (x : α) (l : List α) : ∃ k, insertBy le x l = l.take k ++ x :: l.drop k := by
  induction l with
  | nil => exact ⟨0, rfl⟩
  | cons y l ih =>
    rw [insertBy]
    split
    · exact ⟨0, rfl⟩
    · obtain ⟨k, hk⟩ := ih
      exact ⟨k + 1, by rw [hk]; rfl⟩

/-- While staging is not full, an event posted takes its place among the entries of its cycle, and no entry goes. -/
theorem Dev.stage_stageRec {d : Dev} (hroom : d.plg.stage.length < 256) (r : LogRec) :
    ∃ k, (d.stageRec r).plg.stage = d.plg.stage.take k ++ r :: d.plg.stage.drop k := by
  obtain ⟨old, new, hsplit⟩ : ∃ old new, d.stageSplit = (old, new) := ⟨_, _, rfl⟩
  have hstage : d.plg.stage = old ++ new := by
    obtain ⟨rfl, rfl⟩ := Prod.mk.inj ((List.splitAt_eq ..).symm.trans hsplit)
    exact (List.take_append_drop ..).symm
  obtain ⟨k, hk⟩ := insertBy_eq entersBefore r new
  refine ⟨old.length + k, ?_⟩
  simp only [Dev.stageRec, hsplit, if_pos hroom, Dev.stagePut, hk]
  rw [hstage, List.take_length_add_append, List.drop_length_add_append, List.append_assoc]

/-! ### Committing (R474, R475) -/

section
variable {fails : Nat} {r : LogRec} {rest : List LogRec} {s : State} {P : State → Prop} (hon : s.dev.op.mainOn = true)
  (hrestart : s.dev.mgmt.restart = false) (hstage : s.dev.plg.stage = r :: rest)
include hon hrestart hstage

theorem completes_proofLogCommit (hfails : fails < 24)
    (hP : ∀ p, P { s with nv := s.nv.commit fails r, dev := { s.dev with plg := p } }) : Completes (.proofLogCommit fails) s P := by
  obtain ⟨p, hp⟩ := Dev.stageFreed_eq { s.dev with plg := { s.dev.plg with stage := rest } }
  refine ⟨_, rfl, ?_⟩
  simp only [State.logCommit, hstage, hon, hrestart, if_pos hfails, commitHead, hp]
  exact hP p

/-- Eight slots that fail in a row leave the records as they are. -/
theorem completes_proofLogCommit_failed (hfails : 24 ≤ fails)
    (hP : ∀ d nv, nv = (if secCode r.code then { s.nv with sec := s.nv.sec.markBads true 8 }
      else { s.nv with gen := s.nv.gen.markBads false 8 }) → P { s with nv := nv, dev := d }) : Completes (.proofLogCommit fails) s P := by
  refine ⟨_, rfl, ?_⟩
  simp only [State.logCommit, hstage, hon, hrestart, if_neg (not_lt.2 hfails)]
  exact hP _ _ rfl

end

theorem proofLogCommit_of_idle (fails : Nat) (s : State) (h : s.dev.plg.stage = [] ∨ s.dev.mgmt.restart = true) :
    Completes (.proofLogCommit fails) s (fun t => t = s) := by
  refine ⟨_, rfl, ?_⟩
  unfold State.logCommit
  rcases h with h | h
  · simp only [h]
  · split
    · rfl
    · simp [h]

/-! ### Tokens and the time anchor (R479, R481) -/

section
variable {code : Nat} {b : Bucket} {d : Dev} (hb : KMap.get? d.plg.buckets code = some b) (hdue : b.due ≤ d.raw)
include hb hdue

/-- A token that arrives with nothing suppressed fills the bucket, and a full bucket is forgotten. -/
theorem Dev.tokenArrive_fills (hcount : b.count = 0) : d.tokenArrive code = { d with plg := { d.plg with
    buckets := if d.bucketDepth code ≤ b.tokens + 1 then KMap.del d.plg.buckets code
      else KMap.put d.plg.buckets code { b with tokens := b.tokens + 1, due := b.due + d.bucketRefill code } } } := by
  simp only [Dev.tokenArrive, hb, if_neg (not_lt.2 hdue), if_pos hcount]

/-- A token that arrives with events suppressed enters their summary. -/
theorem Dev.tokenArrive_summarises (hcount : b.count ≠ 0) : d.tokenArrive code = Dev.stageRec
    { d.mkRec code [BitVec.ofNat 32 b.count, BitVec.ofNat 32 b.first, BitVec.ofNat 32 b.last, b.p0] with summary := true }
    { d with plg := { d.plg with buckets := KMap.put d.plg.buckets code { b with count := 0, due := b.due + d.bucketRefill code } } } := by
  simp only [Dev.tokenArrive, hb, if_neg (not_lt.2 hdue), if_neg hcount]

end

theorem Dev.buckets_stageRec (r : LogRec) (d : Dev) : (d.stageRec r).plg.buckets = d.plg.buckets := by
  unfold Dev.stageRec
  split
  split
  · rfl
  split
  · rfl
  · rfl
  · split <;> rfl

theorem completes_plgTokenRefill {code : Nat} {s : State} {P : State → Prop} (hon : s.dev.op.mainOn = true)
    (hP : P { s with dev := s.dev.tokenArrive code }) : Completes (.plgTokenRefill code) s P :=
  completes_if rfl hon hP

theorem timeAnchor_posts (s : State) (hon : s.dev.op.mainOn = true) (hboot : s.dev.op ≠ .boot) (hsync : s.dev.tbu.sync = 2)
    (hdue : s.dev.plg.lastAnchor + 3600000000000 ≤ s.dev.raw) : Completes .timeAnchor s (fun t => s.MainOnly t ∧
      t.dev.plg.lastAnchor = s.dev.raw ∧ Dev.Keeps noReg s.dev t.dev) := by
  refine completes_if rfl (by simp [hon, hboot, hsync, hdue]) ⟨rfl, ?_, s.dev.keeps_timeAnchor⟩
  exact (Dev.keeps_post (own := noReg) _ _ s.dev).raw_eq

theorem timeAnchor_waits (s : State) (h : s.dev.tbu.sync ≠ 2 ∨ s.dev.raw < s.dev.plg.lastAnchor + 3600000000000) :
    Completes .timeAnchor s (fun t => t = s) := by
  refine completes_if_not rfl ?_ rfl
  rcases h with h | h <;> simp [h]

/-- Settles O56, clause by clause (R474, R475, R478, R479, R481). That the record stays staged while the management cluster restarts, and
that eight slots of three attempts each leave it there, is log entry 83; that a command that does not act changes nothing is log entry 4. -/
theorem proofLogCommits : Obligations.ProofLogCommits := by
  refine ⟨?commit, proofLogCommit_of_idle, ?token, ?anchor⟩
  case commit =>
    intro fails r rest s hon hrestart hstage
    refine ⟨fun hfails hsec => completes_proofLogCommit hon hrestart hstage hfails fun p => ?_,
      fun hfails hgen => completes_proofLogCommit hon hrestart hstage hfails fun p => ?_,
      fun hfails => completes_proofLogCommit_failed hon hrestart hstage hfails ?_⟩
    · obtain ⟨w, hw⟩ := s.nv.commit_sec hsec fails
      rw [hw]
      refine ⟨congrArg (· + 1) (Partition.markBads_next ..), rfl, rfl, rfl, rfl, fun hthree hgood => ?_, rfl⟩
      dsimp only
      rw [Partition.markBads_of_lt hthree]
      exact Partition.getLast?_append hgood r
    · rw [Nv.commit_gen hgen]
      refine ⟨congrArg (· + 1) (Partition.markBads_next ..), rfl, rfl, fun hthree hgood => ?_, rfl⟩
      dsimp only
      rw [Partition.markBads_of_lt hthree]
      exact Partition.getLast?_append hgood r
    · rintro d nv rfl
      obtain ⟨hsecRecs, hsecNext, -⟩ := s.nv.sec.markBads_recs true 8
      obtain ⟨hgenRecs, hgenNext, -⟩ := s.nv.gen.markBads_recs false 8
      split
      · exact ⟨rfl, hsecNext, rfl, hsecRecs, rfl⟩
      · exact ⟨hgenNext, rfl, hgenRecs, rfl, rfl⟩
  case token =>
    intro code b s hon hb hdue
    refine ⟨fun hcount => completes_plgTokenRefill hon ?_, fun hcount hroom => completes_plgTokenRefill hon ?_⟩
    · rw [Dev.tokenArrive_fills hb hdue hcount]
      refine ⟨rfl, rfl, ?_⟩
      dsimp only
      split
      · rw [KMap.get?_del, if_pos rfl]
      · rw [KMap.get?_put, if_pos rfl]
    · rw [Dev.tokenArrive_summarises hb hdue hcount]
      refine ⟨rfl, ?_, ?_⟩
      · dsimp only
        rw [Dev.buckets_stageRec, KMap.get?_put, if_pos rfl]
      · obtain ⟨k, hk⟩ := Dev.stage_stageRec (d := { s.dev with plg := { s.dev.plg with
          buckets := KMap.put s.dev.plg.buckets code { b with count := 0, due := b.due + s.dev.bucketRefill code } } }) hroom _
        exact ⟨_, k, hk, rfl, rfl, rfl⟩
  case anchor =>
    exact fun s hon hboot => ⟨timeAnchor_posts s hon hboot, timeAnchor_waits s⟩

end Sys2Proof.Machine

/-! # Keys, attestation and access (chapter 13) -/

namespace Sys2Proof.Machine

/-! ### What completing a command leaves (R368, R370) -/

/-- A completion leaves the log, the host interface's events and every output already made. -/
structure Dev.Replies (d e : Dev) : Prop where
  evt : e.reg Reg.HST_EVT = d.reg Reg.HST_EVT
  plg : e.plg = d.plg
  out : d.out ⊆ e.out

theorem Dev.Replies.refl (d : Dev) : d.Replies d := ⟨rfl, rfl, List.Subset.refl _⟩

theorem Dev.Replies.trans {a b c : Dev} (h : a.Replies b) (k : b.Replies c) : a.Replies c :=
  ⟨k.evt.trans h.evt, k.plg.trans h.plg, List.Subset.trans h.out k.out⟩

theorem Dev.replies_host (x : HostS) (d : Dev) : d.Replies { d with host := x } := ⟨rfl, rfl, List.Subset.refl _⟩

theorem Dev.replies_setReg {off : Nat} (h : Reg.HST_EVT ≠ off) (w : Word) (d : Dev) : d.Replies (d.setReg off w) :=
  ⟨Dev.reg_setReg_ne h w d, rfl, List.Subset.refl _⟩

theorem Dev.replies_emit (o : Output) (d : Dev) : d.Replies (d.emit o) := ⟨rfl, rfl, List.subset_cons_self ..⟩

theorem Dev.replies_doorbell (off : Nat) (w : Word) (d : Dev) : d.Replies (d.doorbell off w) := by
  unfold Dev.doorbell
  split
  · exact d.replies_emit _
  · exact .refl d

theorem Dev.replies_msix (v : Nat) (d : Dev) : d.Replies (d.msix v) := by
  unfold Dev.msix
  split
  · exact d.replies_emit _
  split
  · exact .refl d
  · exact d.replies_host _

theorem Dev.replies_ringNotify (c : Nat) (d : Dev) : d.Replies (d.ringNotify c) := by
  unfold Dev.ringNotify
  dsimp only
  split
  · split
    · exact (d.replies_host _).trans (Dev.replies_msix ..)
    split
    · exact .refl d
    · exact d.replies_host _
  · exact .refl d

theorem Dev.replies_cqWrite (c : Nat) (o : Nat → Output) (d : Dev) : d.Replies (d.cqWrite c o) := by
  have htail : Reg.HST_EVT ≠ Reg.HST_RING_TAIL c := by unfold Reg.HST_EVT Reg.HST_RING_TAIL; omega
  have hdrop : Reg.HST_EVT ≠ Reg.HST_RING_DROP c := by unfold Reg.HST_EVT Reg.HST_RING_DROP; omega
  unfold Dev.cqWrite
  split
  · exact .refl d
  split
  · exact d.replies_setReg hdrop _
  · exact (((d.replies_emit _).trans (Dev.replies_setReg htail ..)).trans (Dev.replies_doorbell ..)).trans (Dev.replies_ringNotify ..)

theorem Dev.replies_completeErr (h : CmdHdr) (code status : Nat) (m : Bool) (p : List Word) (d : Dev) :
    d.Replies (d.completeErr h code status m p) := by
  unfold Dev.completeErr
  extract_lets muted host unfetched c
  have hunfetched : d.Replies unfetched := d.replies_host _
  split
  · exact hunfetched
  split
  · exact hunfetched
  · exact hunfetched.trans (Dev.replies_cqWrite ..)

theorem Dev.replies_complete (h : CmdHdr) (code status : Nat) (p : List Word) (d : Dev) : d.Replies (d.complete h code status p) :=
  d.replies_completeErr ..

/-- What has been written to the host stays written when its command completes. -/
theorem Dev.mem_out_complete_emit (o : Output) (h : CmdHdr) (code status : Nat) (p : List Word) (d : Dev) :
    o ∈ ((d.emit o).complete h code status p).out := (Dev.replies_complete ..).out (List.mem_cons_self ..)

theorem Dev.keeps_emit_complete {own : Nat → Bool} (o : Output) (h : CmdHdr) (code status : Nat) (p : List Word) (d : Dev) :
    Dev.Keeps own d ((d.emit o).complete h code status p) := (d.keeps_emit o).trans (Dev.keeps_complete ..)

/-- A transfer that met a PCIe error raises the memory error event (R375). -/
theorem Dev.keeps_memFail {own : Nat → Bool} (hown : own Reg.HST_EVT = true ∨ reportReg Reg.HST_EVT = true) (h : CmdHdr) (code : Nat)
    (p : List Word) (d : Dev) : Dev.Keeps own d (d.memFail h code p) := (d.keeps_raise _ _ hown).trans (Dev.keeps_completeErr ..)

theorem Dev.rbit_memFail (h : CmdHdr) (code : Nat) (p : List Word) (d : Dev) : (d.memFail h code p).rbit Reg.HST_EVT 2 = true :=
  (Dev.rbit_congr (Dev.replies_completeErr ..).evt 2).trans (d.rbit_raise _ 2 (by decide))

/-! ### How a key command starts (R411, R416) -/

theorem exec_keyCommand {c : Instr} {h : CmdHdr} {op : KeyOp} (hc : keyCommand c = some (h, op)) (s : State) :
    exec c s = .next (s.cmd h op.code op.slots legalCRD (State.keyStart h op)) := by
  unfold keyCommand at hc
  split at hc
  case h_6 => cases hc
  all_goals
    obtain ⟨rfl, rfl⟩ := Prod.mk.inj (Option.some.inj hc)
    rfl

section
variable {c : Instr} {h : CmdHdr} {op : KeyOp} {s : State} {P : State → Prop}

theorem completes_keyCommand (hc : keyCommand c = some (h, op)) (ha : s.dev.Admits h op.code op.slots true legalCRD)
    (hP : P (s.keyStart h op)) : Completes c s P := ⟨_, exec_keyCommand hc s, by rwa [State.cmd_of_admits ha]⟩

theorem State.keyStart_of_busy (hbusy : op.slots.any (fun k => s.dev.busySlots.contains k) = true) : s.keyStart h op =
    { s with dev := { s.dev with key := { s.dev.key with waiting := s.dev.key.waiting ++ [(h, op)] } } } := by
  rw [State.keyStart, if_pos hbusy]
  rfl

theorem State.keyStart_of_free (hfree : s.dev.SlotsFree op) : s.keyStart h op = s.keyExec h op := by
  rw [State.keyStart, if_neg (ne_true_of_eq_false hfree)]

theorem State.keyStart_refused {f : KeyFail} (hfree : s.dev.SlotsFree op) (hcheck : keyCheck s.nv s.dev op = some f) :
    s.keyStart h op = s.mapDev (Dev.keyRefuse h op.code f (op.slots.headD 0xFFFF)) := by
  simp only [State.keyStart_of_free hfree, State.keyExec, hcheck]

end

/-- Settles O51, by the two ways in which a key command does not take effect (R411, R416, Table 13.6). -/
theorem keyCommandsWaitOrAreRefused : Obligations.KeyCommandsWaitOrAreRefused := by
  intro c h op s hc ha
  refine ⟨fun hbusy => completes_keyCommand hc ha (State.keyStart_of_busy hbusy), fun f hfree hcheck => completes_keyCommand hc ha ?_⟩
  rw [State.keyStart_refused hfree hcheck]
  exact ⟨rfl, rfl, Dev.keeps_refuse ..⟩

/-! ### Key commands that take effect (R407, R410 to R415) -/

/-- The key `KEY_GENERATE` draws. -/
def State.drawnKey (a : KeyArgs) (s : State) : KeyRec :=
  s.dev.newKey s.nv s.bd a.slot 1 a.typ a.usage.toNat a.keyId a.hostTag (Config.kcv a.typ (Config.drbg s.dev.free)) (Config.drbg s.dev.free)

/-- The key `KEY_IMPORT` unwraps. -/
def State.importedKey (a : KeyArgs) (b : ImportBlob) (s : State) : KeyRec :=
  s.dev.newKey s.nv s.bd a.slot 2 a.typ a.usage.toNat a.keyId a.hostTag b.kcv.toNat b.key

section
variable {h : CmdHdr} {s : State}

/-- A key drawn clears the count of failed health tests, and its installation begins. -/
theorem State.keyStart_generate {a : KeyArgs} (hfree : s.dev.SlotsFree (.gen a)) (hcheck : keyCheck s.nv s.dev (.gen a) = none) :
    s.keyStart h (.gen a) = (s.mapDev (fun d => { d with free := d.free + 1, key := { d.key with rngRuns := 0 } })).install h 0xA0 a.slot
      (s.drawnKey a) none := by
  simp only [State.keyStart_of_free hfree, State.keyExec, hcheck]
  rfl

theorem State.keyStart_import {a : KeyArgs} {t : Nat} {b : ImportBlob} (hfree : s.dev.SlotsFree (.imp a t b))
    (hcheck : keyCheck s.nv s.dev (.imp a t b) = none) : s.keyStart h (.imp a t b) = s.importKey h a b := by
  simp only [State.keyStart_of_free hfree, State.keyExec, hcheck]

theorem State.keyStart_destroy {slot : Nat} (hfree : s.dev.SlotsFree (.destroy slot)) (hcheck : keyCheck s.nv s.dev (.destroy slot) = none) :
    s.keyStart h (.destroy slot) = s.destroyKey h slot := by
  simp only [State.keyStart_of_free hfree, State.keyExec, hcheck]

theorem State.keyStart_public {slot addr : Nat} {e : Bool} {r : KeyRec} (hfree : s.dev.SlotsFree (.pubKey slot addr e))
    (hr : s.dev.slotKey slot = some r) (hcheck : keyCheck s.nv s.dev (.pubKey slot addr e) = none) :
    s.keyStart h (.pubKey slot addr e) = s.mapDev (fun d => if e then d.memFail h 0xA3 []
      else (d.emit (.hostWrite addr (.pubKey (Config.pubOf r.key)))).complete h 0xA3 0 [BitVec.ofNat 32 r.kcv]) := by
  simp only [State.keyStart_of_free hfree, State.keyExec, hcheck]
  simp only [hr]

theorem State.keyStart_attest {slot nonce addr : Nat} {e : Bool} (hfree : s.dev.SlotsFree (.attest slot nonce addr e))
    (hcheck : keyCheck s.nv s.dev (.attest slot nonce addr e) = none) :
    s.keyStart h (.attest slot nonce addr e) = s.p5Start h (.attest slot nonce addr e) := by
  simp only [State.keyStart_of_free hfree, State.keyExec, hcheck]

/-- A blob that repeats a counter, or whose tag or check value is wrong, installs nothing (R413). -/
theorem State.importKey_refused {a : KeyArgs} {b : ImportBlob} (hmem : b.memErr = false)
    (hbad : b.counter.toNat ≤ s.nv.importCtr ∨ b.tagOk = false ∨ b.kcvOk = false) :
    s.importKey h a b = s.mapDev (Dev.keyEnd h 0xA1 7 9) := by
  rw [State.importKey, hmem, if_neg Bool.false_ne_true, if_pos]
  simpa using or_assoc.2 hbad

theorem State.importKey_installs {a : KeyArgs} {b : ImportBlob} (hmem : b.memErr = false) (hctr : s.nv.importCtr < b.counter.toNat)
    (htag : b.tagOk = true) (hkcv : b.kcvOk = true) :
    s.importKey h a b = s.install h 0xA1 a.slot (s.importedKey a b) (some b.counter.toNat) := by
  rw [State.importKey, hmem, if_neg Bool.false_ne_true, if_neg (by simp [htag, hkcv, hctr])]
  rfl

end

/-- An aligned address leaves the blob's own alignment to decide. -/
theorem keyCommand_import {addr : Nat} (haddr : addr % 4 = 0) (h : CmdHdr) (a : KeyArgs) (t : Nat) (b : ImportBlob) :
    keyCommand (.keyImport h a t addr b) = some (h, .imp a t b) := by
  simp [keyCommand, haddr]

/-- The keys after `KEY_DESTROY`; besides them only the log and the host interface have moved. -/
theorem State.keeps_destroyKey (h : CmdHdr) (slot : Nat) (s : State) :
    Dev.Keeps noReg { s.dev with key := { s.dev.key with plate := KMap.del s.dev.key.plate slot } } (s.destroyKey h slot).dev :=
  (Dev.keeps_post ..).trans (Dev.keeps_complete ..)

theorem Dev.Keeps.of_key {own : Nat → Bool} {d e : Dev} {x : KeyS} (h : Dev.Keeps own { d with key := x } e) :
    Dev.Keeps own { d with key := e.key } e := by
  rw [h.key_eq]
  exact h

/-- Settles O52, command by command (R407, R410, R412 to R415). That a key drawn clears the count of failed health tests is log entry
76; the transfer with a PCIe error is R375. -/
theorem keyCommandsTakeEffect : Obligations.KeyCommandsTakeEffect := by
  refine ⟨?generate, ?import_, ?destroy, ?public_⟩
  case generate =>
    intro h a s ha hfree hcheck
    refine completes_keyCommand (op := .gen a) rfl ha ?_
    rw [State.keyStart_generate hfree hcheck]
    exact ⟨⟨s.drawnKey a, rfl, rfl, rfl, rfl, rfl, rfl, rfl⟩, rfl, rfl, rfl, fun n hn => (KMap.get?_put ..).trans (if_neg hn)⟩
  case import_ =>
    intro h a tslot addr b s ha haddr hfree hcheck hmem
    have hc := keyCommand_import haddr h a tslot b
    refine ⟨fun hbad => completes_keyCommand hc ha ?_, fun hctr htag hkcv => completes_keyCommand hc ha ?_⟩
    · rw [State.keyStart_import hfree hcheck, State.importKey_refused hmem hbad]
      exact ⟨rfl, rfl, Dev.keeps_complete ..⟩
    · rw [State.keyStart_import hfree hcheck, State.importKey_installs hmem hctr htag hkcv]
      exact ⟨⟨s.importedKey a b, rfl, rfl, rfl, rfl, rfl, rfl, rfl⟩, rfl, rfl, rfl⟩
  case destroy =>
    intro h slot s ha hfree hcheck
    refine completes_keyCommand (op := .destroy slot) rfl ha ?_
    rw [State.keyStart_destroy hfree hcheck]
    have hkeeps := s.keeps_destroyKey h slot
    have hplate : (s.destroyKey h slot).dev.key.plate = KMap.del s.dev.key.plate slot := congrArg KeyS.plate hkeeps.key_eq
    refine ⟨?_, (KMap.get?_del ..).trans (if_pos rfl), rfl, fun n hn => ⟨?_, (KMap.get?_del ..).trans (if_neg hn)⟩, rfl, rfl, hkeeps.of_key⟩
    · rw [hplate, KMap.get?_del, if_pos rfl]
    · rw [hplate, KMap.get?_del, if_neg hn]
  case public_ =>
    intro h slot addr e r s ha hfree hr hcheck
    refine completes_keyCommand (op := .pubKey slot addr e) rfl ha ?_
    rw [State.keyStart_public hfree hr hcheck]
    refine ⟨rfl, ?_, ?_⟩
    · rintro rfl
      exact ⟨Dev.mem_out_complete_emit .., Dev.keeps_emit_complete ..⟩
    · rintro rfl
      rfl

/-! ### Statements of the unit (R419, R420, R463, R485) -/

section
variable {h : CmdHdr} {s : State}

theorem State.p5Start_of_quiet {op : P5Op} (hquiet : s.dev.anl.step = 0) : s.p5Start h op = s.p5Run h op := by
  rw [State.p5Start, if_pos hquiet]

/-- The statement is written to the host, after its record has been posted. -/
theorem Dev.attest_writes (fz : Fuse) (nv : Nv) (slot nonce addr : Nat) (r : KeyRec) (d : Dev) :
    Dev.Keeps noReg d (d.attest fz nv h slot nonce addr false r) ∧
    ∃ pub sig, .hostWrite addr (.attest slot r nv.lc.code nv.vaultGen (d.fld Reg.PWR_PCC 0 24) d.opMs d.key.debugged pub nonce d.key.measure
      (d.nextSeq nv) sig) ∈ (d.attest fz nv h slot nonce addr false r).out :=
  ⟨(((d.keeps_plg _).trans (Dev.keeps_post ..)).trans (Dev.keeps_plg ..)).trans (Dev.keeps_emit_complete ..),
    _, _, Dev.mem_out_complete_emit ..⟩

theorem Dev.attest_fails (fz : Fuse) (nv : Nv) (slot nonce addr : Nat) (r : KeyRec) (d : Dev) :
    Dev.Keeps (fun o => o == Reg.HST_EVT) d (d.attest fz nv h slot nonce addr true r) ∧
    (d.attest fz nv h slot nonce addr true r).rbit Reg.HST_EVT 2 = true :=
  ⟨(((d.keeps_plg _).trans (Dev.keeps_post ..)).trans (Dev.keeps_plg ..)).trans (Dev.keeps_memFail (.inl (by simp)) ..),
    Dev.rbit_memFail ..⟩

theorem State.p5Run_attest {slot nonce addr : Nat} {e : Bool} {r : KeyRec} (hr : s.dev.slotKey slot = some r) :
    s.p5Run h (.attest slot nonce addr e) = s.mapDev (Dev.attest s.fuse s.nv h slot nonce addr e r) := by
  simp only [State.p5Run, hr]

theorem completes_hlmCert {addr len : Nat} {e : Bool} {P : State → Prop} (ha : s.dev.Admits h 0xA5 [] true legalCRD)
    (hP : P (s.certCmd h addr len e)) : Completes (.hlmCert h addr len e) s P := ⟨_, rfl, by rwa [State.cmd_of_admits ha]⟩

theorem completes_plgSeal {nonce addr : Nat} {e : Bool} {P : State → Prop} (ha : s.dev.Admits h 0xC2 [] true legalCRD)
    (hP : P (s.plgSeal h nonce addr e)) : Completes (.plgSeal h nonce addr e) s P := ⟨_, rfl, by rwa [State.cmd_of_admits ha]⟩

theorem State.certCmd_short {addr len : Nat} {e : Bool} (hlen : len < s.nv.certLen) :
    s.certCmd h addr len e = s.mapDev (fun d => d.complete h 0xA5 2 [BitVec.ofNat 32 s.nv.certLen]) := if_pos hlen

theorem State.certCmd_refused {addr len : Nat} {e : Bool} (hlen : s.nv.certLen ≤ len)
    (hno : s.nv.keysUsable = false ∨ s.dev.key.attestOk = false) :
    s.certCmd h addr len e = s.mapDev (Dev.keyRefuse h 0xA5 (6, 1, 4) 0xFFFF) :=
  (if_neg (not_lt.2 hlen)).trans (if_pos (by simpa using hno))

theorem State.certCmd_runs {addr len : Nat} {e : Bool} (hlen : s.nv.certLen ≤ len) (hkeys : s.nv.keysUsable = true)
    (hok : s.dev.key.attestOk = true) (hquiet : s.dev.anl.step = 0) : s.certCmd h addr len e = s.p5Run h (.cert addr e) :=
  ((if_neg (not_lt.2 hlen)).trans (if_neg (by simp [hkeys, hok]))).trans (State.p5Start_of_quiet hquiet)

end

/-- Settles O54, command by command (R419, R420, R463, R485). A transfer with a PCIe error is R375; the refusals are R416 with Table 13.6. -/
theorem hallmarkStatements : Obligations.HallmarkStatements := by
  refine ⟨?attest, ?cert, ?sealing⟩
  case attest =>
    intro h slot nonce addr e r s ha hfree hcheck hr
    refine ⟨fun hquiet he => ?_, fun hquiet he => ?_, fun hshed => ?_⟩ <;>
      refine completes_keyCommand (op := .attest slot nonce addr e) rfl ha ?_ <;> rw [State.keyStart_attest hfree hcheck]
    · subst he
      rw [State.p5Start_of_quiet hquiet, State.p5Run_attest hr]
      exact ⟨rfl, Dev.attest_writes ..⟩
    · subst he
      rw [State.p5Start_of_quiet hquiet, State.p5Run_attest hr]
      exact ⟨rfl, Dev.attest_fails s.fuse s.nv slot nonce addr r s.dev⟩
    · rw [State.p5Start, if_neg hshed]
      rfl
  case cert =>
    intro h addr len e s ha
    refine ⟨fun hlen => completes_hlmCert ha ?_, fun hlen hno => completes_hlmCert ha ?_,
      fun hlen hkeys hok hquiet => completes_hlmCert ha ?_⟩
    · rw [State.certCmd_short hlen]
      exact ⟨rfl, rfl, Dev.keeps_complete ..⟩
    · rw [State.certCmd_refused hlen hno]
      exact ⟨rfl, rfl, Dev.keeps_refuse ..⟩
    · rw [State.certCmd_runs hlen hkeys hok hquiet]
      refine ⟨rfl, ?_, ?_⟩
      · rintro rfl
        exact ⟨Dev.mem_out_complete_emit .., Dev.keeps_emit_complete ..⟩
      · rintro rfl
        rfl
  case sealing =>
    intro h nonce addr e s ha
    refine ⟨fun hno => completes_plgSeal ha ?_, fun hok hquiet => completes_plgSeal ha ?_⟩
    · rw [State.plgSeal, hno, if_neg Bool.false_ne_true]
      exact ⟨rfl, Dev.keeps_refuse ..⟩
    · rw [State.plgSeal, if_pos hok, State.p5Start_of_quiet hquiet]
      refine ⟨rfl, ?_, ?_⟩
      · rintro rfl
        exact ⟨Dev.keeps_emit_complete .., _, Dev.mem_out_complete_emit ..⟩
      · rintro rfl
        rfl

/-! ### Access control (R423, R437, R439, R493) -/

/-- A word of the access control table is written, and its record is posted. -/
theorem Dev.actStore_writes {off : Nat} (hoff : reportReg off = false) (h : CmdHdr) (target ctx word : Nat) (v : Word) (d : Dev) :
    (d.actStore h target ctx word off v).reg off = v ∧ Dev.Keeps (fun o => o == off) d (d.actStore h target ctx word off v) := by
  refine ⟨?_, ((d.keeps_setReg off v (.inl (by simp))).trans (Dev.keeps_post ..)).trans (Dev.keeps_complete ..)⟩
  exact ((Dev.reg_complete _ _ _ _ _ _ hoff).trans (Dev.reg_post _ _ _ _ hoff)).trans ((Dev.reg_setReg ..).trans (if_pos rfl))

/-- A security event posted while staging has room enters it. -/
theorem Dev.stage_post {code : Nat} (hsec : secCode code = true) {d : Dev} (hroom : d.plg.stage.length < 256) (p : List Word) :
    ∃ (r : LogRec) (k : Nat), r.code = code ∧ (d.post code p).plg.stage = d.plg.stage.take k ++ r :: d.plg.stage.drop k := by
  obtain ⟨k, hk⟩ := Dev.stage_stageRec hroom (d.mkRec code p)
  refine ⟨d.mkRec code p, k, rfl, ?_⟩
  rw [Dev.post, if_pos (by simp [hsec])]
  exact hk

theorem Dev.stage_actStore {d : Dev} (hroom : d.plg.stage.length < 256) (h : CmdHdr) (target ctx word off : Nat) (v : Word) :
    ∃ (r : LogRec) (k : Nat), r.code = 0x86 ∧
      (d.actStore h target ctx word off v).plg.stage = d.plg.stage.take k ++ r :: d.plg.stage.drop k := by
  obtain ⟨r, k, hcode, hk⟩ := Dev.stage_post (code := 0x86) rfl (d := d.setReg off v) hroom
    [BitVec.ofNat 32 (target + ctx * 256 + word * 65536), v, d.reg off, BitVec.ofNat 32 h.ring]
  exact ⟨r, k, hcode, (congrArg PlgS.stage (Dev.replies_complete ..).plg).trans hk⟩

theorem Dev.actCmd_of_admits {h : CmdHdr} {d : Dev} (hctx : d.ctxOf h.ring = 0) (ha : d.Admits h 0xA7 [] true legalCRD)
    (target ctx word : Nat) (v : Word) : d.actCmd h target ctx word v = d.actBody h target ctx word v := by
  rw [Dev.actCmd, if_pos hctx, Dev.cmd_of_admits ha]

theorem Dev.actBody_of_absent {target ctx word : Nat} (hbad : 2 < target ∨ 7 < ctx ∨ 7 < word) (h : CmdHdr) (v : Word) (d : Dev) :
    d.actBody h target ctx word v = d.complete h 0xA7 2 [] := if_pos hbad

/-- From another context than 0 the command is denied, whatever its permission (R437). -/
theorem Dev.actCmd_denied {h : CmdHdr} {d : Dev} (hctx : d.ctxOf h.ring ≠ 0) (hop : d.op ∈ [OpState.config, .run, .degraded, .safe])
    (hmay : d.mayStart h 0xA7 = true) (target ctx word : Nat) (v : Word) :
    d.actCmd h target ctx word v = d.refuse h 0xA7 2 4 0xFFFF [] := by
  have hserved : d.op ≠ .boot ∧ d.op.mainOn = true ∧ d.op ≠ .holdup := by
    simp only [List.mem_cons, List.not_mem_nil, or_false] at hop
    rcases hop with hop | hop | hop | hop <;> rw [hop] <;> decide
  obtain ⟨hboot, hon, hholdup⟩ := hserved
  have hgate : d.gate h 0xA7 [] true [.config, .run, .degraded, .safe] = some (2, 4) ∨
      d.gate h 0xA7 [] true [.config, .run, .degraded, .safe] = none := by
    unfold Dev.gate
    split
    · exact .inl rfl
    · exact .inr (by rw [if_neg (by decide), if_neg (by rw [List.contains_iff_mem.2 hop]; decide)])
  have hboot' : (d.op == .boot) = false := beq_eq_false_iff_ne.2 hboot
  have hholdup' : (d.op == .holdup) = false := beq_eq_false_iff_ne.2 hholdup
  rw [Dev.actCmd, if_neg hctx]
  simp only [Dev.cmd, hboot', hon, hholdup', hmay, Bool.not_true, Bool.or_self, Bool.false_eq_true, if_false, if_true]
  rcases hgate with hgate | hgate <;> rw [hgate]
  rfl

theorem debugInstruction_counts (b : Bool) (s : State) : Completes (.debugInstruction b) s (fun t =>
    t = if s.dev.op.mainOn = true ∧ b = false ∧ s.debugClosed = true then { s with dev := s.dev.bump Reg.TMP_DBG_DENIED 1 } else s) := by
  by_cases h : s.dev.op.mainOn = true ∧ b = false ∧ s.debugClosed = true
  · refine completes_if rfl (by simpa [and_assoc] using h) ?_
    rw [if_pos h]
  · refine completes_if_not rfl (by simpa [and_assoc] using h) ?_
    rw [if_neg h]

/-- Settles O55, command by command (R423, R437, R439, R493). -/
theorem accessControl : Obligations.AccessControl := by
  refine ⟨?allowed, ?denied, debugInstruction_counts⟩
  case allowed =>
    intro h target ctx word v s hctx ha
    refine ⟨fun hbad => completes_onDev rfl ?_, fun hc hw => completes_onDev rfl ?_, fun hc => completes_onDev rfl ?_,
      fun hc => completes_onDev rfl ?_, completes_onDev rfl ?_⟩ <;> rw [Dev.actCmd_of_admits hctx ha]
    · rw [Dev.actBody_of_absent hbad]
      exact ⟨rfl, Dev.keeps_complete ..⟩
    · have hoff : reportReg (Reg.ACT_PERM (ctx * 8 + word)) = false := by simp [reportReg, Reg.ACT_PERM, Reg.ACT_DENIED]; omega
      rw [Dev.actBody, if_neg (by omega), if_pos rfl]
      obtain ⟨hreg, hkeeps⟩ := Dev.actStore_writes hoff h 0 ctx word (permWord ctx word v) s.dev
      exact ⟨rfl, hreg, fun hroom => Dev.stage_actStore hroom .., hkeeps⟩
    · have hoff : reportReg (Reg.ACT_CTX_SLOTS ctx) = false := by simp [reportReg, Reg.ACT_CTX_SLOTS, Reg.ACT_DENIED]; omega
      rw [Dev.actBody, if_neg (by omega), if_neg (by decide), if_pos rfl]
      exact ⟨rfl, Dev.actStore_writes hoff ..⟩
    · rw [Dev.actBody_of_absent (.inr (.inl hc))]
      exact ⟨rfl, Dev.keeps_complete ..⟩
    · rw [Dev.actBody, if_neg (by decide), if_neg (by decide), if_neg (by decide)]
      exact ⟨rfl, Dev.actStore_writes (by decide) ..⟩
  case denied =>
    intro c h target ctx word v s hc hctx hop hmay
    rcases hc with rfl | rfl | rfl <;> refine completes_onDev rfl ?_ <;> rw [Dev.actCmd_denied hctx hop hmay] <;>
      exact ⟨rfl, Dev.keeps_refuse ..⟩

end Sys2Proof.Machine

/-! # Power (chapter 14) -/

namespace Sys2Proof.Machine

/-! ### Posting leaves the host interface (R478) -/

theorem Dev.stageRec_host (r : LogRec) (d : Dev) : (d.stageRec r).host = d.host := by
  unfold Dev.stageRec
  split
  split
  · rfl
  split
  · rfl
  · rfl
  · split <;> rfl

theorem Dev.tokenArrive_host (code : Nat) (d : Dev) : (d.tokenArrive code).host = d.host := by
  unfold Dev.tokenArrive
  split
  · rfl
  split
  · rfl
  split
  · rfl
  · exact Dev.stageRec_host ..

theorem Dev.tokensArrive_host (code n : Nat) (d : Dev) : (d.tokensArrive code n).host = d.host := by
  induction n generalizing d with
  | zero => rfl
  | succ n ih =>
    unfold Dev.tokensArrive
    split
    · rfl
    split
    · rfl
    · rw [ih, Dev.tokenArrive_host]

theorem Dev.post_host (code : Nat) (p : List Word) (d : Dev) : (d.post code p).host = d.host := by
  unfold Dev.post
  split
  · exact Dev.stageRec_host ..
  · extract_lets arrived depth b b' taken ms b'' held
    have harrived : arrived.host = d.host := Dev.tokensArrive_host ..
    split
    · exact (Dev.stageRec_host ..).trans harrived
    · exact harrived

/-! ### The main domain restarts (R444) -/

/-- The main domain as a restart leaves it, with its cause: no key, no command, no table. -/
structure Dev.Restarted (cause : Word) (d : Dev) : Prop where
  op : d.op = .boot
  cause : d.reg Reg.RST_CAUSE = cause
  plate : d.key.plate = []
  fetched : d.host.fetched = []
  stg : d.stg = []
  act : d.act = []

namespace Dev.Restarted

variable {w : Word} {d : Dev}

theorem setReg (h : d.Restarted w) {off : Nat} (hoff : Reg.RST_CAUSE ≠ off) (v : Word) : (d.setReg off v).Restarted w :=
  { h with cause := (Dev.reg_setReg_ne hoff v d).trans h.cause }

theorem raise (h : d.Restarted w) {off : Nat} (hoff : Reg.RST_CAUSE ≠ off) (bit : Nat) : (d.raise off bit).Restarted w := by
  have hset := h.setReg hoff ((d.reg off).setBit bit true)
  unfold Dev.raise
  dsimp only
  split
  · have hk : Dev.Keeps noReg _ _ := Dev.keeps_msix (evtVector off bit) (d.setReg off ((d.reg off).setBit bit true))
    exact ⟨hk.op_eq.trans hset.op, (Dev.reg_msix ..).trans hset.cause, (congrArg KeyS.plate hk.key_eq).trans hset.plate,
      (Dev.msix_fetched ..).trans hset.fetched, hk.stg_eq.trans hset.stg, hk.act_eq.trans hset.act⟩
  · exact hset

theorem post (h : d.Restarted w) (code : Nat) (p : List Word) : (d.post code p).Restarted w := by
  have hk : Dev.Keeps noReg _ _ := Dev.keeps_post code p d
  exact ⟨hk.op_eq.trans h.op, (Dev.reg_post _ _ _ _ (by decide)).trans h.cause, (congrArg KeyS.plate hk.key_eq).trans h.plate,
    (congrArg HostS.fetched (Dev.post_host ..)).trans h.fetched, hk.stg_eq.trans h.stg, hk.act_eq.trans h.act⟩

theorem foldl {α : Type} {f : Dev → α → Dev} (hf : ∀ (e : Dev) (x : α), e.Restarted w → (f e x).Restarted w) (l : List α)
    (h : d.Restarted w) : (l.foldl f d).Restarted w := by
  induction l generalizing d with
  | nil => exact h
  | cons x l ih => exact ih (hf d x h)

end Dev.Restarted

theorem Dev.restarted_atBoot (fz : Fuse) (pcc cause ctr : Nat) (debug debugged : Bool) :
    (Dev.atBoot fz pcc cause ctr debug debugged).Restarted (BitVec.ofNat 32 cause) := by
  unfold Dev.atBoot
  extract_lets por powered caused addressed named
  have hcaused : caused.Restarted (BitVec.ofNat 32 cause) := by
    refine Dev.Restarted.setReg ⟨rfl, ?_, rfl, rfl, rfl, rfl⟩ (by decide) _
    exact (Dev.reg_setReg ..).trans (if_pos rfl)
  have haddressed : addressed.Restarted (BitVec.ofNat 32 cause) := by
    refine hcaused.foldl (fun e n he => ?_) _
    exact (he.setReg (by unfold Reg.RST_CAUSE Reg.NET_MAC_LO; omega) _).setReg (by unfold Reg.RST_CAUSE Reg.NET_MAC_HI; omega) _
  have hnamed : named.Restarted (BitVec.ofNat 32 cause) := by
    unfold named
    split
    · exact (haddressed.setReg (by decide) _).setReg (by decide) _
    · exact haddressed
  exact { hnamed with }

/-- A pass through BOOT begins with its cause (R444). -/
theorem State.bootBegun_enterBoot (cause order : Nat) (s : State) : State.BootBegun cause s (s.enterBoot cause order) := by
  have hdev : (s.enterBoot cause order).dev.Restarted (BitVec.ofNat 32 cause) := by
    unfold State.enterBoot
    extract_lets was n dbg hop fresh pwr kept counted stepped raised posted
    have hfresh : fresh.Restarted (BitVec.ofNat 32 cause) := Dev.restarted_atBoot ..
    have hkept : kept.Restarted (BitVec.ofNat 32 cause) := { hfresh with }
    have hraised : raised.Restarted (BitVec.ofNat 32 cause) :=
      (((hkept.setReg (by decide) _).setReg (by decide) _).raise (by decide) 0).setReg (by decide) _
    show posted.Restarted _
    unfold posted
    split
    · exact hraised.post ..
    · exact hkept
  exact ⟨hdev.op, rfl, rfl, hdev.cause, hdev.plate, hdev.fetched, hdev.stg, hdev.act, rfl, rfl, rfl, rfl⟩

theorem completes_devReset (h : CmdHdr) (s : State) (ha : s.dev.Admits h 0x04 [] true [.config, .run, .degraded, .safe]) :
    Completes (.devReset h) s (State.BootBegun 3 s) := by
  refine ⟨_, rfl, ?_⟩
  rw [State.cmd_of_admits ha]
  exact State.bootBegun_enterBoot 3 5 { s with dev := s.dev.complete h 0x04 0 [] }

/-- Settles O9, event by event (R440 to R444, R465, Table 14.7). That every BOOT empties the staged and the active tables is log entry 20;
that a brown-out passes through BOOT at once is log entry 80. -/
theorem suppliesAndRestarts : Obligations.SuppliesAndRestarts := by
  refine ⟨⟨fun s hoff => ?_, fun s hon => ?_, fun s hon => ?_, completes_devReset⟩, fun s hoff => ⟨_, rfl, if_pos hoff⟩,
    fun s hbackup => ⟨_, rfl, if_pos hbackup, ?_⟩, fun v s => ⟨_, rfl, rfl⟩⟩
  · refine ⟨_, rfl, ?_⟩
    rw [if_pos hoff]
    exact s.bootBegun_enterBoot 1 0
  · refine ⟨_, rfl, ?_⟩
    rw [if_pos hon]
    exact s.bootBegun_enterBoot 2 0
  · refine ⟨_, rfl, ?_⟩
    rw [if_pos hon]
    exact s.bootBegun_enterBoot 5 0
  · rw [if_pos hbackup]
    exact ⟨rfl, rfl, rfl⟩

/-! ### The reservoir's registers (R446, R450) -/

section
variable {o : Nat} (d : Dev)

theorem Dev.reg_chargeNow_ne (ho : o ≠ Reg.PWR_STATUS) : d.chargeNow.reg o = d.reg o := Dev.reg_setField_ne ho ..

theorem Dev.reg_showRes_ne (hv : o ≠ Reg.PWR_RES_V) (he : o ≠ Reg.PWR_RES_E) (hs : o ≠ Reg.PWR_STATUS) : d.showRes.reg o = d.reg o :=
  ((Dev.reg_setField_ne hs ..).trans (Dev.reg_setReg_ne he ..)).trans (Dev.reg_setReg_ne hv ..)

/-- Charging and showing the reservoir leave the other bits of `PWR_STATUS`. -/
theorem Dev.rbit_chargeNow_showRes {i : Nat} (hi : i < 2 ∨ 4 ≤ i) : d.chargeNow.showRes.rbit Reg.PWR_STATUS i = d.rbit Reg.PWR_STATUS i := by
  have hshow : d.chargeNow.showRes.rbit Reg.PWR_STATUS i = d.chargeNow.rbit Reg.PWR_STATUS i := by
    rw [Dev.rbit, Dev.showRes, Dev.reg_setField_self, Word.bit_setField_ne _ _ _ _ _ (by decide) (by omega), Dev.reg_setReg_ne (by decide),
      Dev.reg_setReg_ne (by decide)]
    rfl
  rw [hshow, Dev.rbit, Dev.chargeNow, Dev.setCharging, Dev.reg_setField_self, Word.bit_setField_ne _ _ _ _ _ (by decide) (by omega)]
  rfl

theorem Dev.fld_showRes : d.showRes.fld Reg.PWR_RES_V 0 16 = min 65535 d.pwr.resMv := by
  have hreg : d.showRes.reg Reg.PWR_RES_V = BitVec.ofNat 32 (min 65535 d.pwr.resMv + d.vCeil * 65536) :=
    ((Dev.reg_setField_ne (by decide) ..).trans (Dev.reg_setReg_ne (by decide) ..)).trans ((Dev.reg_setReg ..).trans (if_pos rfl))
  rw [Dev.fld, hreg, Word.field, BitVec.toNat_ofNat, Nat.shiftRight_zero]
  omega

end

/-- Charging follows the reservoir, and the reservoir is shown. -/
theorem Dev.keeps_chargeNow_showRes (d : Dev) : Dev.Keeps (inBlock 0x20100 0x20140) d d.chargeNow.showRes :=
  (d.keeps_chargeNow fun _ h => h).trans (Dev.keeps_showRes _ fun _ h => h)

theorem Dev.Keeps.of_pwr {own : Nat → Bool} {d e : Dev} {x : PwrS} (h : Dev.Keeps own { d with pwr := x } e) :
    Dev.Keeps own { d with pwr := e.pwr } e := by
  rw [h.pwr_eq]
  exact h

/-! ### The input dips and is lost (R451, R452, R455) -/

theorem Dev.fld_switchRes (d : Dev) : (d.switchRes true).fld Reg.PWR_STATUS 0 2 = 2 := by
  rw [Dev.fld, Dev.switchRes, Dev.reg_emit]
  exact Dev.fld_setField (by decide) (by decide) _ d

theorem Dev.reg_switchRes_ne {off : Nat} (ho : off ≠ Reg.PWR_STATUS) (on : Bool) (d : Dev) : (d.switchRes on).reg off = d.reg off :=
  Dev.reg_setField_ne ho ..

theorem Dev.vinFalls_of_low {mv : Nat} {d : Dev} (hon : d.op.mainOn = true) (hen : d.resEn = true) (hlow : d.pwr.vinLow = none)
    (hmv : mv < d.fld Reg.PWR_VIN 0 16) :
    d.vinFalls mv = ({ d with pwr := { d.pwr with vinMv := mv, vinLow := some d.raw } } : Dev).switchRes true :=
  if_pos (by simp [hon, hen, hlow, hmv])

theorem vinUndervoltage_switches (mv : Nat) (s : State) (hon : s.dev.op.mainOn = true) (hen : s.dev.resEn = true)
    (hlow : s.dev.pwr.vinLow = none) (hmv : mv < s.dev.fld Reg.PWR_VIN 0 16) : Completes (.vinUndervoltage mv) s (fun t => s.MainOnly t ∧
      t.dev.pwr = { s.dev.pwr with vinMv := mv, vinLow := some s.dev.raw } ∧ t.dev.out = .resSwitch true :: s.dev.out ∧
      t.dev.fld Reg.PWR_STATUS 0 2 = 2 ∧ ∀ off, off ≠ Reg.PWR_STATUS → t.dev.reg off = s.dev.reg off) := by
  refine completes_onDev rfl ?_
  rw [Dev.vinFalls_of_low hon hen hlow hmv]
  exact ⟨rfl, rfl, rfl, Dev.fld_switchRes .., fun off ho => Dev.reg_switchRes_ne ho ..⟩

/-- The input has recovered within the filter time. -/
def Dev.dipOver (d : Dev) : Dev :=
  ((({ d with pwr := { d.pwr with vinLow := none } } : Dev).switchRes false).bump Reg.PWR_DIPS 1).raise Reg.PWR_EVT 0

theorem Dev.keeps_dipOver (d : Dev) : Dev.Keeps (inBlock 0x20100 0x20140) { d with pwr := { d.pwr with vinLow := none } } d.dipOver :=
  (((Dev.keeps_setField _ _ _ _ _ (.inl (by decide))).trans (Dev.keeps_emit ..)).trans (Dev.keeps_bump _ _ _ (.inl (by decide)))).trans
    (Dev.keeps_raise _ _ _ (.inl (by decide)))

theorem supplyDipEnd_counts (s : State) (hlow : s.dev.pwr.vinLow.isSome = true) (hlost : s.dev.vinLost = false)
    (hon : s.dev.op.mainOn = true) (hholdup : s.dev.op ≠ .holdup) : Completes .supplyDipEnd s (fun t => s.MainOnly t ∧
      t.dev.pwr = { s.dev.pwr with vinLow := none } ∧ t.dev.reg Reg.PWR_DIPS = (s.dev.reg Reg.PWR_DIPS).satAdd 1 ∧
      t.dev.rbit Reg.PWR_EVT 0 = true ∧ Dev.Keeps (inBlock 0x20100 0x20140) { s.dev with pwr := t.dev.pwr } t.dev) := by
  have hkeeps := s.dev.keeps_dipOver.trans (Dev.keeps_chargeNow_showRes _)
  refine completes_if rfl (by simp [hlow, hlost, hon, hholdup]) ⟨rfl, hkeeps.pwr_eq, ?_, ?_, hkeeps.of_pwr⟩
  · show (s.dev.dipOver.chargeNow.showRes).reg Reg.PWR_DIPS = _
    rw [Dev.reg_showRes_ne _ (by decide) (by decide) (by decide), Dev.reg_chargeNow_ne _ (by decide), Dev.dipOver, Dev.reg_raise,
      if_neg (by decide), Dev.reg_bump, if_pos rfl, Dev.switchRes, Dev.reg_emit, Dev.reg_setField_ne (by decide)]
    rfl
  · show (s.dev.dipOver.chargeNow.showRes).rbit Reg.PWR_EVT 0 = true
    rw [Dev.rbit, Dev.reg_showRes_ne _ (by decide) (by decide) (by decide), Dev.reg_chargeNow_ne _ (by decide)]
    exact Dev.rbit_raise _ _ _ (by decide)

theorem supplyLost_enters (s : State) (hop : legalCRD.contains s.dev.op = true) (hen : s.dev.resEn = true) (hlost : s.dev.vinLost = true) :
    Completes .supplyLost s (fun t => t.bd.holdup = true ∧ t.bd.root = s.bd.root ∧ t.nv = s.nv ∧
      t.dev = (if s.dev.tbu.sync = 2 then s.copyRtc else s).dev.enterHoldup ∧
      t.bd.rtcNs = (if s.dev.tbu.sync = 2 then s.dev.tick.toNat else s.bd.rtcNs)) := by
  refine ⟨s.toHoldup, congrArg Host.Outcome.next (if_pos (by rw [hop, hen, hlost]; rfl)), ?_⟩
  rw [State.toHoldup]
  by_cases hsync : s.dev.tbu.sync = 2
  · rw [if_pos hsync, if_pos hsync]
    exact ⟨rfl, rfl, rfl, rfl, rfl⟩
  · rw [if_neg hsync, if_neg hsync]
    exact ⟨rfl, rfl, rfl, rfl, rfl⟩

/-! ### The last gasp (R453, R454, R456) -/

/-- Settles O10, event by event (R451 to R456, Table 14.3). That the real-time counter is copied at HOLDUP only while a source is LOCKED is
log entry 38. -/
theorem inputLossAndLastGasp : Obligations.InputLossAndLastGasp := by
  refine ⟨⟨vinUndervoltage_switches, supplyDipEnd_counts, supplyLost_enters⟩, fun s hop => ⟨_, rfl, ?_⟩, fun s hop => ⟨_, rfl, ?_⟩,
    fun s hop hen hlost => ⟨_, rfl, ?_⟩⟩
  · rw [if_pos hop, if_pos rfl]
    obtain ⟨hboot, -, -, hcause, hplate, -⟩ := s.lastWork.bootBegun_enterBoot 4 0
    exact ⟨hboot, hcause, rfl, hplate, rfl, rfl⟩
  · rw [if_pos hop, if_neg Bool.false_ne_true]
    exact ⟨rfl, rfl, rfl, rfl, rfl, rfl⟩
  · rw [if_pos ⟨hop, hen, hlost⟩]
    exact ⟨rfl, rfl, rfl, rfl⟩

/-! ### Charging, over-voltage and the check of the reservoir (R446 to R450, R470) -/

theorem resChargeControl_shows (mv : Nat) (s : State) (hop : legalCRD.contains s.dev.op = true) (hen : s.dev.resEn = true) :
    Completes (.resChargeControl mv none) s (fun t => s.MainOnly t ∧ t.dev.pwr = { s.dev.pwr with resMv := mv } ∧
      t.dev.fld Reg.PWR_RES_V 0 16 = min 65535 mv ∧ Dev.Keeps (inBlock 0x20100 0x20140) { s.dev with pwr := t.dev.pwr } t.dev) :=
  completes_if rfl (by rw [hop, hen]; rfl) ⟨rfl, rfl, Dev.fld_showRes .., (Dev.keeps_chargeNow_showRes _).of_pwr⟩

/-- The reservoir bleeds since it stands above 16.5 V. -/
def Dev.overBled (mv : Nat) (d : Dev) : Dev :=
  (({ d with pwr := { d.pwr with resMv := mv, ovEp := true } } : Dev).setBleed true).setField Reg.PWR_STATUS 6 1 1

theorem Dev.keeps_overBled (mv : Nat) (d : Dev) : Dev.Keeps (inBlock 0x20100 0x20140)
    { d with pwr := { d.pwr with resMv := mv, ovEp := true, bleed := true } } (d.overBled mv).chargeNow.showRes :=
  ((Dev.keeps_setBleed true _).trans (Dev.keeps_setField _ _ _ _ _ (.inl (by decide)))).trans (Dev.keeps_chargeNow_showRes _)

theorem Dev.rbit_overBled (mv : Nat) (d : Dev) : (d.overBled mv).chargeNow.showRes.rbit Reg.PWR_STATUS 6 = true := by
  rw [Dev.rbit_chargeNow_showRes _ (by decide), Dev.rbit, Dev.overBled, Dev.reg_setField_self]
  exact Word.bit_setField_one _ 6 1 (by decide)

/-- The record of an episode of over-voltage. -/
def Dev.overRecord (mv : Nat) (d : Dev) : Dev :=
  (d.raise Reg.PWR_EVT 2).post 0x32 [1, BitVec.ofNat 32 mv, BitVec.ofNat 32 d.cMeas, BitVec.ofNat 32 d.cDecl]

theorem Dev.keeps_overRecord (mv : Nat) (d : Dev) : Dev.Keeps (inBlock 0x20100 0x20140) d (d.overRecord mv) :=
  (Dev.keeps_raise _ _ _ (.inl (by decide))).trans (Dev.keeps_post ..)

theorem Dev.rbit_overRecord (mv : Nat) (d : Dev) : (d.overRecord mv).rbit Reg.PWR_EVT 2 = true :=
  (Dev.rbit_congr (Dev.reg_post _ _ _ _ (by decide)) 2).trans (Dev.rbit_raise _ _ _ (by decide))

theorem Dev.reg_overRecord_ne {off : Nat} (ho : off ≠ Reg.PWR_EVT) (hr : reportReg off = false) (mv : Nat) (d : Dev) :
    (d.overRecord mv).reg off = d.reg off :=
  (Dev.reg_post _ _ _ _ hr).trans ((Dev.reg_raise ..).trans (if_neg ho))

theorem Dev.overVoltage_first {mv : Nat} {d : Dev} (hon : d.op.mainOn = true) (hmv : 16500 < mv) (hep : d.pwr.ovEp = false) :
    d.overVoltage mv = ((d.overBled mv).chargeNow.showRes).overRecord mv := by
  rw [Dev.overVoltage, if_neg (by simp [hon, hmv]), hep]
  rfl

theorem Dev.overVoltage_again {mv : Nat} {d : Dev} (hon : d.op.mainOn = true) (hmv : 16500 < mv) (hep : d.pwr.ovEp = true) :
    d.overVoltage mv = (d.overBled mv).chargeNow.showRes := by
  rw [Dev.overVoltage, if_neg (by simp [hon, hmv]), hep]
  rfl

theorem resOvervoltage_bleeds (mv : Nat) (s : State) (hon : s.dev.op.mainOn = true) (hmv : 16500 < mv) :
    Completes (.resOvervoltage mv) s (fun t => s.MainOnly t ∧ t.dev.pwr.ovEp = true ∧ t.dev.pwr.bleed = true ∧ t.dev.pwr.resMv = mv ∧
      t.dev.rbit Reg.PWR_STATUS 6 = true ∧ (s.dev.pwr.ovEp = false → t.dev.rbit Reg.PWR_EVT 2 = true) ∧
      Dev.Keeps (inBlock 0x20100 0x20140) { s.dev with pwr := t.dev.pwr } t.dev) := by
  refine completes_onDev rfl ?_
  have hbled := s.dev.keeps_overBled mv
  cases hep : s.dev.pwr.ovEp with
  | false =>
    rw [Dev.overVoltage_first hon hmv hep]
    have hkeeps := hbled.trans (Dev.keeps_overRecord mv _)
    exact ⟨rfl, congrArg PwrS.ovEp hkeeps.pwr_eq, congrArg PwrS.bleed hkeeps.pwr_eq, congrArg PwrS.resMv hkeeps.pwr_eq,
      (Dev.rbit_congr (Dev.reg_overRecord_ne (by decide) (by decide) ..) 6).trans (Dev.rbit_overBled ..), fun _ => Dev.rbit_overRecord ..,
      hkeeps.of_pwr⟩
  | true =>
    rw [Dev.overVoltage_again hon hmv hep]
    exact ⟨rfl, congrArg PwrS.ovEp hbled.pwr_eq, congrArg PwrS.bleed hbled.pwr_eq, congrArg PwrS.resMv hbled.pwr_eq,
      Dev.rbit_overBled .., fun h => absurd h (by simp), hbled.of_pwr⟩

/-- Whether a check of the reservoir bleeds it. -/
def Dev.checkBleeds (d : Dev) : Bool := match d.pwr.check with | some c => c.bleeding | none => false

/-- The reservoir is below 16.0 V again. -/
def Dev.overEnded (mv : Nat) (d : Dev) : Dev :=
  (({ d with pwr := { d.pwr with resMv := mv, ovEp := false } } : Dev).setBleed d.checkBleeds).setField Reg.PWR_STATUS 6 1 0

theorem Dev.overVoltageEnd_of_under {mv : Nat} {d : Dev} (hep : d.pwr.ovEp = true) (hmv : mv < 16000) :
    d.overVoltageEnd mv = (d.overEnded mv).chargeNow.showRes :=
  if_neg (by simp [hep, hmv])

theorem Dev.keeps_overEnded (mv : Nat) (d : Dev) : Dev.Keeps (inBlock 0x20100 0x20140)
    { d with pwr := { d.pwr with resMv := mv, ovEp := false, bleed := d.checkBleeds } } (d.overEnded mv).chargeNow.showRes :=
  ((Dev.keeps_setBleed _ _).trans (Dev.keeps_setField _ _ _ _ _ (.inl (by decide)))).trans (Dev.keeps_chargeNow_showRes _)

theorem resOvervoltageEnd_ends (mv : Nat) (s : State) (hep : s.dev.pwr.ovEp = true) (hmv : mv < 16000) :
    Completes (.resOvervoltageEnd mv) s (fun t => s.MainOnly t ∧ t.dev.pwr.ovEp = false ∧ t.dev.pwr.resMv = mv ∧
      t.dev.rbit Reg.PWR_STATUS 6 = false ∧ (s.dev.pwr.check = none → t.dev.pwr.bleed = false) ∧
      Dev.Keeps (inBlock 0x20100 0x20140) { s.dev with pwr := t.dev.pwr } t.dev) := by
  refine completes_onDev rfl ?_
  rw [Dev.overVoltageEnd_of_under hep hmv]
  have hkeeps := s.dev.keeps_overEnded mv
  refine ⟨rfl, congrArg PwrS.ovEp hkeeps.pwr_eq, congrArg PwrS.resMv hkeeps.pwr_eq, ?_, fun hnone => ?_, hkeeps.of_pwr⟩
  · rw [Dev.rbit_chargeNow_showRes _ (by decide), Dev.rbit, Dev.overEnded, Dev.reg_setField_self]
    exact Word.bit_setField_one _ 6 0 (by decide)
  · exact (congrArg PwrS.bleed hkeeps.pwr_eq).trans (by simp only [Dev.checkBleeds, hnone])

/-- A check of the reservoir has begun: it bleeds, and charging has stopped. -/
def Dev.checkBegun (h : CmdHdr) (d : Dev) : Dev :=
  (((({ d with pwr := { d.pwr with check := some { hdr := h, startRaw := d.raw, startMv := d.pwr.resMv, bleeding := true } } } :
    Dev).setField Reg.PWR_STATUS 7 1 1).setBleed true).setCharging false)

theorem Dev.resCheck_begins {d : Dev} (hen : d.resEn = true) (hnone : d.pwr.check = none) (hfeeds : d.rbit Reg.PWR_STATUS 1 = false)
    (h : CmdHdr) : d.resCheck h = d.checkBegun h :=
  if_neg (by simp [hen, hnone, hfeeds])

theorem Dev.keeps_checkBegun (h : CmdHdr) (d : Dev) : Dev.Keeps (inBlock 0x20100 0x20140)
    { d with pwr := { d.pwr with check := some { hdr := h, startRaw := d.raw, startMv := d.pwr.resMv, bleeding := true }, bleed := true } }
    (d.checkBegun h) := by
  have hset := Dev.keeps_setField (own := inBlock 0x20100 0x20140) Reg.PWR_STATUS 7 1 1
    ({ d with pwr := { d.pwr with check := some { hdr := h, startRaw := d.raw, startMv := d.pwr.resMv, bleeding := true }, bleed := true } } :
      Dev) (.inl (by decide))
  exact (hset.trans (Dev.keeps_setBleed true _)).trans (Dev.keeps_setCharging _ _ fun _ h => h)

theorem pwrResCheck_begins (h : CmdHdr) (s : State) (ha : s.dev.Admits h 0xD1 [] true legalCRD) (hen : s.dev.resEn = true)
    (hnone : s.dev.pwr.check = none) (hfeeds : s.dev.rbit Reg.PWR_STATUS 1 = false) : Completes (.pwrResCheck h) s (fun t => s.MainOnly t ∧
      t.dev.pwr.check = some { hdr := h, startRaw := s.dev.raw, startMv := s.dev.pwr.resMv, bleeding := true } ∧
      t.dev.pwr.bleed = true ∧ t.dev.rbit Reg.PWR_STATUS 7 = true ∧ t.dev.rbit Reg.PWR_STATUS 3 = false ∧
      Dev.Keeps (inBlock 0x20100 0x20140) { s.dev with pwr := t.dev.pwr } t.dev) := by
  refine completes_cmd (body := Dev.resCheck h) rfl ha ?_
  rw [Dev.resCheck_begins hen hnone hfeeds]
  have hkeeps := s.dev.keeps_checkBegun h
  refine ⟨rfl, congrArg PwrS.check hkeeps.pwr_eq, congrArg PwrS.bleed hkeeps.pwr_eq, ?_, ?_, hkeeps.of_pwr⟩
  · rw [Dev.rbit, Dev.checkBegun, Dev.setCharging, Dev.reg_setField_self, Word.bit_setField_ne _ _ _ _ _ (by decide) (by decide),
      Dev.reg_setBleed, Dev.reg_setField_self]
    exact Word.bit_setField_one _ 7 1 (by decide)
  · rw [Dev.rbit, Dev.checkBegun, Dev.setCharging, Dev.reg_setField_self]
    exact Word.bit_setField_one _ 3 0 (by decide)

theorem Dev.bled_of_fallen {mv : Nat} {c : ResCheck} {d : Dev} (hc : d.pwr.check = some c) (hbleeds : c.bleeding = true)
    (hmv : mv + 1000 ≤ c.startMv) : d.bled mv = ((({ d with pwr := { d.pwr with resMv := mv, check := some { c with bleeding := false } } } :
      Dev).setBleed d.pwr.ovEp).chargeNow).showRes := by
  simp only [Dev.bled, hc, hbleeds, decide_eq_true hmv, Bool.and_self, if_true]

theorem resCheckBleedDone_recharges (mv : Nat) (c : ResCheck) (s : State) (hc : s.dev.pwr.check = some c) (hbleeds : c.bleeding = true)
    (hmv : mv + 1000 ≤ c.startMv) : Completes (.resCheckBleedDone mv) s (fun t => s.MainOnly t ∧
      t.dev.pwr.check = some { c with bleeding := false } ∧ t.dev.pwr.resMv = mv ∧ t.dev.pwr.bleed = s.dev.pwr.ovEp ∧
      Dev.Keeps (inBlock 0x20100 0x20140) { s.dev with pwr := t.dev.pwr } t.dev) := by
  refine completes_onDev rfl ?_
  rw [Dev.bled_of_fallen hc hbleeds hmv]
  have hkeeps := (Dev.keeps_setBleed (own := inBlock 0x20100 0x20140) s.dev.pwr.ovEp
    ({ s.dev with pwr := { s.dev.pwr with resMv := mv, check := some { c with bleeding := false } } } : Dev)).trans (Dev.keeps_chargeNow_showRes _)
  exact ⟨rfl, congrArg PwrS.check hkeeps.pwr_eq, congrArg PwrS.resMv hkeeps.pwr_eq, congrArg PwrS.bleed hkeeps.pwr_eq, hkeeps.of_pwr⟩

/-- Settles O11, event by event (R446, R448 to R450, R470). -/
theorem reservoirStatements : Obligations.ReservoirStatements :=
  ⟨⟨resChargeControl_shows, resOvervoltage_bleeds, resOvervoltageEnd_ends⟩, pwrResCheck_begins, resCheckBleedDone_recharges⟩

end Sys2Proof.Machine

/-! # The Annealer, tampers, BOOT and update messages (chapters 13 and 14) -/

namespace Sys2Proof.Machine

/-! ### The Annealer (R459 to R463, R469) -/

/-- The ladder, the operating state and the commands that wait stay; so do the registers but those of `own` and of reporting. -/
structure Dev.Watches (own : Nat → Bool) (d e : Dev) : Prop where
  op : e.op = d.op
  step : e.anl.step = d.anl.step
  p2 : e.anl.p2 = d.anl.p2
  p5wait : e.anl.p5wait = d.anl.p5wait
  regs (off : Nat) : own off = false → reportReg off = false → e.reg off = d.reg off

section
variable {own : Nat → Bool} {a b c : Dev}

theorem Dev.Watches.refl (d : Dev) : d.Watches own d := ⟨rfl, rfl, rfl, rfl, fun _ _ _ => rfl⟩

theorem Dev.Watches.trans (h : a.Watches own b) (k : b.Watches own c) : a.Watches own c :=
  ⟨k.op.trans h.op, k.step.trans h.step, k.p2.trans h.p2, k.p5wait.trans h.p5wait,
    fun off ho hr => (k.regs off ho hr).trans (h.regs off ho hr)⟩

theorem Dev.Keeps.watches (h : Dev.Keeps own a b) : a.Watches own b :=
  ⟨h.op_eq, congrArg AnlS.step h.anl_eq, congrArg AnlS.p2 h.anl_eq, congrArg AnlS.p5wait h.anl_eq, h.2⟩

theorem Dev.Watches.foldl {α : Type} {f : Dev → α → Dev} (hf : ∀ (e : Dev) (x : α), e.Watches own (f e x)) (l : List α) (d : Dev) :
    d.Watches own (l.foldl f d) := by
  induction l generalizing d with
  | nil => exact .refl d
  | cons x l ih => exact (hf d x).trans (ih _)

end

theorem Dev.watches_takeCaps (d : Dev) : d.Watches (fun _ => true) d.takeCaps :=
  .foldl (fun _ _ => (Dev.keeps_setField _ _ _ _ _ (.inl rfl)).watches) _ _

theorem Dev.watches_readSensors (temps : List Int) (d : Dev) : d.Watches (fun _ => true) (d.readSensors temps).2 := by
  unfold Dev.readSensors
  extract_lets first rs valid lost hot anl taken shown bits judged tj noted
  have htaken : d.Watches (fun _ => true) taken := ⟨rfl, rfl, rfl, rfl, fun _ _ _ => rfl⟩
  have hshown : d.Watches (fun _ => true) shown := htaken.trans <| .foldl (fun e i => by
    split
    · exact (Dev.keeps_setReg _ _ e (.inl rfl)).watches
    · exact .refl e) _ _
  have hjudged : d.Watches (fun _ => true) judged := by
    refine hshown.trans ?_
    unfold judged
    clear_value hot
    split
    · exact (Dev.keeps_setReg _ _ _ (.inl rfl)).watches
    · exact (Dev.keeps_setField _ _ _ _ _ (.inl rfl)).watches
  exact hjudged.trans (.foldl (fun e i => ((Dev.keeps_raise _ _ e (.inl rfl)).trans (Dev.keeps_post ..)).watches) _ _)

/-- The registers of R461. -/
def thermReg (off : Nat) : Bool := off == Reg.ANL_EVT || off == Reg.ANL_STATUS

theorem Dev.watches_driveTherm (low : Bool) (d : Dev) : d.Watches thermReg (d.driveTherm low) := by
  unfold Dev.driveTherm
  split
  · exact .refl d
  extract_lets pwr driven shown
  have hdriven : d.Watches thermReg driven := ⟨rfl, rfl, rfl, rfl, fun _ _ _ => rfl⟩
  have hshown : d.Watches thermReg shown := hdriven.trans (Dev.keeps_setField _ _ _ _ _ (.inl (by decide))).watches
  split
  · exact hshown.trans (Dev.keeps_raise _ _ _ (.inl (by decide))).watches
  · exact hshown

theorem Dev.watches_if {own : Nat → Bool} {p : Prop} [Decidable p] {a b c : Dev} (hb : p → a.Watches own b) (hc : ¬ p → a.Watches own c) :
    a.Watches own (if p then b else c) := by
  split
  · exact hb ‹_›
  · exact hc ‹_›

theorem Dev.watches_thermal (tj : Option Int) (d : Dev) : d.Watches thermReg (d.thermal tj) := by
  have hraise (bit : Nat) (e : Dev) : e.Watches thermReg (e.raise Reg.ANL_EVT bit) := (Dev.keeps_raise _ _ e (.inl (by decide))).watches
  have hpost (p : List Word) (e : Dev) : e.Watches thermReg (e.post 0x33 p) := (Dev.keeps_post ..).watches
  unfold Dev.thermal
  split
  · exact d.watches_driveTherm true
  extract_lets w sensor warn warned shed raised shown trip tripped driven anl
  have hwarned : d.Watches thermReg warned := Dev.watches_if (fun _ => (hraise ..).trans (hpost ..)) fun _ => .refl d
  have hraised : d.Watches thermReg raised := Dev.watches_if (fun _ => hwarned.trans (hraise ..)) fun _ => hwarned
  have hshown : d.Watches thermReg shown := hraised.trans (Dev.keeps_setField _ _ _ _ _ (.inl (by decide))).watches
  have htripped : d.Watches thermReg tripped := Dev.watches_if (fun _ => hshown.trans (hpost ..)) fun _ => hshown
  have hdriven : d.Watches thermReg driven := Dev.watches_if (fun _ => htripped.trans (Dev.watches_driveTherm ..))
    fun _ => Dev.watches_if (fun _ => htripped.trans (Dev.watches_driveTherm ..)) fun _ => htripped
  exact ⟨hdriven.op, hdriven.step, hdriven.p2, hdriven.p5wait, hdriven.regs⟩

/-- What a period shows before it moves the ladder. -/
def Dev.periodShown (a : AnnealerInput) (d : Dev) : Dev :=
  let r := d.takeCaps.readSensors a.temps
  ((r.2.setReg Reg.ANL_POWER (BitVec.ofNat 32 (min 65535 a.forecast))).setReg Reg.ANL_FLOOR (BitVec.ofNat 32 (min 65535 a.floor))).thermal r.1

theorem Dev.watches_periodShown (a : AnnealerInput) (d : Dev) : d.Watches (fun _ => true) (d.periodShown a) := by
  have htherm := Dev.watches_thermal (d.takeCaps.readSensors a.temps).1
    (((d.takeCaps.readSensors a.temps).2.setReg Reg.ANL_POWER (BitVec.ofNat 32 (min 65535 a.forecast))).setReg Reg.ANL_FLOOR
      (BitVec.ofNat 32 (min 65535 a.floor)))
  refine (d.watches_takeCaps.trans (Dev.watches_readSensors a.temps _)).trans ?_
  exact ⟨htherm.op, htherm.step, htherm.p2, htherm.p5wait, fun _ h => absurd h (by simp)⟩

theorem Dev.reg_periodShown {off : Nat} (hown : thermReg off = false) (hr : reportReg off = false) (a : AnnealerInput) (d : Dev) :
    (d.periodShown a).reg off = if off = Reg.ANL_FLOOR then BitVec.ofNat 32 (min 65535 a.floor)
      else if off = Reg.ANL_POWER then BitVec.ofNat 32 (min 65535 a.forecast) else (d.takeCaps.readSensors a.temps).2.reg off := by
  rw [Dev.periodShown, (Dev.watches_thermal ..).regs off hown hr, Dev.reg_setReg, Dev.reg_setReg]

/-- In HOLDUP the grants stay (log entry 81). -/
theorem Dev.period_of_holdup {d : Dev} (hop : d.op = .holdup) (a : AnnealerInput) : d.period a = d.periodShown a :=
  if_pos ((d.watches_periodShown a).op.trans hop)

theorem State.p5Period_of_none {s : State} (hwait : s.dev.anl.p5wait = []) (a : AnnealerInput) : s.p5Period a = s := by
  have hsame : s.mapDev (fun d => { d with anl := { d.anl with p5wait := [] } }) = s := by
    rw [← hwait]
    rfl
  simp only [State.p5Period, hwait, p5Pick, List.isEmpty_nil, if_true, hsame]

theorem completes_annealerPeriod {a : AnnealerInput} {s : State} {P : State → Prop} (hon : s.dev.op.mainOn = true) (hboot : s.dev.op ≠ .boot)
    (hrestart : s.dev.mgmt.restart = false) (hP : P ((s.mapDev (Dev.period a)).p5Period a)) : Completes (.annealerPeriod a) s P :=
  ⟨_, congrArg Host.Outcome.next (if_neg (by simp [hon, hboot, hrestart])), hP⟩

/-- Settles O12, by the operating state (R459, R460, R462, R463, R469). That a period in HOLDUP shows the forecast and the floor and leaves
the grants is log entry 81. -/
theorem annealerCapAndPeriod : Obligations.AnnealerCapAndPeriod := by
  refine ⟨fun h cap s ha hlow hhigh => completes_cmd (body := Dev.capCmd h cap) rfl ha ?_,
    fun h cap s ha hbad => completes_cmd (body := Dev.capCmd h cap) rfl ha ?_,
    fun a s hop hrestart hwait => completes_annealerPeriod (by rw [hop]; rfl) (by rw [hop]; decide) hrestart ?_,
    fun a s hop hrestart => ?_⟩
  · rw [Dev.capCmd, if_neg (by omega)]
  · rw [Dev.capCmd, if_pos hbad]
    exact ⟨rfl, Dev.keeps_complete ..⟩
  · have hwatch := s.dev.watches_periodShown a
    have hdev : (s.mapDev (Dev.period a)).dev = s.dev.periodShown a := Dev.period_of_holdup hop a
    rw [State.p5Period_of_none ((congrArg (·.anl.p5wait) hdev).trans (hwatch.p5wait.trans hwait)), hdev]
    exact ⟨rfl, (Dev.reg_periodShown (by decide) (by decide) ..).trans ((if_neg (by decide)).trans (if_pos rfl)),
      (Dev.reg_periodShown (by decide) (by decide) ..).trans (if_pos rfl), hwatch.step, hwatch.p2⟩
  · have hserved : s.dev.op.mainOn = true ∧ s.dev.op ≠ .boot := by
      rcases hop with hop | hop
      · have hmem := List.contains_iff_mem.1 hop
        simp only [legalCRD, List.mem_cons, List.not_mem_nil, or_false] at hmem
        rcases hmem with hmem | hmem | hmem <;> rw [hmem] <;> decide
      · rw [hop]
        decide
    exact completes_annealerPeriod hserved.1 hserved.2 hrestart rfl

/-! ### SAFE and tampers (R431 to R433) -/

theorem Dev.refreshAlms_key (d : Dev) : d.refreshAlms.key = d.key := by
  unfold Dev.refreshAlms
  generalize List.range 8 = l
  induction l generalizing d with
  | nil => rfl
  | cons n l ih =>
    have hone : (d.refreshAlm n).key = d.key := (Dev.drives_refreshAlm n d).frame.key_eq
    exact (ih _).trans hone

theorem Dev.setOp_key (new : OpState) (reason order : Nat) (d : Dev) : (d.setOp new reason order).key = d.key :=
  (Dev.keeps_setOp new reason order d).key_eq

/-- No key stands in the plate in SAFE. -/
theorem Dev.enterSafe_plate (reason order : Nat) (d : Dev) : (d.enterSafe reason order).key.plate = [] := by
  rw [Dev.enterSafe, Dev.refreshAlms_key, Dev.setOp_key, Dev.zeroize_plate]

/-- A BOOT that ends in SAFE shows the state and its reason. -/
theorem Dev.bootSafe_op (reason order ms : Nat) (d : Dev) : (d.bootSafe reason order ms).op = .safe := by
  rw [Dev.bootSafe, Dev.post_op]
  exact (Dev.keeps_setOp ..).op_eq

theorem Dev.bootSafe_reason (reason order ms : Nat) (d : Dev) : (d.bootSafe reason order ms).reason = reason := by
  rw [Dev.bootSafe, Dev.post_reason]
  exact (Dev.keeps_setOp ..).reason_eq

theorem Dev.bootSafe_plate (reason order ms : Nat) (d : Dev) : (d.bootSafe reason order ms).key.plate = [] := by
  rw [Dev.bootSafe, Dev.post_key, Dev.setOp_key, Dev.zeroize_plate]

theorem Dev.bootSafe_ends (reason order ms : Nat) (d : Dev) : (d.bootSafe reason order ms).op = .safe ∧
    (d.bootSafe reason order ms).reason = reason ∧ (d.bootSafe reason order ms).key.plate = [] :=
  ⟨d.bootSafe_op .., d.bootSafe_reason .., d.bootSafe_plate ..⟩

theorem Dev.tamper_plate (d : Dev) : d.tamper.key.plate = [] := by
  unfold Dev.tamper
  dsimp only
  split
  · exact Dev.bootSafe_plate ..
  split
  · exact Dev.enterSafe_plate ..
  · rfl

/-- In BACKUP and in SAFE a tamper zeroes the plate only. -/
theorem Dev.tamper_of_quiet {d : Dev} (hop : d.op = .backup ∨ d.op = .safe) : d.tamper = d.zeroize false := by
  have hquiet : d.op ≠ .boot ∧ ¬ (legalCRD.contains d.op = true ∨ d.op = .holdup) := by
    rcases hop with hop | hop <;> rw [hop] <;> decide
  exact (if_neg hquiet.1).trans (if_neg hquiet.2)

theorem completes_tamperDetected {src : TamperSrc} {s : State} {P : State → Prop} (hoff : s.dev.op ≠ .off) (hlive : s.tamperLive src = true)
    (hP : P { s with bd := s.bd.latch (tamperBit src) (!s.dev.op.mainOn), dev := s.dev.tamper }) : Completes (.tamperDetected src) s P :=
  ⟨_, congrArg Host.Outcome.next (if_neg (by simp [hoff, hlive])), hP⟩

/-- Settles O15, by the operating state (R430 to R433, Tables 13.13 and 13.14). -/
theorem tampers : Obligations.Tampers := by
  refine ⟨fun src s hoff hlive => completes_tamperDetected hoff hlive ?_, fun src s hop hlive => completes_tamperDetected ?_ hlive ?_⟩
  · refine ⟨rfl, rfl, rfl, rfl, ?_, s.dev.tamper_plate, rfl, rfl, rfl⟩
    simp only [Bd.latch, beq_iff_eq]
  · rcases hop with hop | hop <;> rw [hop] <;> decide
  · rw [Dev.tamper_of_quiet hop]
    exact ⟨rfl, rfl, rfl, rfl, rfl⟩

/-! ### A pass through BOOT (R467, R468, Table 14.9) -/

/-- What a pass through BOOT keeps of non-volatile memory: its security version does not fall, and what update messages move stays. -/
structure State.BootKeeps (s t : State) : Prop where
  svn : s.nv.bootSvn ≤ t.nv.bootSvn
  lc : t.nv.lc = s.nv.lc
  updCtr : t.nv.updCtr = s.nv.updCtr

theorem State.BootKeeps.refl (s : State) : s.BootKeeps s := ⟨le_refl _, rfl, rfl⟩

theorem State.BootKeeps.trans {a b c : State} (h : a.BootKeeps b) (k : b.BootKeeps c) : a.BootKeeps c :=
  ⟨h.svn.trans k.svn, k.lc.trans h.lc, k.updCtr.trans h.updCtr⟩


theorem State.BootKeeps.of_nv {s t : State} (h : t.nv = s.nv) : s.BootKeeps t := ⟨by rw [h], by rw [h], by rw [h]⟩

theorem State.BootKeeps.ite {p : Prop} [Decidable p] {s a b : State} (ha : s.BootKeeps a) (hb : s.BootKeeps b) :
    s.BootKeeps (if p then a else b) := by
  split
  · exact ha
  · exact hb

theorem State.BootKeeps.foldl {α : Type} {f : State → α → State} (hf : ∀ (e : State) (x : α), e.BootKeeps (f e x)) (l : List α)
    (s : State) : s.BootKeeps (l.foldl f s) := by
  induction l generalizing s with
  | nil => exact .refl s
  | cons x l ih => exact (hf s x).trans (ih _)

theorem State.bootKeeps_mapDev (f : Dev → Dev) (s : State) : s.BootKeeps (s.mapDev f) := .of_nv rfl

theorem State.bootKeeps_unwrapSlot (bad : List Nat) (s : State) (p : Nat × KeyCopies) : s.BootKeeps (s.unwrapSlot bad p) := by
  unfold State.unwrapSlot
  extract_lets copy erased
  have herased : s.BootKeeps erased := ⟨le_refl _, rfl, rfl⟩
  split
  · exact herased
  split
  · exact herased
  · exact .ite (herased.trans (State.bootKeeps_mapDev ..)) (herased.trans (State.bootKeeps_mapDev ..))

theorem State.bootKeeps_noteDebug (s : State) : s.BootKeeps s.noteDebug := .ite (s.bootKeeps_mapDev _) (.refl s)

/-- The image taken only raises the security version. -/
theorem State.bootKeeps_bootImage (r : BootReport) (slot : Nat) (i : ImageSlot) (s : State) : s.BootKeeps (s.bootImage r slot i) := by
  unfold State.bootImage
  extract_lets info measured trained unwrapped tested timed nv raised
  have hunwrapped : s.BootKeeps unwrapped :=
    (((s.bootKeeps_mapDev _).trans (State.bootKeeps_mapDev ..)).trans (.foldl (State.bootKeeps_unwrapSlot r.badKeys) _ _)).trans
      (State.bootKeeps_noteDebug _)
  have htimed : s.BootKeeps timed := (hunwrapped.trans (State.bootKeeps_mapDev ..)).trans (State.bootKeeps_mapDev ..)
  have hraised : s.BootKeeps raised := htimed.trans ⟨le_max_left _ _, rfl, rfl⟩
  exact .ite (hraised.trans (State.bootKeeps_mapDev ..)) hraised

theorem State.noteLatch_nv (s : State) : s.noteLatch.nv = s.nv := by
  unfold State.noteLatch
  split <;> rfl

theorem State.checkLatch_nv (s : State) : s.checkLatch.2.nv = s.nv := by
  have hnote := s.noteLatch_nv
  unfold State.checkLatch
  dsimp only
  split
  · exact hnote
  split
  · exact hnote
  · exact hnote

/-- The steps of BOOT before the backup domain's latch is examined. -/
def State.bootScanned (r : BootReport) (s : State) : State := ((s.deriveHallmark r).scanLog r).checkHoldup

theorem State.bootKeeps_bootScanned (r : BootReport) (s : State) : s.BootKeeps (s.bootScanned r) := by
  have hderived : s.BootKeeps (s.deriveHallmark r) := .ite (s.bootKeeps_mapDev _) (.refl s)
  have hscanned : s.BootKeeps ((s.deriveHallmark r).scanLog r) := hderived.trans ⟨le_refl _, rfl, rfl⟩
  exact hscanned.trans (.ite (.of_nv rfl) (.refl _))

theorem State.boot_eq (r : BootReport) (s : State) : s.boot r = match (s.bootScanned r).checkVault.checkLatch with
    | (some reason, s) => s.mapDev (Dev.bootSafe reason 1 r.bootMs)
    | (none, s) => match bootImage? s.nv.bootSvn r with
      | some (slot, i) => s.bootImage r slot i
      | none => s.mapDev (fun d => (d.setReg Reg.RST_BOOT_INFO 2).bootSafe 4 3 r.bootMs) := rfl

theorem State.bootKeeps_boot (r : BootReport) (s : State) : s.BootKeeps (s.boot r) := by
  have hvault : s.BootKeeps (s.bootScanned r).checkVault := (s.bootKeeps_bootScanned r).trans (.ite (.of_nv rfl) (.refl _))
  have hlatch : s.BootKeeps (s.bootScanned r).checkVault.checkLatch.2 := hvault.trans (.of_nv (State.checkLatch_nv _))
  rw [State.boot_eq]
  generalize (s.bootScanned r).checkVault.checkLatch = x at hlatch
  obtain ⟨reason, t⟩ := x
  cases reason with
  | some reason => exact hlatch.trans (State.bootKeeps_mapDev ..)
  | none =>
    dsimp only
    split
    · exact hlatch.trans (State.bootKeeps_bootImage ..)
    · exact hlatch.trans (State.bootKeeps_mapDev ..)

theorem State.bd_bootScanned (r : BootReport) (s : State) :
    (s.bootScanned r).bd.causes = s.bd.causes ∧ (s.bootScanned r).bd.root = s.bd.root := by
  have hscanned : ((s.deriveHallmark r).scanLog r).bd = s.bd := by
    show (s.deriveHallmark r).bd = s.bd
    unfold State.deriveHallmark
    split <;> rfl
  have hcauses := congrArg Bd.causes hscanned
  have hroot := congrArg Bd.root hscanned
  unfold State.bootScanned State.checkHoldup
  split
  · exact ⟨hcauses, hroot⟩
  · exact ⟨hcauses, hroot⟩

/-- A clear latch over a vault with its root gives no reason for SAFE. -/
theorem State.checkLatch_of_clear {s : State} (hcauses : s.bd.causes = 0) (hroot : s.bd.root.isSome = true) :
    s.checkVault.checkLatch = (none, s) := by
  have hvault : s.checkVault = s := if_neg (by simp [Option.isNone_eq_false_iff.2 hroot])
  have hnote : s.noteLatch = s := if_pos (.inl hcauses)
  rw [hvault, State.checkLatch, hnote]
  exact if_pos hcauses

theorem bootSvn_bootScanned (r : BootReport) (s : State) : (s.bootScanned r).nv.bootSvn = s.nv.bootSvn := by
  have hderived : (s.deriveHallmark r).nv = s.nv := by
    unfold State.deriveHallmark
    split <;> rfl
  have hsvn := congrArg Nv.bootSvn hderived
  unfold State.bootScanned State.checkHoldup
  split
  · exact hsvn
  · exact hsvn

/-- Without an image that BOOT accepts, a pass ends in SAFE with reason 4. -/
theorem State.boot_of_no_image {r : BootReport} {s : State} (hcauses : s.bd.causes = 0) (hroot : s.bd.root.isSome = true)
    (hnone : bootImage? s.nv.bootSvn r = none) :
    s.boot r = (s.bootScanned r).mapDev (fun d => (d.setReg Reg.RST_BOOT_INFO 2).bootSafe 4 3 r.bootMs) := by
  obtain ⟨hc, hr⟩ := s.bd_bootScanned r
  rw [State.boot_eq, State.checkLatch_of_clear (hc.trans hcauses) (by rw [hr]; exact hroot)]
  dsimp only
  rw [bootSvn_bootScanned, hnone]

/-- Settles O16, by the way in which BOOT ends (R467, R468, Table 14.9). The messages that act in BOOT are events of their own (log entry
4), so that the pass itself keeps the life cycle and the update counter. -/
theorem bootEnds : Obligations.BootEnds := by
  refine ⟨fun r s hop => ⟨_, congrArg Host.Outcome.next (if_pos hop), ?_⟩,
    fun r s hop hcauses hroot hnone => ⟨_, congrArg Host.Outcome.next (if_pos hop), ?_⟩⟩
  · obtain ⟨hsvn, hlc, hctr⟩ := s.bootKeeps_boot r
    exact ⟨rfl, hsvn, hlc, hctr⟩
  · rw [State.boot_of_no_image hcauses hroot hnone]
    dsimp only [State.mapDev]
    exact Dev.bootSafe_ends 4 3 r.bootMs ((s.bootScanned r).dev.setReg Reg.RST_BOOT_INFO 2)

/-! ### Update messages (R424 to R429, Tables 13.11 and 13.12) -/

/-- The working keys go with a transition and with `RESEAL`. -/
def State.msgErased (m : UpdateMsg) (s : State) : State := if m.typ ≤ 5 ∨ m.typ = 8 then s.eraseKeys (m.typ != 4) else s

/-- `PROVISION` and `RESEAL` draw a vault root. -/
def State.msgRooted (m : UpdateMsg) (s : State) : State := if m.typ = 1 ∨ m.typ = 5 then s.drawRoot else s

/-- `RETURN` and `SCRAP` zero it. -/
def State.msgUnrooted (m : UpdateMsg) (s : State) : State := if m.typ = 3 ∨ m.typ = 4 then { s with bd := { s.bd with root := none } } else s

/-- `RESEAL` clears the latch. -/
def State.msgCleared (m : UpdateMsg) (s : State) : State :=
  if m.typ = 5 then { s.noteLatch with bd := s.noteLatch.bd.clearLatch } else s

/-- A message's effect on keys, vault and latch, once its counter is the update counter. -/
def State.msgMoved (m : UpdateMsg) (s : State) : State :=
  (((({ s with nv := { s.nv with updCtr := m.counter.toNat } } : State).msgErased m).msgRooted m).msgUnrooted m).msgCleared m

section
variable (m : UpdateMsg) (s : State)

theorem State.nv_msgErased : (s.msgErased m).nv = { s.nv with
    store := if m.typ ≤ 5 ∨ m.typ = 8 then [] else s.nv.store, gens := if m.typ ≤ 5 ∨ m.typ = 8 then [] else s.nv.gens } := by
  unfold State.msgErased
  split <;> rfl

theorem State.nv_msgRooted : (s.msgRooted m).nv = { s.nv with
    vaultGen := if m.typ = 1 ∨ m.typ = 5 then s.nv.vaultGen + 1 else s.nv.vaultGen } := by
  unfold State.msgRooted
  split <;> rfl

theorem State.nv_msgUnrooted : (s.msgUnrooted m).nv = s.nv := by
  unfold State.msgUnrooted
  split <;> rfl

theorem State.nv_msgCleared : (s.msgCleared m).nv = s.nv := by
  unfold State.msgCleared
  split
  · exact s.noteLatch_nv
  · rfl

theorem State.nv_msgMoved : (s.msgMoved m).nv = { s.nv with
    updCtr := m.counter.toNat
    store := if m.typ ≤ 5 ∨ m.typ = 8 then [] else s.nv.store, gens := if m.typ ≤ 5 ∨ m.typ = 8 then [] else s.nv.gens
    vaultGen := if m.typ = 1 ∨ m.typ = 5 then s.nv.vaultGen + 1 else s.nv.vaultGen } := by
  rw [State.msgMoved, State.nv_msgCleared, State.nv_msgUnrooted, State.nv_msgRooted, State.nv_msgErased]

theorem State.noteLatch_root : s.noteLatch.bd.root = s.bd.root := by
  unfold State.noteLatch
  split <;> rfl

theorem State.root_msgCleared : (s.msgCleared m).bd.root = s.bd.root := by
  unfold State.msgCleared
  split
  · exact s.noteLatch_root
  · rfl

theorem State.root_msgUnrooted (h : m.typ = 3 ∨ m.typ = 4) : (s.msgUnrooted m).bd.root = none := by
  rw [State.msgUnrooted, if_pos h]

theorem State.root_msgRooted (h : m.typ = 1 ∨ m.typ = 5) : ((s.msgRooted m).msgUnrooted m).bd.root.isSome = true := by
  rw [State.msgUnrooted, if_neg (by omega), State.msgRooted, if_pos h]
  rfl

/-- The effect of an accepted message on non-volatile memory. -/
theorem State.nv_msgEffect : (s.msgEffect m).nv.updCtr = m.counter.toNat ∧ (s.msgEffect m).nv.lc = msgNext s.nv.lc m.typ ∧
    (m.typ ≤ 5 ∨ m.typ = 8 → (s.msgEffect m).nv.store = [] ∧ (s.msgEffect m).nv.gens = []) ∧
    (m.typ = 6 ∨ m.typ = 7 → (s.msgEffect m).nv.store = s.nv.store ∧ (s.msgEffect m).nv.gens = s.nv.gens) ∧
    (m.typ = 1 ∨ m.typ = 5 → (s.msgEffect m).nv.vaultGen = s.nv.vaultGen + 1) ∧
    (s.msgEffect m).nv.gen = s.nv.gen ∧ (s.msgEffect m).nv.sec = s.nv.sec := by
  have heffect : (s.msgEffect m).nv = { (s.msgMoved m).nv with
      lc := msgNext (s.msgMoved m).nv.lc m.typ
      authKey := if m.typ = 1 ∨ m.typ = 6 then some m.key else if m.typ = 8 then none else (s.msgMoved m).nv.authKey
      helperOk := (s.msgMoved m).nv.helperOk && m.typ != 4
      debugNext := (s.msgMoved m).nv.debugNext || m.typ == 7 } := rfl
  rw [heffect, State.nv_msgMoved]
  exact ⟨rfl, rfl, fun h => ⟨if_pos h, if_pos h⟩, fun h => ⟨if_neg (by omega), if_neg (by omega)⟩, fun h => if_pos h, rfl, rfl⟩

/-- The effect of an accepted message on the backup domain. -/
theorem State.bd_msgEffect : (m.typ = 3 ∨ m.typ = 4 → (s.msgEffect m).bd.root = none) ∧
    (m.typ = 1 ∨ m.typ = 5 → (s.msgEffect m).bd.root.isSome = true) ∧ (m.typ = 5 → (s.msgEffect m).bd.causes = 0) := by
  have hbd : (s.msgEffect m).bd = (s.msgMoved m).bd := rfl
  rw [hbd, State.msgMoved]
  refine ⟨fun h => ?_, fun h => ?_, fun h => ?_⟩
  · rw [State.root_msgCleared, State.root_msgUnrooted _ _ h]
  · rw [State.root_msgCleared, State.root_msgRooted _ _ h]
  · rw [State.msgCleared, if_pos h]
    rfl

end

section
variable {typ : Nat} {m : UpdateMsg} {c : Instr} {s : State}

theorem exec_flash (hc : (typ, c) ∈ [(1, Instr.provision m), (2, .advance m), (3, .return_ m), (4, .scrap m), (5, .reseal m),
    (6, .rotateAuthority m), (7, .debugOpen m), (8, .reblank m)]) (s : State) : exec c s = .next (s.flashRow typ m) := by
  simp only [List.mem_cons, Prod.mk.injEq, List.not_mem_nil, or_false] at hc
  rcases hc with ⟨rfl, rfl⟩ | ⟨rfl, rfl⟩ | ⟨rfl, rfl⟩ | ⟨rfl, rfl⟩ | ⟨rfl, rfl⟩ | ⟨rfl, rfl⟩ | ⟨rfl, rfl⟩ | ⟨rfl, rfl⟩ <;> rfl

theorem State.flashRow_accepted (hop : s.dev.op = .boot) (htyp : m.typ = typ) (hreason : msgReason s.fuse s.nv true .boot m = 0) :
    s.flashRow typ m = (s.msgEffect m).msgNote m 0 true := by
  rw [State.flashRow, if_pos ⟨hop, htyp⟩, State.flashMsg, hop, hreason]
  rfl

theorem State.flashRow_stale (hop : s.dev.op = .boot) (htyp : m.typ = typ) (hreason : msgReason s.fuse s.nv true .boot m = 5) :
    s.flashRow typ m = s.mapDev (fun d => d.bump Reg.TMP_UPD_STALE 1) := by
  rw [State.flashRow, if_pos ⟨hop, htyp⟩, State.flashMsg, hop, hreason]
  rfl

end

section
variable {h : CmdHdr} {m : UpdateMsg} {s : State}

theorem completes_keyUpdate {P : State → Prop} (ha : s.dev.Admits h 0xA6 [] true legalCRD) (hP : P (s.updateCmd h m)) :
    Completes (.keyUpdate h m) s P := ⟨_, rfl, by rwa [State.cmd_of_admits ha]⟩

theorem State.updateCmd_bad {r : Nat} (hmem : m.memErr = false) (hreason : msgReason s.fuse s.nv false s.dev.op m = r) (h0 : r ≠ 0)
    (h6 : r ≠ 6) : s.updateCmd h m = (s.msgNote m r false).mapDev (fun d => d.complete h 0xA6 2 [0, 0, BitVec.ofNat 32 r]) := by
  rw [State.updateCmd, hmem, if_neg Bool.false_ne_true, hreason]
  split
  · contradiction
  · contradiction
  · rfl

theorem State.updateCmd_refused (hmem : m.memErr = false) (hreason : msgReason s.fuse s.nv false s.dev.op m = 6) :
    s.updateCmd h m = (s.msgNote m 6 false).mapDev (fun d => d.refuse h 0xA6 6 1 0xFFFF [0, 0, 6]) := by
  rw [State.updateCmd, hmem, if_neg Bool.false_ne_true, hreason]
  rfl

/-- A transition or `RESEAL` accepted passes through BOOT, after its record and its completion. -/
theorem State.updateCmd_boots (hmem : m.memErr = false) (hrng : s.dev.key.rngFail = false) (htyp : m.typ ≤ 5)
    (hreason : msgReason s.fuse s.nv false s.dev.op m = 0) : s.updateCmd h m = (((s.msgEffect m).msgNote m 0 false).mapDev
      (fun d => d.complete h 0xA6 0 [BitVec.ofNat 32 m.typ, m.counter])).enterBoot 6 5 := by
  rw [State.updateCmd, hmem, if_neg Bool.false_ne_true, hreason]
  dsimp only
  rw [if_neg (by simp [hrng]), if_pos htyp]
  rfl

end

theorem State.nv_enterBoot (cause order : Nat) (s : State) : (s.enterBoot cause order).nv.updCtr = s.nv.updCtr ∧
    (s.enterBoot cause order).nv.lc = s.nv.lc ∧ (s.enterBoot cause order).nv.store = s.nv.store := ⟨rfl, rfl, rfl⟩

theorem State.mainOnly_msgNote (m : UpdateMsg) (reason : Nat) (flash : Bool) (f : Dev → Dev) (s : State) :
    s.MainOnly ((s.msgNote m reason flash).mapDev f) := s.mainOnly_dev _

theorem State.nv_msgNote (m : UpdateMsg) (reason : Nat) (flash : Bool) (s : State) : (s.msgNote m reason flash).nv = s.nv := rfl

/-- Settles O17, by the path of the message and the first of its checks that fails (R424 to R429, Tables 13.11 and 13.12). That a message
that draws a root needs the random generator is log entry 76. -/
theorem updateMessages : Obligations.UpdateMessages := by
  refine ⟨?flash, ?bad, ?refused, ?accepted⟩
  case flash =>
    intro typ m c s hc hop htyp
    refine ⟨fun hreason => ⟨_, exec_flash hc s, ?_⟩, fun hreason => ⟨_, exec_flash hc s, State.flashRow_stale hop htyp hreason⟩⟩
    rw [State.flashRow_accepted hop htyp hreason]
    subst htyp
    obtain ⟨hctr, hlc, herased, hkept, hvault, hgen, hsec⟩ := s.nv_msgEffect m
    obtain ⟨hnone, hroot, hcauses⟩ := s.bd_msgEffect m
    exact ⟨hctr, hlc, herased, hkept, hnone, fun h => ⟨hroot h, hvault h⟩, hcauses, hgen, hsec⟩
  case bad =>
    intro h m r s ha hmem hreason h0 h6
    refine completes_keyUpdate ha ?_
    rw [State.updateCmd_bad hmem hreason h0 h6]
    exact ⟨State.mainOnly_msgNote .., State.mapDev_dev ..⟩
  case refused =>
    intro h m s ha hmem hreason
    refine completes_keyUpdate ha ?_
    rw [State.updateCmd_refused hmem hreason]
    exact ⟨State.mainOnly_msgNote .., State.mapDev_dev ..⟩
  case accepted =>
    intro h m s ha hmem hrng htyp hreason
    refine completes_keyUpdate ha ?_
    rw [State.updateCmd_boots hmem hrng htyp hreason]
    obtain ⟨hctr, hlc, herased, -⟩ := s.nv_msgEffect m
    generalize hnoted : ((s.msgEffect m).msgNote m 0 false).mapDev
      (fun d => d.complete h 0xA6 0 [BitVec.ofNat 32 m.typ, m.counter]) = noted
    have hnv : noted.nv = (s.msgEffect m).nv := by rw [← hnoted, State.mapDev_nv, State.nv_msgNote]
    obtain ⟨hboot, -, -, hcause, hplate, -⟩ := noted.bootBegun_enterBoot 6 5
    obtain ⟨hctr', hlc', hstore'⟩ := noted.nv_enterBoot 6 5
    rw [hnv] at hctr' hlc' hstore'
    exact ⟨hboot, hcause, hctr'.trans hctr, hlc'.trans hlc, hstore'.trans (herased (.inl htyp)).1, hplate⟩

end Sys2Proof.Machine

/-! # Filigree on the air (chapter 11) -/

namespace Sys2Proof.Machine

/-! ### Sending (R336, R347, R356) -/

/-- Of Filigree's state, what sending moves: the queue, the frame on the air, the counters that number frames. -/
def Dev.RadioOnly (d e : Dev) : Prop :=
  e.flg = { d.flg with queue := e.flg.queue, air := e.flg.air, ctr := e.flg.ctr, dsn := e.flg.dsn, ended := e.flg.ended }

/-- Frames that wait for the channel or are on the air. -/
def Dev.inFlight (d : Dev) : Nat := d.flg.queue.length + d.flg.air.toList.length

section
variable (x : FlgTx) (d : Dev)

theorem Dev.RadioOnly.refl : d.RadioOnly d := rfl

theorem Dev.RadioOnly.trans {a b c : Dev} (h : a.RadioOnly b) (k : b.RadioOnly c) : a.RadioOnly c := by
  unfold Dev.RadioOnly at *
  rw [k, h]

theorem Dev.takeCtr_flg : ∃ ended, d.takeCtr.2.flg = { d.flg with ctr := d.flg.ctr + 1, ended := ended } := by
  unfold Dev.takeCtr
  dsimp only
  split
  · exact ⟨true, Dev.raise_flg ..⟩
  · exact ⟨d.flg.ended, rfl⟩

theorem Dev.keeps_takeCtr : Dev.Keeps (fun off => off == Reg.FLG_EVT) { d with flg := d.takeCtr.2.flg } d.takeCtr.2 := by
  unfold Dev.takeCtr
  dsimp only
  split
  · rw [Dev.raise_flg]
    exact Dev.keeps_raise _ _ _ (.inl (by simp))
  · exact Dev.Keeps.refl ..

theorem Dev.numberFrame_flg : ∃ ctr dsn ended, (d.numberFrame x).2.flg = { d.flg with ctr := ctr, dsn := dsn, ended := ended } := by
  unfold Dev.numberFrame
  split
  · exact ⟨_, _, _, rfl⟩
  · obtain ⟨ended, hended⟩ := d.takeCtr_flg
    exact ⟨_, _, ended, by dsimp only; rw [hended]⟩

theorem Dev.keeps_numberFrame : Dev.Keeps (fun off => off == Reg.FLG_EVT) { d with flg := (d.numberFrame x).2.flg } (d.numberFrame x).2 := by
  unfold Dev.numberFrame
  split
  · exact Dev.Keeps.refl ..
  · obtain ⟨hdev, hregs⟩ := d.keeps_takeCtr
    refine ⟨?_, hregs⟩
    dsimp only
    conv_lhs => rw [hdev]

/-- A frame goes on the air. -/
theorem Dev.radioGo_flg : ∃ ctr dsn ended f, (d.radioGo x).flg = { d.flg with
    ctr := ctr, dsn := dsn, ended := ended
    air := some { tx := { x with f := f }, pred := d.raw + d.fld Reg.FLG_RLP_TXLAT 0 24, sfd := none } } := by
  obtain ⟨ctr, dsn, ended, hflg⟩ := d.numberFrame_flg x
  have hraw := (d.keeps_numberFrame x).raw_eq
  unfold Dev.radioGo
  generalize d.numberFrame x = p at hflg hraw
  obtain ⟨f, e⟩ := p
  dsimp only at hflg hraw ⊢
  exact ⟨ctr, dsn, ended, { f with timing := some (e.timingIe (e.tick + (d.fld Reg.FLG_RLP_TXLAT 0 24 : Int))) }, by
    rw [Dev.wrapAdd_flg, Dev.emit_flg, Dev.wrapAdd_raw, Dev.emit_raw, hflg, hraw]⟩

theorem Dev.reg_radioGo : (d.radioGo x).reg Reg.FLG_TX_FRAMES = d.reg Reg.FLG_TX_FRAMES + 1 := by
  have hreg := (d.keeps_numberFrame x).2 Reg.FLG_TX_FRAMES (by decide) (by decide)
  unfold Dev.radioGo
  generalize d.numberFrame x = p at hreg
  obtain ⟨f, e⟩ := p
  show ((e.emit _).wrapAdd Reg.FLG_TX_FRAMES 1).reg Reg.FLG_TX_FRAMES = _
  rw [Dev.reg_wrapAdd, if_pos rfl]
  exact congrArg (· + BitVec.ofNat 32 1) hreg

/-- A back-off draws at most one free value. -/
theorem Dev.backoff_eq : ∃ due free, d.backoff x = ({ x with due := due, ready := true }, { d with free := free }) := by
  unfold Dev.backoff
  split
  · exact ⟨_, d.free, rfl⟩
  · exact ⟨_, _, rfl⟩

theorem Dev.radioNext_sends : d.RadioOnly d.radioNext ∧ d.radioNext.inFlight = d.inFlight := by
  unfold Dev.radioNext
  split
  · exact ⟨rfl, rfl⟩
  rename_i hfree
  have hair : d.flg.air = none := (by simpa using hfree : d.flgTxOn = true ∧ d.flg.air = none).2
  split
  · exact ⟨rfl, rfl⟩
  rename_i x rest hqueue
  split
  · exact ⟨rfl, rfl⟩
  obtain ⟨due, free, hback⟩ := d.backoff_eq { x with nb := 0, be := d.fld Reg.FLG_LBT 4 4 }
  rw [hback]
  dsimp only
  split
  · exact ⟨rfl, by simp [Dev.inFlight, hqueue]⟩
  · obtain ⟨ctr, dsn, ended, f, hgo⟩ := Dev.radioGo_flg { x with nb := 0, be := d.fld Reg.FLG_LBT 4 4, due := due, ready := true }
      { d with free := free, flg := { d.flg with queue := rest } }
    refine ⟨?_, ?_⟩
    · rw [Dev.RadioOnly, hgo]
    · rw [Dev.inFlight, hgo, Dev.inFlight, hqueue, hair]
      rfl

variable (f : RadioTx) (uni : Bool) (node : Option Nat) (hdr : Option (CmdHdr × Nat)) (held : Option Nat)

theorem Dev.radioOnly_radioSend : d.RadioOnly (d.radioSend f uni node hdr held) := by
  unfold Dev.radioSend
  split
  · exact .refl d
  · extract_lets x flg
    have hqueued : d.RadioOnly { d with flg := flg } := rfl
    exact hqueued.trans (Dev.radioNext_sends _).1

/-- A frame sent waits for the channel, or is on the air at once. -/
theorem Dev.inFlight_radioSend (hon : d.flgOn = true) (hend : d.flg.ended = false) :
    (d.radioSend f uni node hdr held).inFlight = d.inFlight + 1 := by
  rw [Dev.radioSend, if_neg (by simp [hon, hend])]
  dsimp only
  rw [(Dev.radioNext_sends _).2, Dev.inFlight, Dev.inFlight, List.length_append]
  simp only [List.length_singleton]
  omega

end

/-! ### Nodes (R350 to R352, R361) -/

/-- Of Filigree's state, only nodes differ. -/
def Dev.NodesOnly (d e : Dev) : Prop := e.flg = { d.flg with nodes := e.flg.nodes }

section
variable (n : Nat) (d : Dev)

theorem Dev.flgNode_congr {d e : Dev} (h : e.flg = d.flg) : e.flgNode n = d.flgNode n := by
  rw [Dev.flgNode, h]
  rfl

theorem Dev.flgNode_modNode (f : FlgNode → FlgNode) : (d.modNode n f).flgNode n = f (d.flgNode n) := by
  rw [Dev.modNode, Dev.flgNode, Dev.putNode, KMap.getD, KMap.get?_put, if_pos rfl]
  rfl

theorem Dev.setNodeState_flg (st : Nat) : (d.setNodeState n st).flg =
    if (d.flgNode n).st = st then d.flg else (d.modNode n (fun x => { x with st := st })).flg := by
  unfold Dev.setNodeState
  split
  · rfl
  · rw [Dev.raise_flg]
    rfl

theorem Dev.nodesOnly_setNodeState (st : Nat) : d.NodesOnly (d.setNodeState n st) := by
  rw [Dev.NodesOnly, Dev.setNodeState_flg]
  split <;> rfl

theorem Dev.st_setNodeState (st : Nat) : ((d.setNodeState n st).flgNode n).st = st := by
  rw [Dev.flgNode, Dev.setNodeState_flg]
  split
  · assumption
  · exact congrArg FlgNode.st (d.flgNode_modNode n _)

end

theorem Dev.nodesOnly_flgFinish (hdr : Option (CmdHdr × Nat)) (node : Option Nat) (reason : Nat) (d : Dev) :
    d.NodesOnly (d.flgFinish hdr node reason) := by
  unfold Dev.flgFinish
  split
  · rfl
  rename_i h code
  split
  · rw [Dev.NodesOnly, Dev.complete_flg]
    split
    · split
      · exact d.nodesOnly_setNodeState _ _
      · rfl
    · rfl
  split
  · rw [Dev.NodesOnly, Dev.complete_flg]
  · rw [Dev.NodesOnly, Dev.complete_flg]

theorem Dev.NodesOnly.rst {d e : Dev} (h : d.NodesOnly e) : e.flg.rst = d.flg.rst := by rw [h]

theorem Dev.NodesOnly.held {d e : Dev} (h : d.NodesOnly e) : e.flg.held = d.flg.held := by rw [h]

theorem Dev.RadioOnly.rst {d e : Dev} (h : d.RadioOnly e) : e.flg.rst = d.flg.rst := by rw [h]

theorem Dev.RadioOnly.held {d e : Dev} (h : d.RadioOnly e) : e.flg.held = d.flg.held := by rw [h]

theorem Dev.RadioOnly.relay {d e : Dev} (h : d.RadioOnly e) : e.flg.relay = d.flg.relay := by rw [h]

theorem Dev.RadioOnly.nextBcn {d e : Dev} (h : d.RadioOnly e) : e.flg.nextBcn = d.flg.nextBcn := by rw [h]

theorem Dev.RadioOnly.rcOut {d e : Dev} (h : d.RadioOnly e) : e.flg.rcOut = d.flg.rcOut := by rw [h]

/-! ### Radio link faults (R337, R349) -/

theorem Dev.rst_txEnd (x : FlgTx) (reason : Nat) (d : Dev) : (d.txEnd x reason).flg.rst = d.flg.rst := by
  unfold Dev.txEnd
  extract_lets freed flg asked
  have hfreed : freed.flg.rst = d.flg.rst := by
    unfold freed
    split <;> rfl
  have hasked : asked.flg.rst = d.flg.rst := by
    unfold asked
    split
    · exact hfreed
    · exact hfreed
  exact (Dev.nodesOnly_flgFinish ..).rst.trans hasked

/-- A frame that was not acknowledged leaves the transceiver's reset. -/
theorem Dev.rst_noAck (x : FlgTx) (d : Dev) : (d.noAck x).flg.rst = d.flg.rst := by
  unfold Dev.noAck
  split
  · exact (Dev.radioNext_sends _).1.rst
  · refine (Dev.radioNext_sends _).1.rst.trans ((Dev.rst_txEnd ..).trans ?_)
    split <;> rfl

/-- The transceiver is reset for 1 ms. -/
theorem Dev.rst_rlpFault (cause status : Nat) (d : Dev) : (d.rlpFault cause status).flg.rst = some (d.raw + 1000000) := by
  unfold Dev.rlpFault
  extract_lets raised posted air flg reset
  have hraw : posted.raw = d.raw := by
    rw [show posted.raw = raised.raw from Dev.post_raw .., show raised.raw = (d.bump Reg.FLG_RLP_FAULTS 1).raw from Dev.raise_raw ..]
    rfl
  have hreset : reset.flg.rst = some (d.raw + 1000000) := by
    rw [← hraw]
    rfl
  clear_value air
  split
  · exact (Dev.rst_noAck ..).trans hreset
  · exact hreset

/-! ### Received frames (R337 to R339, R350) -/

section
variable {f : FlgFrame} {d : Dev} (hon : d.flgOn = true) (hrst : d.flg.rst = none)
include hon hrst

theorem Dev.flgReceive_of_status (hstatus : f.statusByte / 16 ≠ 1) : d.flgReceive f = d.rlpFault 2 f.statusByte := by
  rw [Dev.flgReceive, if_neg (by simp [hon, hrst]), if_pos hstatus]

variable (hstatus : f.statusByte / 16 = 1) (hbit : f.statusByte.testBit 2 = false)
include hstatus hbit

theorem Dev.flgReceive_of_unsupported (hbad : f.version ≠ 2 ∨ f.body = .unsupported ∨ 6 < f.level) :
    d.flgReceive f = d.bump Reg.FLG_RX_UNSUP 1 := by
  rw [Dev.flgReceive, if_neg (by simp [hon, hrst]), if_neg (not_not.2 hstatus), if_neg (ne_true_of_eq_false hbit), if_pos hbad]

variable (hgood : ¬ (f.version ≠ 2 ∨ f.body = .unsupported ∨ 6 < f.level))
include hgood

theorem Dev.flgReceive_of_other (hother : f.pan ≠ d.fld Reg.FLG_PAN 0 16 ∨ (f.dst ≠ d.ownShort ∧ f.dst ≠ 0xFFFF)) :
    d.flgReceive f = d := by
  rw [Dev.flgReceive, if_neg (by simp [hon, hrst]), if_neg (not_not.2 hstatus), if_neg (ne_true_of_eq_false hbit), if_neg hgood, if_pos hother]

variable (hmine : ¬ (f.pan ≠ d.fld Reg.FLG_PAN 0 16 ∨ (f.dst ≠ d.ownShort ∧ f.dst ≠ 0xFFFF)))
include hmine

theorem Dev.flgReceive_of_insecure (hsec : f.level < 5 + d.fld Reg.FLG_SEC 0 1 ∨ f.keyIndex ≠ d.fld Reg.FLG_SEC 16 8) :
    d.flgReceive f = d.nodeMicFail Reg.FLG_INSECURE (d.frameNode f) := by
  rw [Dev.flgReceive, if_neg (by simp [hon, hrst]), if_neg (not_not.2 hstatus), if_neg (ne_true_of_eq_false hbit), if_neg hgood,
    if_neg hmine]
  exact if_pos hsec

theorem Dev.flgReceive_of_replay {n : Nat} (hsec : ¬ (f.level < 5 + d.fld Reg.FLG_SEC 0 1 ∨ f.keyIndex ≠ d.fld Reg.FLG_SEC 16 8))
    (hmic : f.micOk = true) (hnode : d.frameNode f = some n) (hctr : f.counter.toNat < (d.flgNode n).lastFc.toNat) :
    d.flgReceive f = d.nodeReplay n := by
  rw [Dev.flgReceive, if_neg (by simp [hon, hrst]), if_neg (not_not.2 hstatus), if_neg (ne_true_of_eq_false hbit), if_neg hgood,
    if_neg hmine, if_neg hsec, if_neg (by simp [hmic]), hnode, if_neg (by simp)]
  exact if_pos hctr

end

theorem Dev.lastFc_nodeReplay (n : Nat) (d : Dev) : ((d.nodeReplay n).flgNode n).lastFc = (d.flgNode n).lastFc := by
  rw [Dev.nodeReplay, Dev.flgNode_congr n (Dev.bump_flg ..), Dev.flgNode_modNode]

/-- A frame read from the radio, by the first of its checks that fails. -/
theorem flgFrameReceived_checks (f : FlgFrame) (s : State) (hon : s.dev.flgOn = true) (hrst : s.dev.flg.rst = none) :
    (f.statusByte / 16 ≠ 1 → Completes (.flgFrameReceived f) s (fun t => t.dev = s.dev.rlpFault 2 f.statusByte ∧
      t.dev.flg.rst = some (s.dev.raw + 1000000) ∧ t.bd = s.bd)) ∧
    (f.statusByte / 16 = 1 → f.statusByte.testBit 2 = false →
      (f.version ≠ 2 ∨ f.body = .unsupported ∨ 6 < f.level → Completes (.flgFrameReceived f) s (fun t =>
        t.dev = s.dev.bump Reg.FLG_RX_UNSUP 1)) ∧
      (f.version = 2 → f.body ≠ .unsupported → f.level ≤ 6 →
        (f.pan ≠ s.dev.fld Reg.FLG_PAN 0 16 ∨ (f.dst ≠ s.dev.ownShort ∧ f.dst ≠ 0xFFFF) → Completes (.flgFrameReceived f) s (fun t =>
          t.dev = s.dev)) ∧
        (f.pan = s.dev.fld Reg.FLG_PAN 0 16 → f.dst = s.dev.ownShort ∨ f.dst = 0xFFFF →
          (f.level < 5 + s.dev.fld Reg.FLG_SEC 0 1 ∨ f.keyIndex ≠ s.dev.fld Reg.FLG_SEC 16 8 → Completes (.flgFrameReceived f) s (fun t =>
            t.dev = s.dev.nodeMicFail Reg.FLG_INSECURE (s.dev.frameNode f))) ∧
          (∀ n, 5 + s.dev.fld Reg.FLG_SEC 0 1 ≤ f.level → f.keyIndex = s.dev.fld Reg.FLG_SEC 16 8 → f.micOk = true →
            s.dev.frameNode f = some n → f.counter.toNat < (s.dev.flgNode n).lastFc.toNat → Completes (.flgFrameReceived f) s (fun t =>
              t.dev = s.dev.nodeReplay n ∧ (t.dev.flgNode n).lastFc = (s.dev.flgNode n).lastFc))))) := by
  refine ⟨fun hstatus => completes_onFlg rfl (Dev.flgReceive_of_status hon hrst hstatus) fun _ _ => ⟨rfl, Dev.rst_rlpFault .., rfl⟩,
    fun hstatus hbit => ⟨fun hbad => completes_onFlg rfl (Dev.flgReceive_of_unsupported hon hrst hstatus hbit hbad) fun _ _ => rfl,
      fun hver hbody hlevel => ?_⟩⟩
  have hgood : ¬ (f.version ≠ 2 ∨ f.body = .unsupported ∨ 6 < f.level) := by simp [hver, hbody, hlevel]
  refine ⟨fun hother => completes_onFlg rfl (Dev.flgReceive_of_other hon hrst hstatus hbit hgood hother) fun _ _ => rfl,
    fun hpan hdst => ?_⟩
  have hmine : ¬ (f.pan ≠ s.dev.fld Reg.FLG_PAN 0 16 ∨ (f.dst ≠ s.dev.ownShort ∧ f.dst ≠ 0xFFFF)) := by
    rintro (h | ⟨h₁, h₂⟩)
    · exact h hpan
    · exact hdst.elim h₁ h₂
  refine ⟨fun hsec => completes_onFlg rfl (Dev.flgReceive_of_insecure hon hrst hstatus hbit hgood hmine hsec) fun _ _ => rfl,
    fun n hlev hkey hmic hnode hctr => ?_⟩
  have hsec : ¬ (f.level < 5 + s.dev.fld Reg.FLG_SEC 0 1 ∨ f.keyIndex ≠ s.dev.fld Reg.FLG_SEC 16 8) := by
    rintro (h | h)
    · exact absurd hlev (not_le.2 h)
    · exact h hkey
  exact completes_onFlg rfl (Dev.flgReceive_of_replay hon hrst hstatus hbit hgood hmine hsec hmic hnode hctr) fun _ _ =>
    ⟨rfl, Dev.lastFc_nodeReplay ..⟩

/-! ### Beacons (R341) -/

theorem Dev.flgTxOn_iff (d : Dev) : d.flgTxOn = true ↔ d.flgOn = true ∧ d.flg.rst = none ∧ d.flg.ended = false := by
  simp [Dev.flgTxOn, and_assoc]

/-- The beacon after this one is set. -/
def Dev.nextBeacon (d : Dev) : Dev :=
  { d with flg := { d.flg with
    nextBcn := (d.tick / ((d.bcnMs * 1000000 : Nat) : Int) + 1) * ((d.bcnMs * 1000000 : Nat) : Int) } }

theorem Dev.beaconStep_of_due {d : Dev} (htx : d.flgTxOn = true) (hdue : d.flg.nextBcn ≤ d.tick) :
    d.beaconStep = d.nextBeacon.radioSend (d.nextBeacon.mkFrame 0 0xFFFF none none false []) false none none none :=
  if_neg (by simp [htx, hdue])

theorem flgBeacon_sends (s : State) (htx : s.dev.flgTxOn = true) (hdue : s.dev.flg.nextBcn ≤ s.dev.tick) : Completes .flgBeacon s (fun t =>
    t.dev.flg.nextBcn = (s.dev.tick / ((s.dev.bcnMs * 1000000 : Nat) : Int) + 1) * ((s.dev.bcnMs * 1000000 : Nat) : Int) ∧
      t.dev.flg.queue.length + t.dev.flg.air.toList.length = s.dev.flg.queue.length + s.dev.flg.air.toList.length + 1 ∧
      s.nv.hopCtr ≤ t.nv.hopCtr ∧ t.nv = { s.nv with hopCtr := t.nv.hopCtr } ∧ t.bd = s.bd) := by
  obtain ⟨hon, -, hend⟩ := s.dev.flgTxOn_iff.1 htx
  exact completes_onFlg rfl (Dev.beaconStep_of_due htx hdue) fun n hn =>
    ⟨(Dev.radioOnly_radioSend ..).nextBcn, Dev.inFlight_radioSend s.dev.nextBeacon _ _ _ _ _ hon hend, hn, rfl, rfl⟩

/-! ### Channel access (R347) -/

section
variable {x : FlgTx} {rest : List FlgTx} {rssi : List Int} {d : Dev} (hqueue : d.flg.queue = x :: rest) (htx : d.flgTxOn = true)
  (hair : d.flg.air = none) (hready : x.ready = true) (hdue : x.due ≤ d.raw)
include hqueue htx hair hready hdue

theorem Dev.backoffStep_clear (hclear : rssi.all (fun r => decide (r < signedOf 8 (d.fld Reg.FLG_LBT 16 8))) = true) :
    d.backoffStep rssi = ({ d with flg := { d.flg with queue := rest } } : Dev).radioGo x := by
  simp only [Dev.backoffStep, hqueue]
  rw [if_neg (by simp [htx, hair, hready, hdue])]
  exact if_pos hclear

theorem Dev.backoffStep_fails (hbusy : rssi.all (fun r => decide (r < signedOf 8 (d.fld Reg.FLG_LBT 16 8))) = false)
    (hlast : d.fld Reg.FLG_LBT 12 3 ≤ x.nb) : d.backoffStep rssi = d.ccaFail x rest := by
  simp only [Dev.backoffStep, hqueue]
  rw [if_neg (by simp [htx, hair, hready, hdue]), if_neg (ne_true_of_eq_false hbusy)]
  exact if_pos (by omega)

/-- A channel that is not clear backs off once more. -/
theorem Dev.backoffStep_again (hbusy : rssi.all (fun r => decide (r < signedOf 8 (d.fld Reg.FLG_LBT 16 8))) = false)
    (hmore : x.nb < d.fld Reg.FLG_LBT 12 3) : ∃ be due free, d.backoffStep rssi =
      { d with free := free, flg := { d.flg with queue := { x with nb := x.nb + 1, be := be, due := due, ready := true } :: rest } } := by
  obtain ⟨due, free, hback⟩ := d.backoff_eq { x with nb := x.nb + 1, be := min (x.be + 1) (d.fld Reg.FLG_LBT 8 4) }
  simp only [Dev.backoffStep, hqueue]
  rw [if_neg (by simp [htx, hair, hready, hdue]), if_neg (ne_true_of_eq_false hbusy), if_neg (by omega), hback]
  exact ⟨_, due, free, rfl⟩

end

theorem flgBackoff_accesses (x : FlgTx) (rest : List FlgTx) (rssi : List Int) (s : State) (hqueue : s.dev.flg.queue = x :: rest)
    (htx : s.dev.flgTxOn = true) (hair : s.dev.flg.air = none) (hready : x.ready = true) (hdue : x.due ≤ s.dev.raw) :
    (rssi.all (fun r => decide (r < signedOf 8 (s.dev.fld Reg.FLG_LBT 16 8))) = true → Completes (.flgBackoff rssi) s (fun t =>
      t.dev.flg.queue = rest ∧ t.dev.reg Reg.FLG_TX_FRAMES = s.dev.reg Reg.FLG_TX_FRAMES + 1 ∧
      ∃ a, t.dev.flg.air = some a ∧ a.sfd = none ∧ a.pred = s.dev.raw + s.dev.fld Reg.FLG_RLP_TXLAT 0 24)) ∧
    (rssi.all (fun r => decide (r < signedOf 8 (s.dev.fld Reg.FLG_LBT 16 8))) = false → x.nb < s.dev.fld Reg.FLG_LBT 12 3 →
      Completes (.flgBackoff rssi) s (fun t => ∃ y, t.dev.flg.queue = y :: rest ∧ y.nb = x.nb + 1 ∧ y.f = x.f ∧
        t.dev = { s.dev with flg := t.dev.flg, free := t.dev.free })) ∧
    (rssi.all (fun r => decide (r < signedOf 8 (s.dev.fld Reg.FLG_LBT 16 8))) = false → s.dev.fld Reg.FLG_LBT 12 3 ≤ x.nb →
      Completes (.flgBackoff rssi) s (fun t => t.dev = s.dev.ccaFail x rest)) := by
  refine ⟨fun hclear => ?_, fun hbusy hmore => ?_, fun hbusy hlast => ?_⟩
  · refine completes_onFlg rfl (Dev.backoffStep_clear hqueue htx hair hready hdue hclear) fun _ _ => ?_
    obtain ⟨ctr, dsn, ended, f, hflg⟩ := Dev.radioGo_flg x { s.dev with flg := { s.dev.flg with queue := rest } }
    exact ⟨congrArg FlgS.queue hflg, Dev.reg_radioGo .., _, congrArg FlgS.air hflg, rfl, rfl⟩
  · obtain ⟨be, due, free, hstep⟩ := Dev.backoffStep_again hqueue htx hair hready hdue hbusy hmore
    exact completes_onFlg rfl hstep fun _ _ => ⟨_, rfl, rfl, rfl, rfl⟩
  · exact completes_onFlg rfl (Dev.backoffStep_fails hqueue htx hair hready hdue hbusy hlast) fun _ _ => rfl

/-! ### Acknowledgements (R348, R349) -/

theorem Dev.ackStep_sends {due dst q : Nat} {pend : Bool} {rest : List (Nat × Nat × Nat × Bool)} {d : Dev}
    (hacks : d.flg.acks = (due, dst, q, pend) :: rest) (htx : d.flgTxOn = true) (hdue : due ≤ d.raw) :
    d.ackStep.flg.acks = rest ∧ d.ackStep.flg.ctr = d.flg.ctr + 1 ∧
      d.ackStep.reg Reg.FLG_TX_FRAMES = d.reg Reg.FLG_TX_FRAMES + 1 := by
  obtain ⟨ended, hflg⟩ := Dev.takeCtr_flg { d with flg := { d.flg with acks := rest } }
  have hreg := (Dev.keeps_takeCtr { d with flg := { d.flg with acks := rest } }).2 Reg.FLG_TX_FRAMES (by decide) (by decide)
  simp only [Dev.ackStep, hacks]
  rw [if_neg (by simp [htx, hdue])]
  generalize Dev.takeCtr { d with flg := { d.flg with acks := rest } } = p at hflg hreg
  obtain ⟨c, e⟩ := p
  refine ⟨congrArg FlgS.acks hflg, congrArg FlgS.ctr hflg, ?_⟩
  rw [Dev.reg_wrapAdd, if_pos rfl]
  exact congrArg (· + BitVec.ofNat 32 1) hreg

theorem Dev.ackTimeoutStep_of_due {a : FlgAir} {u : Nat} {d : Dev} (hair : d.flg.air = some a) (hsfd : a.sfd = some u)
    (huni : a.tx.uni = true) (hdue : u + d.airNs a.tx.f.len + clampNat 1000 65535 (d.fld Reg.FLG_ACK 16 13 * 8) * 1000 ≤ d.raw) :
    d.ackTimeoutStep = ({ d with flg := { d.flg with air := none } } : Dev).noAck a.tx := by
  simp only [Dev.ackTimeoutStep, hair, hsfd]
  exact if_neg (by simp [huni, hdue])

/-! ### Held frames and lost nodes (R350 to R352) -/

theorem Dev.held_heldExpiry {x : FlgHeld} {d : Dev} (hx : d.flg.held.find? (fun y => decide (y.due ≤ d.raw)) = some x) :
    d.heldExpiry.flg.held = d.flg.held.filter (fun y => y.id != x.id) := by
  simp only [Dev.heldExpiry, hx]
  exact (Dev.nodesOnly_flgFinish ..).held

/-- A node is LOST. -/
def Dev.IsLost (n : Nat) (d : Dev) : Prop := (d.flgNode n).st = 3

section
variable {n : Nat} {d e : Dev}

theorem Dev.IsLost.congr (h : d.IsLost n) (hnodes : e.flg.nodes = d.flg.nodes) : e.IsLost n := by
  rw [Dev.IsLost, Dev.flgNode, hnodes]
  exact h

/-- Commands that end for a LOST node leave it LOST. -/
theorem Dev.IsLost.flgFinish (h : d.IsLost n) (hdr : Option (CmdHdr × Nat)) (reason : Nat) : (d.flgFinish hdr (some n) reason).IsLost n := by
  have hst : (d.flgNode n).st ≠ 2 := by rw [show (d.flgNode n).st = 3 from h]; decide
  unfold Dev.flgFinish
  split
  · exact h
  split
  · dsimp only
    rw [if_neg hst]
    exact h.congr (congrArg FlgS.nodes (Dev.complete_flg ..))
  split
  · exact h.congr (congrArg FlgS.nodes (Dev.complete_flg ..))
  · exact h.congr (congrArg FlgS.nodes (Dev.complete_flg ..))

theorem Dev.IsLost.foldl {α : Type} {f : Dev → α → Dev} (hf : ∀ (e : Dev) (x : α), e.IsLost n → (f e x).IsLost n) (l : List α)
    (h : d.IsLost n) : (l.foldl f d).IsLost n := by
  induction l generalizing d with
  | nil => exact h
  | cons x l ih => exact ih (hf d x h)

theorem Dev.IsLost.countDrop (h : d.IsLost n) :
    ((d.modNode n (fun y => { y with bufDrop := min 65535 (y.bufDrop + 1) })).bump Reg.FLG_BUF_DROP 1).IsLost n := by
  rw [Dev.IsLost, Dev.flgNode_congr n (Dev.bump_flg ..), Dev.flgNode_modNode]
  exact h

theorem Dev.IsLost.dropHeld (h : d.IsLost n) (reason : Nat) : (d.dropHeld n reason true).IsLost n :=
  h.foldl (fun e x he => by
    have hkept : (e.unhold x.id).IsLost n := he.congr rfl
    exact (hkept.flgFinish x.hdr reason).countDrop) _

end

theorem Dev.isLost_nodeLost {n : Nat} {d : Dev} (hon : d.flgOn = true) (hst : (d.flgNode n).st = 2)
    (hsilent : (d.flgNode n).heardRaw + 3 * d.contactNs n < d.raw) : (d.nodeLost n).IsLost n := by
  have hset : (d.setNodeState n 3).IsLost n := Dev.st_setNodeState n d 3
  unfold Dev.nodeLost
  extract_lets x dropped mine flg trimmed ended flg'
  rw [if_neg (by simp [x, hon, hst, hsilent])]
  have htrimmed : trimmed.IsLost n := (hset.dropHeld 4).congr rfl
  have hended : ended.IsLost n := htrimmed.foldl (fun _ _ he => he.flgFinish ..) _
  split
  · split
    · refine Dev.IsLost.flgFinish ?_ ..
      exact hended.congr rfl
    · exact hended
  · exact hended

/-! ### The parent's beacons, floods and the radio link (R336, R337, R353, R354) -/

theorem flgParentBeaconMissed_counts (u : Nat) (s : State) (hexpect : s.dev.flg.expect = some u) (hon : s.dev.flgOn = true)
    (hrouter : s.dev.isRouter = true) (hup : s.dev.flg.up = 2) (hlate : u + 5000000 < s.dev.raw) :
    (s.dev.flg.missed < 2 → Completes .flgParentBeaconMissed s (fun t => t.dev = { s.dev with flg := { s.dev.flg with
      missed := s.dev.flg.missed + 1, expect := some (u + s.dev.bcnMs * 1000000) } })) ∧
    (2 ≤ s.dev.flg.missed → Completes .flgParentBeaconMissed s (fun t => t.dev.flg.up = 1 ∧ t.dev.flg.expect = none ∧
      Dev.Keeps (fun off => off == Reg.FLG_EVT) { s.dev with flg := t.dev.flg } t.dev)) := by
  have hstep : s.dev.beaconMissed = if 3 ≤ s.dev.flg.missed + 1 then s.dev.orphan
      else { s.dev with flg := { s.dev.flg with missed := s.dev.flg.missed + 1, expect := some (u + s.dev.bcnMs * 1000000) } } := by
    simp only [Dev.beaconMissed, hexpect]
    exact if_neg (by simp [hon, hrouter, hup, hlate])
  refine ⟨fun hfew => completes_onFlg rfl (hstep.trans (if_neg (by omega))) fun _ _ => rfl,
    fun hmany => completes_onFlg rfl (hstep.trans (if_pos (by omega))) fun _ _ => ?_⟩
  have hkeeps : Dev.Keeps (fun off => off == Reg.FLG_EVT)
      { s.dev with flg := { s.dev.flg with up := 1, missed := 0, expect := none, cand := none } } s.dev.orphan :=
    (Dev.keeps_raise _ _ _ (.inl (by simp))).trans (Dev.keeps_post ..)
  refine ⟨congrArg FlgS.up hkeeps.flg_eq, congrArg FlgS.expect hkeeps.flg_eq, ?_⟩
  rw [hkeeps.flg_eq]
  exact hkeeps

theorem Dev.relay_relayStep {r : Nat × RadioTx} {d : Dev} (hr : d.flg.relay.find? (fun x => decide (x.1 ≤ d.raw)) = some r) :
    d.relayStep.flg.relay = d.flg.relay.erase r := by
  simp only [Dev.relayStep, hr]
  exact (Dev.radioOnly_radioSend ..).relay

/-- A stamp is the raw count to within 8 ns. -/
theorem Dev.sfdEdge_stamps {d : Dev} (hair : d.flg.air = none) (hpred : d.flg.ackPred = none) :
    ∃ u : Int, d.sfdEdge = { d with flg := { d.flg with sfd := ((d.raw : Int) + (u % 17 - 8)).toNat }, free := d.free + 1 } := by
  refine ⟨Config.freeInt 72 d.free, ?_⟩
  simp only [Dev.sfdEdge, Dev.drawI, hair, hpred]

theorem rlpSfdEdge_stamps (s : State) (hon : s.dev.flgOn = true) (hair : s.dev.flg.air = none) (hpred : s.dev.flg.ackPred = none) :
    Completes .rlpSfdEdge s (fun t => (t.dev.flg.sfd : Int) ≤ s.dev.raw + 8 ∧ (s.dev.raw : Int) ≤ t.dev.flg.sfd + 8 ∧
      t.dev = { s.dev with flg := { s.dev.flg with sfd := t.dev.flg.sfd }, free := s.dev.free + 1 }) := by
  obtain ⟨u, hu⟩ := Dev.sfdEdge_stamps hair hpred
  refine completes_onFlg rfl ((if_pos hon).trans hu) fun _ _ => ⟨?_, ?_, rfl⟩
  · show ((((s.dev.raw : Int) + (u % 17 - 8)).toNat : Nat) : Int) ≤ s.dev.raw + 8
    omega
  · show (s.dev.raw : Int) ≤ ((((s.dev.raw : Int) + (u % 17 - 8)).toNat : Nat) : Int) + 8
    omega

theorem Dev.sfdTimeout_of_late {a : FlgAir} {d : Dev} (hair : d.flg.air = some a) (hsfd : a.sfd = none) (hlate : a.pred + 2000000 < d.raw) :
    d.sfdTimeout = d.rlpFault 1 0 := by
  simp only [Dev.sfdTimeout, hair, hsfd]
  exact if_pos (by simp [hlate])

theorem Dev.rst_rlpResetEnd {u : Nat} {d : Dev} (hrst : d.flg.rst = some u) (hdue : u ≤ d.raw) : d.rlpResetEnd.flg.rst = none := by
  simp only [Dev.rlpResetEnd, hrst]
  rw [if_neg (not_lt.2 hdue)]
  split
  · exact (Dev.radioNext_sends _).1.rst
  · rfl

/-- Settles O45, event by event (R336 to R339, R341, R347 to R355). That a missed beacon is expected one interval later, and that a frame
with too little security counts for its node, is log entry 69. -/
theorem radioTraffic : Obligations.RadioTraffic :=
  ⟨flgFrameReceived_checks, flgBeacon_sends, flgBackoff_accesses,
    fun _ _ _ _ _ _ hacks htx hdue => completes_onFlg rfl rfl fun _ _ => Dev.ackStep_sends hacks htx hdue,
    fun _ _ _ hair hsfd huni hdue => completes_onFlg rfl (Dev.ackTimeoutStep_of_due hair hsfd huni hdue) fun _ _ => rfl,
    fun _ _ hx => completes_onFlg rfl rfl fun _ _ => ⟨Dev.held_heldExpiry hx, rfl⟩,
    fun _ _ hon hst hsilent => completes_onFlg rfl rfl fun _ _ => Dev.isLost_nodeLost hon hst hsilent,
    flgParentBeaconMissed_counts,
    fun _ _ hr => completes_onFlg rfl rfl fun _ _ => Dev.relay_relayStep hr,
    fun _ => ⟨_, rfl, rfl⟩,
    rlpSfdEdge_stamps,
    fun _ _ hon hair hsfd hlate => completes_onFlg rfl ((if_pos hon).trans (Dev.sfdTimeout_of_late hair hsfd hlate))
      fun _ _ => ⟨rfl, Dev.rst_rlpFault ..⟩,
    fun _ _ hrst hdue => completes_onFlg rfl rfl fun _ _ => Dev.rst_rlpResetEnd hrst hdue⟩

/-! ### FLG_SEND and FLG_DISASSOC (R360, R361) -/

theorem completes_flgCmd {c : Instr} {h : CmdHdr} {code : Nat} {slots : List Nat} {present : Bool} {legal : List OpState}
    {body : Dev → Dev} {s : State} {d : Dev} {P : State → Prop} (hc : exec c s = s.onFlg (Dev.cmd h code slots present legal body))
    (ha : s.dev.Admits h code slots present legal) (hd : body s.dev = d)
    (hP : ∀ n, P { s with dev := d, nv := { s.nv with hopCtr := n } }) : Completes c s P :=
  completes_onFlg hc ((Dev.cmd_of_admits ha).trans hd) fun n _ => hP n

/-- The mesh IE of a payload that goes down the tree to a node. -/
def Dev.hostMesh (node : Nat) (d : Dev) : MeshIe :=
  { origin := d.ownEui, dest := nEui d.act node, ttl := zeroActs 1 (d.fld Reg.FLG_FLOOD 0 4), flood := false, up := false, seq := 0 }

section
variable {h : CmdHdr} {node len : Nat} {force : Bool} {data : List Byte} {d : Dev}

theorem Dev.flgSendCmd_of_absent (hbad : (2047 < node ∧ node ≠ 0xFFFF) ∨ len < 1 ∨ 128 < len) :
    d.flgSendCmd h node force len data false = d.complete h 0x90 2 [] :=
  if_pos (by simpa using hbad)

variable (hnode : node ≤ 2047) (hlow : 1 ≤ len) (hhigh : len ≤ 128)
include hnode hlow hhigh

theorem Dev.flgSendCmd_refused (hforce : force = false) (hst : (d.flgNode node).st ≠ 2) :
    d.flgSendCmd h node force len data false = d.refuse h 0x90 6 1 0xFFFF [] :=
  (if_neg (by simp; omega)).trans (if_pos (by simp [hforce, hst]; omega))

/-- `FLG_SEND` to a node that may be sent to, with its data read. -/
theorem Dev.flgSendCmd_of_node (hmay : force = true ∨ (d.flgNode node).st = 2) : d.flgSendCmd h node force len data false =
    if !d.flgOn || d.flg.ended then d.complete h 0x90 7 [0, 0, 1]
    else if d.flg.up = 1 && (force || !(d.flgNode node).direct) then d.complete h 0x90 7 [0, 0, 5]
    else if force || !(d.flgNode node).direct then
      (d.hostE2e (data.take len)).2.ownFlood (nEui d.act node) (d.hostE2e (data.take len)).1 (some (h, 0x90))
    else if nSleepy d.act node && !d.canHold node then (d.hostE2e (data.take len)).2.complete h 0x90 3 []
    else (d.hostE2e (data.take len)).2.toChild node 1 (some (d.hostMesh node)) (some (d.hostE2e (data.take len)).1) [] (some (h, 0x90)) := by
  have hevery : decide (node = 0xFFFF) = false := decide_eq_false (by omega)
  have hadmitted : (!force && (d.flgNode node).st != 2) = false := by rcases hmay with h | h <;> simp [h]
  rw [Dev.flgSendCmd, hevery]
  dsimp only
  rw [if_neg (by simp; omega), Bool.not_false, Bool.true_and, hadmitted, if_neg Bool.false_ne_true, if_neg Bool.false_ne_true]
  rfl

end

theorem Dev.rcOut_seenAdd (origin seq : Nat) (d : Dev) : (d.seenAdd origin seq).flg.rcOut = d.flg.rcOut := by
  unfold Dev.seenAdd
  dsimp only
  split <;> rfl

theorem Dev.rcOut_ownFlood (dest : Nat) (e : E2e) (hdr : Option (CmdHdr × Nat)) (d : Dev) :
    (d.ownFlood dest e hdr).flg.rcOut = d.flg.rcOut :=
  (Dev.radioOnly_radioSend ..).rcOut.trans (Dev.rcOut_seenAdd ..)

theorem Dev.rcOut_hold (n : Nat) (up : Bool) (f : RadioTx) (hdr : Option (CmdHdr × Nat)) (d : Dev) :
    (d.hold n up f hdr).flg.rcOut = d.flg.rcOut := by
  unfold Dev.hold
  split <;> rfl

theorem Dev.rcOut_toChild (n kind : Nat) (mesh : Option MeshIe) (e : Option E2e) (arg : List Nat) (hdr : Option (CmdHdr × Nat)) (d : Dev) :
    (d.toChild n kind mesh e arg hdr).flg.rcOut = d.flg.rcOut := by
  unfold Dev.toChild
  dsimp only
  split
  · exact Dev.rcOut_hold ..
  · exact (Dev.radioOnly_radioSend ..).rcOut

/-- A payload accepted takes the next replay counter, whatever becomes of its frame. -/
theorem Dev.rcOut_flgSendCmd {h : CmdHdr} {node len : Nat} {force : Bool} {data : List Byte} {d : Dev} (hnode : node ≤ 2047)
    (hlow : 1 ≤ len) (hhigh : len ≤ 128) (hmay : force = true ∨ (d.flgNode node).st = 2) (hon : d.flgOn = true) (hend : d.flg.ended = false)
    (hup : d.flg.up ≠ 1) : (d.flgSendCmd h node force len data false).flg.rcOut = d.flg.rcOut + 1 := by
  rw [Dev.flgSendCmd_of_node hnode hlow hhigh hmay, if_neg (by simp [hon, hend]), if_neg (by simp [hup])]
  split
  · exact Dev.rcOut_ownFlood ..
  split
  · exact congrArg FlgS.rcOut (Dev.complete_flg ..)
  · exact Dev.rcOut_toChild ..

section
variable {h : CmdHdr} {node : Nat} {d : Dev}

theorem Dev.flgDisassocCmd_of_absent (hbad : 2047 < node) : d.flgDisassocCmd h node = d.complete h 0x91 2 [] := if_pos hbad

variable (hnode : node ≤ 2047)
include hnode

theorem Dev.flgDisassocCmd_refused (hno : (d.flgNode node).st ≠ 2 ∨ (d.flgNode node).direct = false) :
    d.flgDisassocCmd h node = d.refuse h 0x91 6 1 0xFFFF [] :=
  (if_neg (not_lt.2 hnode)).trans (if_pos (by
    simp only [Bool.not_eq_true', Bool.and_eq_false_iff, beq_eq_false_iff_ne]
    exact hno))

variable (hst : (d.flgNode node).st = 2) (hdirect : (d.flgNode node).direct = true)
  (hroom : nSleepy d.act node = false ∨ d.canHold node = true)
include hst hdirect hroom

/-- `FLG_DISASSOC` of a direct node, for which a frame can be sent or held. -/
theorem Dev.flgDisassocCmd_of_direct : d.flgDisassocCmd h node =
    if !d.flgOn || d.flg.ended then (d.setNodeState node 1).complete h 0x91 0 [] else d.toChild node 4 none none [] (some (h, 0x91)) := by
  rw [Dev.flgDisassocCmd, if_neg (not_lt.2 hnode), if_neg (by simp [hst, hdirect]), if_neg]
  rcases hroom with hroom | hroom <;> simp [hroom]

end

theorem Dev.held_hold {n : Nat} {d : Dev} (hroom : d.canHold n = true) (up : Bool) (f : RadioTx) (hdr : Option (CmdHdr × Nat)) :
    (d.hold n up f hdr).flg.held.length = d.flg.held.length + 1 ∧ (d.hold n up f hdr).flg.queue = d.flg.queue := by
  rw [Dev.hold, if_pos hroom]
  exact ⟨by simp, rfl⟩

theorem Dev.toChild_sleepy {n : Nat} {d : Dev} (hsleepy : nSleepy d.act n = true) (kind : Nat) (hdr : Option (CmdHdr × Nat)) :
    d.toChild n kind none none [] hdr = d.hold n false (d.mkFrame kind (shortOf n) none none false []) hdr := if_pos hsleepy

theorem Dev.toChild_awake {n : Nat} {d : Dev} (hawake : nSleepy d.act n = false) (kind : Nat) (hdr : Option (CmdHdr × Nat)) :
    d.toChild n kind none none [] hdr = d.radioSend (d.mkFrame kind (shortOf n) none none false []) true (some n) hdr none :=
  if_neg (ne_true_of_eq_false hawake)

/-- Settles O46, command by command (R360, R361). -/
theorem meshCommands : Obligations.MeshCommands := by
  refine ⟨?send, ?disassoc⟩
  case send =>
    intro h node addr len force data s ha
    refine ⟨fun hbad => completes_flgCmd rfl ha (Dev.flgSendCmd_of_absent hbad) fun _ => ⟨rfl, Dev.keeps_complete ..⟩,
      fun hnode hlow hhigh hforce hst => completes_flgCmd rfl ha (Dev.flgSendCmd_refused hnode hlow hhigh hforce hst)
        fun _ => ⟨rfl, Dev.keeps_refuse ..⟩,
      fun hnode hlow hhigh hmay => ⟨fun hoff => ?_, fun hon hend hup => completes_flgCmd rfl ha rfl
        fun _ => ⟨Dev.rcOut_flgSendCmd hnode hlow hhigh hmay hon hend hup, rfl, rfl⟩⟩⟩
    exact completes_flgCmd rfl ha ((Dev.flgSendCmd_of_node hnode hlow hhigh hmay).trans (if_pos (by simpa using hoff)))
      fun _ => ⟨rfl, Dev.keeps_complete ..⟩
  case disassoc =>
    intro h node s ha
    refine ⟨fun hbad => completes_flgCmd rfl ha (Dev.flgDisassocCmd_of_absent hbad) fun _ => ⟨rfl, Dev.keeps_complete ..⟩,
      fun hnode hno => completes_flgCmd rfl ha (Dev.flgDisassocCmd_refused hnode hno) fun _ => ⟨rfl, Dev.keeps_refuse ..⟩,
      fun hnode hst hdirect hroom => ?_⟩
    have hcmd := Dev.flgDisassocCmd_of_direct (h := h) hnode hst hdirect hroom
    refine ⟨fun hoff => completes_flgCmd rfl ha (hcmd.trans (if_pos (by simpa using hoff))) fun _ => ?_, fun hon hend => ?_⟩
    · exact (congrArg FlgNode.st (Dev.flgNode_congr node (Dev.complete_flg ..))).trans (Dev.st_setNodeState ..)
    have hsent := hcmd.trans (if_neg (by simp [hon, hend]))
    refine ⟨fun hsleepy => completes_flgCmd rfl ha (hsent.trans (Dev.toChild_sleepy hsleepy ..)) fun _ => ?_,
      fun hawake => completes_flgCmd rfl ha (hsent.trans (Dev.toChild_awake hawake ..)) fun _ => ?_⟩
    · exact Dev.held_hold (hroom.resolve_left (by simp [hsleepy])) ..
    · exact ⟨(Dev.radioOnly_radioSend ..).held, Dev.inFlight_radioSend s.dev _ _ _ _ _ hon hend⟩

end Sys2Proof.Machine
